-- ==== Sys2Proof/Word.lean ====
section
/-! DEFINITION. The word types of the Drusis 96 (spec/00_scope.md R1, spec/01_machine.md R13). -/

namespace Sys2Proof

/-- A 64-bit scalar or address register (R13). -/
abbrev Word := BitVec 64

/-- A byte of any memory (R1). -/
abbrev Byte := BitVec 8

/-- A vector register: 1024 bits (R13). -/
abbrev Vec := BitVec 1024

end Sys2Proof
end

