-- ==== Sys2Proof/Config.lean ====
section
/-! DEFINITION. What an implementation or the world outside fixes, and the free values. Nothing here has a body, so
a statement holds for every value. -/

namespace Sys2Proof.Config

/-- Free choices: the order of events whose times are open (log 5, DESIGN CHOICE), by a counter of the state. -/
opaque pick : Nat → Nat

/-- Free values, by a counter of the state (log 23, DESIGN CHOICE). -/
opaque freeWord : Nat → Word
opaque freeVec : Nat → Vec

/-- How far the fabric tick count moves in a core cycle (R326, log 10, DEDUCED). -/
opaque tickStep : Nat → Nat
/-- The domain's tick count when the boot ROM sets it (R326). -/
opaque domainTicks : Nat → Word

/-- Whether a routine pack's or an image's two signatures verify (R224, R399, log 8, DESIGN CHOICE). -/
opaque ed25519 : List Byte → List Byte → Bool
opaque mlDsa65 : List Byte → List Byte → Bool
/-- The signatures of the module identity key (R404, log 8, DESIGN CHOICE). -/
opaque signEd : List Byte → List Byte
opaque signMl : List Byte → List Byte
/-- SHA3-384 of the bytes given (R392, R404, log 9, DESIGN CHOICE). -/
opaque sha3 : List Byte → BitVec 384
/-- The device hash (R371, R392, log 9, DESIGN CHOICE). -/
opaque deviceHash : BitVec 384

/-- What firmware sets at bring-up: the node id (R323), `FBS`.BASE (R352), the ring's place and size (R371), the
spare cluster of each wing (R9) (log 11, DESIGN CHOICE). -/
opaque nodeId : BitVec 15
opaque fbBase : BitVec 35
opaque ringBase : BitVec 42
opaque ringLsz : BitVec 6
opaque coreMap : Nat → BitVec 3 × Bool
/-- The nodes that firmware lists for an ASID (R356). -/
opaque asidNodes : BitVec 16 → List Nat
/-- The tiles of device memory that a channel holds, by a home in each, and where firmware moves one: its new home, and the virtual
address that names it (R300) (log 11, DESIGN CHOICE). -/
opaque chanTiles : Nat → List Nat
opaque tileGoes : Nat → Nat → Nat × Nat
/-- Whether bring-up fails at stage 3, 4 or 5, with its detail (R398). -/
opaque bringUp : Nat → Option (BitVec 32)

/-- Whether another node refuses an access to one of its addresses that its map does not decide: its scratchpads and its window
(R324, log 85, DESIGN CHOICE). -/
opaque refuses : Nat → Nat → Bool
/-- Whether a chosen pair of atomics meets in a router (R243, log 14, DESIGN CHOICE). -/
opaque freeBool : Nat → Bool

end Sys2Proof.Config
end

