-- ==== Sys2Proof/Syntax.lean ====
section
/-! DEFINITION. The instructions: one constructor for each row of spec/opcode_table.json.
The slot operations carry their header fields (R28, R29) and the fields of their format family
(R30), each at its full width; `Sys2Proof.Instr.wf` says which values are legal. The rows without
an encoding are the machine's events (spec/95_what_each_step_holds.md); what they happen
to stands in the machine's field `ev` (`Sys2Proof.Machine.EvArg`). -/

namespace Sys2Proof

/-- The eight slots share seven opcode maps (R11, R45). -/
inductive Slot where
  | c | s | l | v | m | x | n
  deriving DecidableEq, Repr, Inhabited

/-- Fields common to the operation words: E, G, GS (R28) and, in families that have them, ARR and
BN (R29). -/
structure Hdr where
  ext : Bool := false
  g   : BitVec 4 := 0
  gs  : Bool := false
  arr : Bool := false
  bn  : BitVec 4 := 0
  deriving DecidableEq, Repr, Inhabited

/-- Family T (R30). -/
structure TOp where
  d   : BitVec 6 := 0
  a   : BitVec 6 := 0
  b   : BitVec 6 := 0
  sub : BitVec 2 := 0
  c   : BitVec 6 := 0
  x   : BitVec 21 := 0
  deriving DecidableEq, Repr, Inhabited

/-- Family I (R30). -/
structure IOp where
  d     : BitVec 6 := 0
  a     : BitVec 6 := 0
  imm8  : BitVec 8 := 0
  imm32 : BitVec 32 := 0
  deriving DecidableEq, Repr, Inhabited

/-- Family M (R30). -/
structure MOp where
  d    : BitVec 6 := 0
  base : BitVec 4 := 0
  ac   : BitVec 2 := 0
  st   : Bool := false
  size : BitVec 3 := 0
  step : BitVec 4 := 0
  lof  : BitVec 12 := 0
  ret  : Bool := false
  mrg  : Bool := false
  hint : BitVec 2 := 0
  off  : BitVec 11 := 0
  deriving DecidableEq, Repr, Inhabited

/-- Family F (R30, R158). -/
structure FOp where
  scope : BitVec 2 := 0
  bk    : BitVec 5 := 0
  ak    : BitVec 5 := 0
  low   : BitVec 8 := 0
  x     : BitVec 27 := 0
  deriving DecidableEq, Repr, Inhabited

/-- Family V (R30, R175). -/
structure VOp where
  w     : BitVec 2 := 0
  st    : Bool := false
  d     : BitVec 6 := 0
  a     : BitVec 6 := 0
  b     : BitVec 5 := 0
  b5    : Bool := false
  c     : BitVec 6 := 0
  rm    : BitVec 3 := 0
  sat   : Bool := false
  fo    : BitVec 4 := 0
  hint  : BitVec 2 := 0
  sm    : BitVec 3 := 0
  vstep : BitVec 4 := 0
  sub   : BitVec 3 := 0
  deriving DecidableEq, Repr, Inhabited

/-- Family C/B (R30): a displacement. -/
structure CBOp where
  disp  : BitVec 20 := 0
  imm32 : BitVec 32 := 0
  deriving DecidableEq, Repr, Inhabited

/-- Family C/L (R30): a loop. -/
structure CLOp where
  n     : BitVec 6 := 0
  len   : BitVec 14 := 0
  imm32 : BitVec 32 := 0
  deriving DecidableEq, Repr, Inhabited

/-- Family C/R (R30): laid out as family T. -/
structure CROp where
  d     : BitVec 6 := 0
  a     : BitVec 6 := 0
  b     : BitVec 6 := 0
  sub   : BitVec 2 := 0
  imm32 : BitVec 32 := 0
  deriving DecidableEq, Repr, Inhabited

/-- Family C/I (R30). -/
structure CIOp where
  d     : BitVec 6 := 0
  imm14 : BitVec 14 := 0
  imm32 : BitVec 32 := 0
  deriving DecidableEq, Repr, Inhabited

/-- Family K/C (R30, R203). -/
structure KCOp where
  idx : BitVec 8 := 0
  fi  : Bool := false
  fo  : Bool := false
  f   : BitVec 10 := 0
  x   : BitVec 27 := 0
  deriving DecidableEq, Repr, Inhabited

/-- Family K/R (R30, R203). -/
structure KROp where
  d : BitVec 6 := 0
  p : BitVec 3 := 0
  z : BitVec 11 := 0
  x : BitVec 27 := 0
  deriving DecidableEq, Repr, Inhabited

/-- Family Q (R30). -/
structure QOp where
  d     : BitVec 6 := 0
  da    : BitVec 4 := 0
  sa    : BitVec 4 := 0
  xs    : BitVec 4 := 0
  st    : Bool := false
  z     : Bool := false
  lof   : BitVec 12 := 0
  xstep : BitVec 4 := 0
  hint  : BitVec 2 := 0
  x     : BitVec 9 := 0
  deriving DecidableEq, Repr, Inhabited

/-- Family N (R30, R265). -/
structure NOp where
  d   : BitVec 6 := 0
  a   : BitVec 6 := 0
  b   : BitVec 6 := 0
  sub : BitVec 2 := 0
  x   : BitVec 27 := 0
  deriving DecidableEq, Repr, Inhabited

/-- The operand of a microword (R222): LE and bits [57:0]. -/
structure UopArg where
  le  : Bool := false
  arg : BitVec 58 := 0
  deriving DecidableEq, Repr, Inhabited

/-- A request of another node for a node address of this module (R324): a store of bytes, a load of
`len` bytes, or an atomic (`aopc`, operands `x`, `y`). -/
structure FabReq where
  node  : BitVec 16 := 0
  kind  : Nat := 0
  addr  : Nat := 0
  len   : Nat := 0
  bytes : List Byte := []
  aopc  : Nat := 0
  x     : Word := 0
  y     : Word := 0
  mv    : Bool := false
  deriving DecidableEq, Repr, Inhabited

/-- A scheduled flit that reaches a core's scratchpad (R328, R330): its place, its 64 bytes, its
poison by 8-byte granule and the slot it names. -/
structure Flit where
  core   : Nat := 0
  offset : Nat := 0
  bytes  : List Byte := []
  poison : List Bool := []
  slot   : Nat := 0
  send   : Option Nat := none
  deriving DecidableEq, Repr, Inhabited

/-- Who meets a marked line after its third hop (R294). -/
inductive ChainAgent where
  | core (n : Nat)
  | routine (core : Nat)
  | copy (cluster eng : Nat)
  deriving DecidableEq, Repr, Inhabited

/-- One constructor for each row of spec/opcode_table.json. -/
inductive Instr where
  /-- NOP: slot C, OPC 0x00 (R41). -/
  | nop (h : Hdr) (o : CROp)
  /-- BR: slot C, OPC 0x01 (R91). -/
  | br (h : Hdr) (o : CBOp)
  /-- BRI: slot C, OPC 0x02 (R91). -/
  | bri (h : Hdr) (o : CROp)
  /-- CALL: slot C, OPC 0x03 (R91). -/
  | call (h : Hdr) (o : CBOp)
  /-- CALLI: slot C, OPC 0x04 (R91). -/
  | calli (h : Hdr) (o : CROp)
  /-- RET: slot C, OPC 0x05 (R91). -/
  | ret (h : Hdr) (o : CROp)
  /-- LOOP: slot C, OPC 0x06 (R93). -/
  | loop (h : Hdr) (o : CLOp)
  /-- LOOPV: slot C, OPC 0x07 (R93). -/
  | loopv (h : Hdr) (o : CLOp)
  /-- BRK: slot C, OPC 0x08 (R95). -/
  | brk (h : Hdr) (o : CIOp)
  /-- NEXT: slot C, OPC 0x09 (R95). -/
  | next (h : Hdr) (o : CIOp)
  /-- LIDX: slot C, OPC 0x0A (R96). -/
  | lidx (h : Hdr) (o : CIOp)
  /-- LIDX_C: slot C, OPC 0x0A (R96). -/
  | lidxC (h : Hdr) (o : CIOp)
  /-- MARK: slot C, OPC 0x0B (R104). -/
  | mark (h : Hdr) (o : CROp)
  /-- PPT: slot C, OPC 0x0C (R106). -/
  | ppt (h : Hdr) (o : CROp)
  /-- HALT: slot C, OPC 0x0D (R110). -/
  | halt (h : Hdr) (o : CROp)
  /-- FUSE_2: slot C, OPC 0x0E (R100). -/
  | fuse2 (h : Hdr) (o : CIOp)
  /-- FUSE_4: slot C, OPC 0x0E (R100). -/
  | fuse4 (h : Hdr) (o : CIOp)
  /-- DECOUPLE: slot C, OPC 0x0F (R102). -/
  | decouple (h : Hdr) (o : CROp)
  /-- REJOIN_2: slot C, OPC 0x10 (R103). -/
  | rejoin2 (h : Hdr) (o : CROp)
  /-- REJOIN_4: slot C, OPC 0x10 (R103). -/
  | rejoin4 (h : Hdr) (o : CROp)
  /-- FMT: slot C, OPC 0x11 (R70). -/
  | fmt (h : Hdr) (o : CIOp)
  /-- WSET: slot C, OPC 0x12 (R247). -/
  | wset (h : Hdr) (o : CROp)
  /-- WAIT: slot C, OPC 0x13 (R249). -/
  | wait (h : Hdr) (o : CROp)
  /-- WAIT_NB: slot C, OPC 0x13 (R249). -/
  | waitNb (h : Hdr) (o : CROp)
  /-- ARRIVE: slot C, OPC 0x14 (R253). -/
  | arrive (h : Hdr) (o : CIOp)
  /-- BWAIT: slot C, OPC 0x15 (R254). -/
  | bwait (h : Hdr) (o : CROp)
  /-- BPHASE: slot C, OPC 0x16 (R255). -/
  | bphase (h : Hdr) (o : CROp)
  /-- BSET: slot C, OPC 0x17 (R256). -/
  | bset (h : Hdr) (o : CROp)
  /-- BSET_S: slot C, OPC 0x17 (R256). -/
  | bsetS (h : Hdr) (o : CROp)
  /-- SSTEP: slot C, OPC 0x18 (R259). -/
  | sstep (h : Hdr) (o : CROp)
  /-- SPAWN: slot C, OPC 0x19 (R387). -/
  | spawn (h : Hdr) (o : CROp)
  /-- ILOCK: slot C, OPC 0x1A (R107). -/
  | ilock (h : Hdr) (o : CROp)
  /-- IUNLOCK: slot C, OPC 0x1B (R108). -/
  | iunlock (h : Hdr) (o : CROp)
  /-- PFN: slot C, OPC 0x1C (R109). -/
  | pfn (h : Hdr) (o : CBOp)
  /-- GRES: slot C, OPC 0x1D (R124). -/
  | gres (h : Hdr) (o : CROp)
  /-- GRES_ALL: slot C, OPC 0x1D (R124). -/
  | gresAll (h : Hdr) (o : CROp)
  /-- GCOL: slot C, OPC 0x1E (R124). -/
  | gcol (h : Hdr) (o : CROp)
  /-- GCOL_T: slot C, OPC 0x1E (R124). -/
  | gcolT (h : Hdr) (o : CROp)
  /-- GCOL_F: slot C, OPC 0x1E (R124). -/
  | gcolF (h : Hdr) (o : CROp)
  /-- CGO_2: slot C, OPC 0x28 (R309). -/
  | cgo2 (h : Hdr) (o : CIOp)
  /-- CGO_4: slot C, OPC 0x28 (R309). -/
  | cgo4 (h : Hdr) (o : CIOp)
  /-- CGUESS: slot C, OPC 0x29 (R311). -/
  | cguess (h : Hdr) (o : CBOp)
  /-- CCHK: slot C, OPC 0x2A (R314). -/
  | cchk (h : Hdr) (o : CROp)
  /-- CEND: slot C, OPC 0x2B (R316). -/
  | cend (h : Hdr) (o : CBOp)
  /-- TRAP: slot C, OPC 0x30 (R349). -/
  | trap (h : Hdr) (o : CIOp)
  /-- SRET: slot C, OPC 0x31 (R350). -/
  | sret (h : Hdr) (o : CROp)
  /-- CSRR: slot C, OPC 0x32 (R341). -/
  | csrr (h : Hdr) (o : CIOp)
  /-- CSRW: slot C, OPC 0x33 (R341). -/
  | csrw (h : Hdr) (o : CIOp)
  /-- DSTOP: slot C, OPC 0x34 (R360). -/
  | dstop (h : Hdr) (o : CROp)
  /-- INVQ_C: slot C, OPC 0x35 (R356). -/
  | invqC (h : Hdr) (o : CROp)
  /-- INVQ_E: slot C, OPC 0x35 (R356). -/
  | invqE (h : Hdr) (o : CROp)
  /-- INVQ_N: slot C, OPC 0x35 (R356). -/
  | invqN (h : Hdr) (o : CROp)
  /-- NOP_S: slot S, OPC 0x00 (R41). -/
  | nopS (h : Hdr) (o : TOp)
  /-- ADD: slot S, OPC 0x01 (R77). -/
  | add (h : Hdr) (o : TOp)
  /-- SUB: slot S, OPC 0x02 (R77). -/
  | sub (h : Hdr) (o : TOp)
  /-- MUL: slot S, OPC 0x03 (R77). -/
  | mul (h : Hdr) (o : TOp)
  /-- MULH: slot S, OPC 0x04 (R77). -/
  | mulh (h : Hdr) (o : TOp)
  /-- MULHU: slot S, OPC 0x05 (R77). -/
  | mulhu (h : Hdr) (o : TOp)
  /-- DIV: slot S, OPC 0x06 (R81). -/
  | div (h : Hdr) (o : TOp)
  /-- DIVU: slot S, OPC 0x07 (R81). -/
  | divu (h : Hdr) (o : TOp)
  /-- REM: slot S, OPC 0x08 (R81). -/
  | rem (h : Hdr) (o : TOp)
  /-- REMU: slot S, OPC 0x09 (R81). -/
  | remu (h : Hdr) (o : TOp)
  /-- AND: slot S, OPC 0x0A (R77). -/
  | and (h : Hdr) (o : TOp)
  /-- OR: slot S, OPC 0x0B (R77). -/
  | or (h : Hdr) (o : TOp)
  /-- XOR: slot S, OPC 0x0C (R77). -/
  | xor (h : Hdr) (o : TOp)
  /-- ANDN: slot S, OPC 0x0D (R77). -/
  | andn (h : Hdr) (o : TOp)
  /-- SHL: slot S, OPC 0x0E (R77). -/
  | shl (h : Hdr) (o : TOp)
  /-- SHR: slot S, OPC 0x0F (R77). -/
  | shr (h : Hdr) (o : TOp)
  /-- SRA: slot S, OPC 0x10 (R77). -/
  | sra (h : Hdr) (o : TOp)
  /-- ROTL: slot S, OPC 0x11 (R77). -/
  | rotl (h : Hdr) (o : TOp)
  /-- CLZ: slot S, OPC 0x12 (R78). -/
  | clz (h : Hdr) (o : TOp)
  /-- CTZ: slot S, OPC 0x13 (R78). -/
  | ctz (h : Hdr) (o : TOp)
  /-- POP: slot S, OPC 0x14 (R78). -/
  | pop (h : Hdr) (o : TOp)
  /-- FFS: slot S, OPC 0x15 (R78). -/
  | ffs (h : Hdr) (o : TOp)
  /-- MIN: slot S, OPC 0x16 (R77). -/
  | min (h : Hdr) (o : TOp)
  /-- MINU: slot S, OPC 0x17 (R77). -/
  | minu (h : Hdr) (o : TOp)
  /-- MAX: slot S, OPC 0x18 (R77). -/
  | max (h : Hdr) (o : TOp)
  /-- MAXU: slot S, OPC 0x19 (R77). -/
  | maxu (h : Hdr) (o : TOp)
  /-- SEL: slot S, OPC 0x1A (R80). -/
  | sel (h : Hdr) (o : TOp)
  /-- SEQ: slot S, OPC 0x1B (R77). -/
  | seq (h : Hdr) (o : TOp)
  /-- SNE: slot S, OPC 0x1C (R77). -/
  | sne (h : Hdr) (o : TOp)
  /-- SLT: slot S, OPC 0x1D (R77). -/
  | slt (h : Hdr) (o : TOp)
  /-- SLTU: slot S, OPC 0x1E (R77). -/
  | sltu (h : Hdr) (o : TOp)
  /-- SEXT: slot S, OPC 0x1F (R79). -/
  | sext (h : Hdr) (o : TOp)
  /-- ZEXT: slot S, OPC 0x20 (R79). -/
  | zext (h : Hdr) (o : TOp)
  /-- BFX: slot S, OPC 0x21 (R84). -/
  | bfx (h : Hdr) (o : IOp)
  /-- BFI: slot S, OPC 0x22 (R84). -/
  | bfi (h : Hdr) (o : IOp)
  /-- LEA: slot S, OPC 0x23 (R85). -/
  | lea (h : Hdr) (o : IOp)
  /-- MOV: slot S, OPC 0x24 (R77). -/
  | mov (h : Hdr) (o : TOp)
  /-- AMOV_AS: slot S, OPC 0x25 (R85). -/
  | amovAS (h : Hdr) (o : TOp)
  /-- AMOV_SA: slot S, OPC 0x25 (R85). -/
  | amovSA (h : Hdr) (o : TOp)
  /-- AMOV_AA: slot S, OPC 0x25 (R85). -/
  | amovAA (h : Hdr) (o : TOp)
  /-- LI: slot S, OPC 0x26 (R84). -/
  | li (h : Hdr) (o : IOp)
  /-- LIH: slot S, OPC 0x27 (R84). -/
  | lih (h : Hdr) (o : IOp)
  /-- GCMP: slot S, OPC 0x28 (R115). -/
  | gcmp (h : Hdr) (o : TOp)
  /-- GCMP_LE: slot S, OPC 0x29 (R115). -/
  | gcmpLe (h : Hdr) (o : TOp)
  /-- GAND: slot S, OPC 0x2A (R115). -/
  | gand (h : Hdr) (o : TOp)
  /-- GOR: slot S, OPC 0x2B (R115). -/
  | gor (h : Hdr) (o : TOp)
  /-- GNOT: slot S, OPC 0x2C (R115). -/
  | gnot (h : Hdr) (o : TOp)
  /-- ADD_IMM: slot S, OPC 0x30 (R83). -/
  | addImm (h : Hdr) (o : IOp)
  /-- AND_IMM: slot S, OPC 0x31 (R83). -/
  | andImm (h : Hdr) (o : IOp)
  /-- OR_IMM: slot S, OPC 0x32 (R83). -/
  | orImm (h : Hdr) (o : IOp)
  /-- XOR_IMM: slot S, OPC 0x33 (R83). -/
  | xorImm (h : Hdr) (o : IOp)
  /-- SHL_IMM: slot S, OPC 0x34 (R83). -/
  | shlImm (h : Hdr) (o : IOp)
  /-- SHR_IMM: slot S, OPC 0x35 (R83). -/
  | shrImm (h : Hdr) (o : IOp)
  /-- SRA_IMM: slot S, OPC 0x36 (R83). -/
  | sraImm (h : Hdr) (o : IOp)
  /-- ROTL_IMM: slot S, OPC 0x37 (R83). -/
  | rotlImm (h : Hdr) (o : IOp)
  /-- MUL_IMM: slot S, OPC 0x38 (R83). -/
  | mulImm (h : Hdr) (o : IOp)
  /-- MIN_IMM: slot S, OPC 0x39 (R83). -/
  | minImm (h : Hdr) (o : IOp)
  /-- MAX_IMM: slot S, OPC 0x3A (R83). -/
  | maxImm (h : Hdr) (o : IOp)
  /-- SLT_IMM: slot S, OPC 0x3B (R83). -/
  | sltImm (h : Hdr) (o : IOp)
  /-- SLTU_IMM: slot S, OPC 0x3C (R83). -/
  | sltuImm (h : Hdr) (o : IOp)
  /-- SEQ_IMM: slot S, OPC 0x3D (R83). -/
  | seqImm (h : Hdr) (o : IOp)
  /-- SNE_IMM: slot S, OPC 0x3E (R83). -/
  | sneImm (h : Hdr) (o : IOp)
  /-- NOP_L: slot L, OPC 0x00 (R39). -/
  | nopL (h : Hdr) (o : MOp)
  /-- LD: slot L, OPC 0x01 (R140). -/
  | ld (h : Hdr) (o : MOp)
  /-- LDU: slot L, OPC 0x02 (R140). -/
  | ldu (h : Hdr) (o : MOp)
  /-- ST: slot L, OPC 0x03 (R140). -/
  | st (h : Hdr) (o : MOp)
  /-- VLD: slot L, OPC 0x04 (R140). -/
  | vld (h : Hdr) (o : MOp)
  /-- VST: slot L, OPC 0x05 (R140). -/
  | vst (h : Hdr) (o : MOp)
  /-- LDT: slot L, OPC 0x06 (R141). -/
  | ldt (h : Hdr) (o : MOp)
  /-- VLDT: slot L, OPC 0x07 (R141). -/
  | vldt (h : Hdr) (o : MOp)
  /-- AADD: slot L, OPC 0x10 (R241). -/
  | aadd (h : Hdr) (o : MOp)
  /-- AAND: slot L, OPC 0x11 (R241). -/
  | aand (h : Hdr) (o : MOp)
  /-- AOR: slot L, OPC 0x12 (R241). -/
  | aor (h : Hdr) (o : MOp)
  /-- AXOR: slot L, OPC 0x13 (R241). -/
  | axor (h : Hdr) (o : MOp)
  /-- AMIN: slot L, OPC 0x14 (R241). -/
  | amin (h : Hdr) (o : MOp)
  /-- AMAX: slot L, OPC 0x15 (R241). -/
  | amax (h : Hdr) (o : MOp)
  /-- AMINU: slot L, OPC 0x16 (R241). -/
  | aminu (h : Hdr) (o : MOp)
  /-- AMAXU: slot L, OPC 0x17 (R241). -/
  | amaxu (h : Hdr) (o : MOp)
  /-- AFADD: slot L, OPC 0x18 (R241). -/
  | afadd (h : Hdr) (o : MOp)
  /-- AXCHG: slot L, OPC 0x19 (R241). -/
  | axchg (h : Hdr) (o : MOp)
  /-- ACAS: slot L, OPC 0x1A (R241). -/
  | acas (h : Hdr) (o : MOp)
  /-- FENCE: slot L, OPC 0x30 (R161). -/
  | fence (h : Hdr) (o : FOp)
  /-- DRAIN: slot L, OPC 0x31 (R163). -/
  | drain (h : Hdr) (o : FOp)
  /-- TCHASE: slot L, OPC 0x32 (R153). -/
  | tchase (h : Hdr) (o : MOp)
  /-- NOP_V: slot V, OPC 0x00 (R41). -/
  | nopV (h : Hdr) (o : VOp)
  /-- VADD: slot V, OPC 0x01 (R177). -/
  | vadd (h : Hdr) (o : VOp)
  /-- VSUB: slot V, OPC 0x02 (R177). -/
  | vsub (h : Hdr) (o : VOp)
  /-- VMUL: slot V, OPC 0x03 (R177). -/
  | vmul (h : Hdr) (o : VOp)
  /-- VFMA: slot V, OPC 0x04 (R177). -/
  | vfma (h : Hdr) (o : VOp)
  /-- VFMS: slot V, OPC 0x05 (R177). -/
  | vfms (h : Hdr) (o : VOp)
  /-- VNFMA: slot V, OPC 0x06 (R177). -/
  | vnfma (h : Hdr) (o : VOp)
  /-- VMIN: slot V, OPC 0x07 (R177). -/
  | vmin (h : Hdr) (o : VOp)
  /-- VMAX: slot V, OPC 0x08 (R177). -/
  | vmax (h : Hdr) (o : VOp)
  /-- VABS: slot V, OPC 0x09 (R177). -/
  | vabs (h : Hdr) (o : VOp)
  /-- VNEG: slot V, OPC 0x0A (R177). -/
  | vneg (h : Hdr) (o : VOp)
  /-- VAND: slot V, OPC 0x0B (R179). -/
  | vand (h : Hdr) (o : VOp)
  /-- VOR: slot V, OPC 0x0C (R179). -/
  | vor (h : Hdr) (o : VOp)
  /-- VXOR: slot V, OPC 0x0D (R179). -/
  | vxor (h : Hdr) (o : VOp)
  /-- VSHL: slot V, OPC 0x0E (R179). -/
  | vshl (h : Hdr) (o : VOp)
  /-- VSHR: slot V, OPC 0x0F (R179). -/
  | vshr (h : Hdr) (o : VOp)
  /-- VSRA: slot V, OPC 0x10 (R179). -/
  | vsra (h : Hdr) (o : VOp)
  /-- VCMP: slot V, OPC 0x11 (R180). -/
  | vcmp (h : Hdr) (o : VOp)
  /-- VSEL: slot V, OPC 0x12 (R181). -/
  | vsel (h : Hdr) (o : VOp)
  /-- VSPLAT: slot V, OPC 0x13 (R182). -/
  | vsplat (h : Hdr) (o : VOp)
  /-- VBCAST: slot V, OPC 0x14 (R182). -/
  | vbcast (h : Hdr) (o : VOp)
  /-- VPERM: slot V, OPC 0x15 (R182). -/
  | vperm (h : Hdr) (o : VOp)
  /-- VSHUF: slot V, OPC 0x16 (R183). -/
  | vshuf (h : Hdr) (o : VOp)
  /-- VROT: slot V, OPC 0x17 (R182). -/
  | vrot (h : Hdr) (o : VOp)
  /-- VEXT: slot V, OPC 0x18 (R182). -/
  | vext (h : Hdr) (o : VOp)
  /-- VINS: slot V, OPC 0x19 (R182). -/
  | vins (h : Hdr) (o : VOp)
  /-- VMOV: slot V, OPC 0x1A (R182). -/
  | vmov (h : Hdr) (o : VOp)
  /-- VREDSUM: slot V, OPC 0x1B (R184). -/
  | vredsum (h : Hdr) (o : VOp)
  /-- VREDMAX: slot V, OPC 0x1C (R184). -/
  | vredmax (h : Hdr) (o : VOp)
  /-- VREDMIN: slot V, OPC 0x1D (R184). -/
  | vredmin (h : Hdr) (o : VOp)
  /-- VSCAN: slot V, OPC 0x1E (R184). -/
  | vscan (h : Hdr) (o : VOp)
  /-- VEXP2: slot V, OPC 0x1F (R185). -/
  | vexp2 (h : Hdr) (o : VOp)
  /-- VLOG2: slot V, OPC 0x20 (R185). -/
  | vlog2 (h : Hdr) (o : VOp)
  /-- VRCP: slot V, OPC 0x21 (R185). -/
  | vrcp (h : Hdr) (o : VOp)
  /-- VRSQRT: slot V, OPC 0x22 (R185). -/
  | vrsqrt (h : Hdr) (o : VOp)
  /-- VSQRT: slot V, OPC 0x23 (R185). -/
  | vsqrt (h : Hdr) (o : VOp)
  /-- VCLZ: slot V, OPC 0x24 (R179). -/
  | vclz (h : Hdr) (o : VOp)
  /-- VPOP: slot V, OPC 0x25 (R179). -/
  | vpop (h : Hdr) (o : VOp)
  /-- VCVT: slot V, OPC 0x26 (R187). -/
  | vcvt (h : Hdr) (o : VOp)
  /-- VMAXE: slot V, OPC 0x27 (R189). -/
  | vmaxe (h : Hdr) (o : VOp)
  /-- VQCVT: slot V, OPC 0x28 (R190). -/
  | vqcvt (h : Hdr) (o : VOp)
  /-- VPACK: slot V, OPC 0x29 (R192). -/
  | vpack (h : Hdr) (o : VOp)
  /-- VUNPACK: slot V, OPC 0x2A (R192). -/
  | vunpack (h : Hdr) (o : VOp)
  /-- NOP_M: slot M, OPC 0x00 (R41). -/
  | nopM (h : Hdr) (o : KROp)
  /-- MSET: slot M, OPC 0x01 (R205). -/
  | mset (h : Hdr) (o : KROp)
  /-- MGET: slot M, OPC 0x02 (R205). -/
  | mget (h : Hdr) (o : KROp)
  /-- MCALL: slot M, OPC 0x03 (R206). -/
  | mcall (h : Hdr) (o : KCOp)
  /-- MZERO: slot M, OPC 0x04 (R208). -/
  | mzero (h : Hdr) (o : KCOp)
  /-- MRD: slot M, OPC 0x05 (R210). -/
  | mrd (h : Hdr) (o : KROp)
  /-- MWR: slot M, OPC 0x06 (R210). -/
  | mwr (h : Hdr) (o : KROp)
  /-- MWAIT: slot M, OPC 0x07 (R209). -/
  | mwait (h : Hdr) (o : KROp)
  /-- MPROV: slot M, OPC 0x08 (R218). -/
  | mprov (h : Hdr) (o : KROp)
  /-- MPGM: slot M, OPC 0x09 (R224). -/
  | mpgm (h : Hdr) (o : KCOp)
  /-- NOP_X: slot X, OPC 0x00 (R41). -/
  | nopX (h : Hdr) (o : QOp)
  /-- XDIM: slot X, OPC 0x01 (R228). -/
  | xdim (h : Hdr) (o : QOp)
  /-- XCOPY: slot X, OPC 0x02 (R230). -/
  | xcopy (h : Hdr) (o : QOp)
  /-- XGATHER: slot X, OPC 0x03 (R230). -/
  | xgather (h : Hdr) (o : QOp)
  /-- XSCATTER: slot X, OPC 0x04 (R230). -/
  | xscatter (h : Hdr) (o : QOp)
  /-- XFILL: slot X, OPC 0x05 (R230). -/
  | xfill (h : Hdr) (o : QOp)
  /-- XWAIT: slot X, OPC 0x06 (R232). -/
  | xwait (h : Hdr) (o : QOp)
  /-- TMOVE: slot X, OPC 0x10 (R287). -/
  | tmove (h : Hdr) (o : QOp)
  /-- TSTAT: slot X, OPC 0x11 (R295). -/
  | tstat (h : Hdr) (o : QOp)
  /-- TSWEEP: slot X, OPC 0x12 (R296). -/
  | tsweep (h : Hdr) (o : QOp)
  /-- TUNMARK: slot X, OPC 0x13 (R297). -/
  | tunmark (h : Hdr) (o : QOp)
  /-- TUNMARK_F: slot X, OPC 0x13 (R297). -/
  | tunmarkF (h : Hdr) (o : QOp)
  /-- LSEND: slot X, OPC 0x20 (R330). -/
  | lsend (h : Hdr) (o : QOp)
  /-- LRECV: slot X, OPC 0x21 (R331). -/
  | lrecv (h : Hdr) (o : QOp)
  /-- LRED: slot X, OPC 0x22 (R332). -/
  | lred (h : Hdr) (o : QOp)
  /-- LTIME: slot X, OPC 0x23 (R326). -/
  | ltime (h : Hdr) (o : QOp)
  /-- NOP_N: slot N, OPC 0x00 (R41). -/
  | nopN (h : Hdr) (o : NOp)
  /-- NCLR: slot N, OPC 0x01 (R267). -/
  | nclr (h : Hdr) (o : NOp)
  /-- NMERGE: slot N, OPC 0x02 (R267). -/
  | nmerge (h : Hdr) (o : NOp)
  /-- NMERGE_P: slot N, OPC 0x02 (R267). -/
  | nmergeP (h : Hdr) (o : NOp)
  /-- NSORT: slot N, OPC 0x03 (R268). -/
  | nsort (h : Hdr) (o : NOp)
  /-- NSORT_I: slot N, OPC 0x03 (R268). -/
  | nsortI (h : Hdr) (o : NOp)
  /-- NTOP: slot N, OPC 0x04 (R269). -/
  | ntop (h : Hdr) (o : NOp)
  /-- NTOP_K: slot N, OPC 0x04 (R269). -/
  | ntopK (h : Hdr) (o : NOp)
  /-- NTOP_V: slot N, OPC 0x04 (R269). -/
  | ntopV (h : Hdr) (o : NOp)
  /-- NKTH: slot N, OPC 0x05 (R271). -/
  | nkth (h : Hdr) (o : NOp)
  /-- NMASS: slot N, OPC 0x06 (R273). -/
  | nmass (h : Hdr) (o : NOp)
  /-- NHIST: slot N, OPC 0x07 (R277). -/
  | nhist (h : Hdr) (o : NOp)
  /-- NHIST_M: slot N, OPC 0x07 (R277). -/
  | nhistM (h : Hdr) (o : NOp)
  /-- NHIST_SET: slot N, OPC 0x07 (R277). -/
  | nhistSet (h : Hdr) (o : NOp)
  /-- NHIST_RD: slot N, OPC 0x07 (R277). -/
  | nhistRd (h : Hdr) (o : NOp)
  /-- NTHR: slot N, OPC 0x08 (R272). -/
  | nthr (h : Hdr) (o : NOp)
  /-- NTHR_P: slot N, OPC 0x08 (R272). -/
  | nthrP (h : Hdr) (o : NOp)
  /-- NRNG: slot N, OPC 0x09 (R274). -/
  | nrng (h : Hdr) (o : NOp)
  /-- NRNG_X: slot N, OPC 0x09 (R274). -/
  | nrngX (h : Hdr) (o : NOp)
  /-- NSAMPLE_TOK: slot N, OPC 0x0A (R275). -/
  | nsampleTok (h : Hdr) (o : NOp)
  /-- NSAMPLE_SHARD: slot N, OPC 0x0A (R275). -/
  | nsampleShard (h : Hdr) (o : NOp)
  /-- NSAVE: slot N, OPC 0x0B (R270). -/
  | nsave (h : Hdr) (o : NOp)
  /-- UOP_NOP (R222). -/
  | uopNop (u : UopArg)
  /-- UOP_STEP (R222). -/
  | uopStep (u : UopArg)
  /-- UOP_ADVA (R222). -/
  | uopAdva (u : UopArg)
  /-- UOP_ADVB (R222). -/
  | uopAdvb (u : UopArg)
  /-- UOP_LOOPU (R222). -/
  | uopLoopu (u : UopArg)
  /-- UOP_ACC (R222). -/
  | uopAcc (u : UopArg)
  /-- UOP_CLR (R222). -/
  | uopClr (u : UopArg)
  /-- UOP_DRN (R222). -/
  | uopDrn (u : UopArg)
  /-- UOP_PROV (R222). -/
  | uopProv (u : UopArg)
  /-- UOP_WIN (R222). -/
  | uopWin (u : UopArg)
  /-- UOP_BPIP (R222). -/
  | uopBpip (u : UopArg)
  /-- UOP_TRN (R222). -/
  | uopTrn (u : UopArg)
  /-- UOP_SCL (R222). -/
  | uopScl (u : UopArg)
  /-- UOP_ARR (R222). -/
  | uopArr (u : UopArg)
  /-- UOP_END (R222). -/
  | uopEnd (u : UopArg)
  /-- EMPTY_BUNDLE (R26). -/
  | emptyBundle (stop : Bool) (rep : BitVec 3) (hint : BitVec 2)
  /-- ISSUE_GROUP (R31). -/
  | issueGroup
  /-- B_PRECEDENCE (R98). -/
  | bPrecedence
  /-- DATA_ARRIVAL (R143). -/
  | dataArrival
  /-- FREEZE_END (R20). -/
  | freezeEnd
  /-- LARDER_RELEASE (R128). -/
  | larderRelease
  /-- OUTBOUND_DEPART (R157). -/
  | outboundDepart
  /-- HOME_ACCESS (R154). -/
  | homeAccess
  /-- FABRIC_REQUEST (R324). -/
  | fabricRequest
  /-- PAGE_FAULT (R354). -/
  | pageFault
  /-- MARK_CHAIN (R294). -/
  | markChain
  /-- FETCH_FAULT (R368). -/
  | fetchFault
  /-- ICACHE_FILL (R369). -/
  | icacheFill
  /-- FBD_MARK_DONE (R351). -/
  | fbdMarkDone
  /-- TRAP_ENTRY (R347). -/
  | trapEntry
  /-- FATAL_TRAP (R348). -/
  | fatalTrap
  /-- FUSE_JOIN (R100). -/
  | fuseJoin
  /-- SWITCH_OUT (R358). -/
  | switchOut
  /-- SWITCH_IN (R358). -/
  | switchIn
  /-- WATCHDOG_OVERRUN (R357). -/
  | watchdogOverrun
  /-- WATCHDOG (R357). -/
  | watchdog
  /-- BUDGET_EXCEEDED (R381). -/
  | budgetExceeded
  /-- DEBUG_STOP (R359). -/
  | debugStop
  /-- DEBUG_RESUME (R359). -/
  | debugResume
  /-- TRACE_SAMPLE (R363). -/
  | traceSample
  /-- TSC_WRITE (R363). -/
  | tscWrite
  /-- SUPERSTEP_COMPLETE (R259). -/
  | superstepComplete
  /-- ROUTINE_START (R201). -/
  | routineStart
  /-- ROUTINE_RETIRE (R207). -/
  | routineRetire
  /-- ROUTINE_PAUSE (R212). -/
  | routinePause
  /-- ARRAY_MODE_CHANGE (R200). -/
  | arrayModeChange
  /-- PACK_INSTALL (R224). -/
  | packInstall
  /-- COPY_START (R226). -/
  | copyStart
  /-- COPY_RETIRE (R226). -/
  | copyRetire
  /-- COPY_SUSPEND (R233). -/
  | copySuspend
  /-- MOVE_FREEZE (R288). -/
  | moveFreeze
  /-- MOVE_DRAIN (R288). -/
  | moveDrain
  /-- MOVE_COPY (R288). -/
  | moveCopy
  /-- RELOCATION_RETIRE (R290). -/
  | relocationRetire
  /-- LSEND_DEPARTURE (R330). -/
  | lsendDeparture
  /-- FLIT_ARRIVAL (R328). -/
  | flitArrival
  /-- LRED_REDUCE (R332). -/
  | lredReduce
  /-- LSEND_RETIRE (R330). -/
  | lsendRetire
  /-- START (R372). -/
  | start
  /-- LAUNCH (R377). -/
  | launch
  /-- GRAPH (R385). -/
  | graph
  /-- KILL (R372). -/
  | kill
  /-- LAUNCH_START (R379). -/
  | launchStart
  /-- PRELOAD (R382). -/
  | preload
  /-- KERNEL_RETIRE (R110). -/
  | kernelRetire
  /-- NODE_KERNEL (R385). -/
  | nodeKernel
  /-- NODE_COND (R385). -/
  | nodeCond
  /-- NODE_LOOP (R385). -/
  | nodeLoop
  /-- NODE_JOIN (R385). -/
  | nodeJoin
  /-- POWER_UP (R398). -/
  | powerUp
  /-- GO (R398). -/
  | go
  /-- FIRMWARE_VERIFY (R399). -/
  | firmwareVerify
  /-- READY (R398). -/
  | ready
  /-- SWAP_FIRMWARE (R403). -/
  | swapFirmware
  /-- INSTALL_ROUTINE (R403). -/
  | installRoutine
  /-- RETIRE_CLUSTER (R403). -/
  | retireCluster
  /-- DRAIN_CHANNEL (R300). -/
  | drainChannel
  /-- RETRAIN_PORT (R403). -/
  | retrainPort
  /-- RELOAD_CALIBRATION (R403). -/
  | reloadCalibration
  /-- SERVICE_ACTION_COMPLETE (R402). -/
  | serviceActionComplete
  /-- WINDOW_REGISTER_WRITE (R371). -/
  | windowRegisterWrite
  /-- ATTESTATION_REQUEST (R404). -/
  | attestationRequest
  /-- ATTESTATION_REPORT (R404). -/
  | attestationReport
  /-- THERMAL_WARNING (R405). -/
  | thermalWarning
  /-- THERMAL_CRITICAL (R405). -/
  | thermalCritical
  /-- TEMPERATURE_FALLS (R405). -/
  | temperatureFalls
  /-- ACKNOWLEDGMENT_ARRIVAL (R167). -/
  | acknowledgmentArrival
  /-- REMOTE_INVALIDATION (R356). -/
  | remoteInvalidation
  deriving DecidableEq, Repr

end Sys2Proof
end

