-- ==== Sys2Proof/WellFormed.lean ====
section
/-! DEFINITION. Which field values of an instruction are legal: the reserved fields, the
must-be-zero fields and the ranges of R28 to R30 and of each class chapter's encoding table. A word
whose fields break them raises `ILLEGAL_ENCODING` (R41). Checks that depend on the machine's state
(R172, R220, R407) are part of the meanings. -/

namespace Sys2Proof

/-- No arrival: guard operations and `nop`s carry none (R114, R41). -/
def wfNoArr (h : Hdr) : Bool := !h.arr && h.bn == 0

/-- The carry operations stand under no guard (R307). -/
def wfUncond (h : Hdr) : Bool := h.g == 0 && !h.gs

/-- R28, R29: `g0` with GS = 1 is illegal; BN is zero without ARR. -/
def wfHdr (h : Hdr) : Bool := !(h.g == 0 && h.gs) && (h.arr || h.bn == 0) && (h.ext || !h.arr)

/-- R89: the displacement stands in `imm32` in the extended form. -/
def wfDisp (h : Hdr) (o : CBOp) : Bool := if h.ext then o.disp == 0 else o.imm32 == 0

/-- The displacement in halfwords (R91). -/
def cbDisp (h : Hdr) (o : CBOp) : Int := if h.ext then o.imm32.toInt else o.disp.toInt

/-- R89: the extended C/I form holds the value in x[13:0]. -/
def wfCI (h : Hdr) (o : CIOp) : Bool :=
  if h.ext then o.imm14 == 0 && decide (o.imm32.toNat < 16384) else o.imm32 == 0

/-- The value of a C/I operation in its 14 bits (R89). -/
def ciVal (h : Hdr) (o : CIOp) : BitVec 14 := if h.ext then o.imm32.setWidth 14 else o.imm14

/-- R67: the legal codes of the fields of `FMT`, numbered as the selectors of R69. -/
def fmtLegal (field : Nat) (v : Nat) : Bool :=
  match field with
  | 1 => decide (1 ≤ v ∧ v ≤ 9)
  | 2 => decide (1 ≤ v ∧ v ≤ 9)
  | 3 => v == 3 || v == 4 || v == 5 || v == 10
  | 4 => v == 3 || v == 4 || v == 5 || v == 10
  | 5 => decide (1 ≤ v ∧ v ≤ 8) || v == 10
  | 6 => decide (2 ≤ v ∧ v ≤ 8)
  | 7 => decide (2 ≤ v ∧ v ≤ 8)
  | 8 => decide (v ≤ 3)
  | _ => false

/-- R67 for a whole image of `FMT[31:0]`, with the reserved bits [29:28] zero (R66). -/
def fmtImageLegal (v : BitVec 32) : Bool :=
  let n := v.toNat
  fmtLegal 1 (n % 16) && fmtLegal 2 (n / 2 ^ 4 % 16) && fmtLegal 3 (n / 2 ^ 8 % 16) &&
  fmtLegal 4 (n / 2 ^ 12 % 16) && fmtLegal 5 (n / 2 ^ 16 % 16) && fmtLegal 6 (n / 2 ^ 20 % 16) &&
  fmtLegal 7 (n / 2 ^ 24 % 16) && n / 2 ^ 28 % 4 == 0

/-- The value `fmt` writes (R70). -/
def fmtVal (h : Hdr) (o : CIOp) : BitVec 32 := if h.ext then o.imm32 else o.imm14.setWidth 32

/-- R69, R67: `fmt`'s selector and value. -/
def wfFmt (h : Hdr) (o : CIOp) : Bool :=
  (if h.ext then o.imm14 == 0 else o.imm32 == 0 && decide (o.imm14.toNat < 16)) &&
  (if o.d == 0 then fmtImageLegal (fmtVal h o)
   else decide ((fmtVal h o).toNat < 16) && fmtLegal o.d.toNat (fmtVal h o).toNat)

/-- R84: pos + len ≤ 64, `imm8` zero and no bit of `imm32` outside the mask. -/
def wfBitField (o : IOp) (mask : BitVec 32) : Bool :=
  o.imm8 == 0 && (o.imm32 &&& ~~~mask) == 0 &&
  decide (o.imm32.toNat % 64 + (o.imm32.toNat / 256 % 64 + 1) ≤ 64)

/-- The special-register numbers of R339. -/
def csrKnown (n : Nat) : Bool :=
  decide (n ≤ 0x20) || decide (0x40 ≤ n ∧ n ≤ 0x45) || n == 0x60 || decide (0x80 ≤ n ∧ n ≤ 0x86)

/-- How a V operation uses its fields (R175, R176). `b`: 0 unused, 1 a register, 2 `b`[3:0] alone,
3 an immediate, 4 a register or, with `sub`[0], a count. -/
structure VUse where
  d   : Bool
  a   : Bool
  b   : Nat
  c   : Bool
  rm  : Bool
  sat : Bool
  ext : Bool
  deriving DecidableEq, Repr

/-- R175, R172 (FO), R30 (W). Stepping selects registers only, so SM bit 7 is illegal where `b` is an immediate. DEDUCED (log 107). -/
def wfV (h : Hdr) (o : VOp) (u : VUse) : Bool :=
  let breg := u.b == 1 || (u.b == 4 && !(o.sub.getLsbD 0))
  o.w != 3 && (!u.ext || h.ext) &&
  (u.d || o.d == 0) && (u.a || o.a == 0) &&
  (u.b != 0 || (o.b == 0 && !o.b5)) && (u.c || o.c == 0) &&
  (if u.rm then decide (o.rm.toNat ≤ 4) else o.rm == 0) && (u.sat || !o.sat) &&
  (o.st || (o.sm == 0 && o.vstep == 0)) &&
  (u.d || !o.sm.getLsbD 2) && (u.a || !o.sm.getLsbD 1) && (breg || !o.sm.getLsbD 0)

/-- The short form has every extension field zero (R26, R29). -/
def TOp.short (o : TOp) : Bool := o.c == 0 && o.x == 0
def IOp.short (o : IOp) : Bool := o.imm32 == 0
def MOp.short (o : MOp) : Bool :=
  o.lof == 0 && o.ret == false && o.mrg == false && o.hint == 0 && o.off == 0
def FOp.short (o : FOp) : Bool := o.x == 0
def VOp.short (o : VOp) : Bool :=
  o.b5 == false && o.c == 0 && o.rm == 0 && o.sat == false && o.fo == 0 && o.hint == 0 &&
  o.sm == 0 && o.vstep == 0 && o.sub == 0
def CBOp.short (o : CBOp) : Bool := o.imm32 == 0
def CLOp.short (o : CLOp) : Bool := o.imm32 == 0
def CROp.short (o : CROp) : Bool := o.imm32 == 0
def CIOp.short (o : CIOp) : Bool := o.imm32 == 0
def KCOp.short (o : KCOp) : Bool := o.x == 0
def KROp.short (o : KROp) : Bool := o.x == 0
def QOp.short (o : QOp) : Bool := o.lof == 0 && o.xstep == 0 && o.hint == 0 && o.x == 0
def NOp.short (o : NOp) : Bool := o.x == 0

/-- The common checks of a slot operation, `sh` saying that its extension fields are zero. -/
def wfCommon (h : Hdr) (sh : Bool) : Bool := wfHdr h && (h.ext || sh)

/-- Families C and I carry no arrival (R29), and in family I a nonzero `imm32` needs `imm8` zero. -/
def wfImm (h : Hdr) (o : IOp) : Bool := wfNoArr h && (!h.ext || o.imm8 == 0)

/-- Every instruction's legality. An event has no encoding and no illegal form. -/
def Instr.wf : Instr → Bool
  | .uopNop _ => true
  | .uopStep _ => true
  | .uopAdva _ => true
  | .uopAdvb _ => true
  | .uopLoopu _ => true
  | .uopAcc _ => true
  | .uopClr _ => true
  | .uopDrn _ => true
  | .uopProv _ => true
  | .uopWin _ => true
  | .uopBpip _ => true
  | .uopTrn _ => true
  | .uopScl _ => true
  | .uopArr _ => true
  | .uopEnd _ => true
  | .emptyBundle _ _ _ => true
  | .issueGroup => true
  | .bPrecedence => true
  | .dataArrival => true
  | .freezeEnd => true
  | .larderRelease => true
  | .outboundDepart => true
  | .homeAccess => true
  | .fabricRequest => true
  | .pageFault => true
  | .markChain => true
  | .fetchFault => true
  | .icacheFill => true
  | .fbdMarkDone => true
  | .trapEntry => true
  | .fatalTrap => true
  | .fuseJoin => true
  | .switchOut => true
  | .switchIn => true
  | .watchdogOverrun => true
  | .watchdog => true
  | .budgetExceeded => true
  | .debugStop => true
  | .debugResume => true
  | .traceSample => true
  | .tscWrite => true
  | .superstepComplete => true
  | .routineStart => true
  | .routineRetire => true
  | .routinePause => true
  | .arrayModeChange => true
  | .packInstall => true
  | .copyStart => true
  | .copyRetire => true
  | .copySuspend => true
  | .moveFreeze => true
  | .moveDrain => true
  | .moveCopy => true
  | .relocationRetire => true
  | .lsendDeparture => true
  | .flitArrival => true
  | .lredReduce => true
  | .lsendRetire => true
  | .start => true
  | .launch => true
  | .graph => true
  | .kill => true
  | .launchStart => true
  | .preload => true
  | .kernelRetire => true
  | .nodeKernel => true
  | .nodeCond => true
  | .nodeLoop => true
  | .nodeJoin => true
  | .powerUp => true
  | .go => true
  | .firmwareVerify => true
  | .ready => true
  | .swapFirmware => true
  | .installRoutine => true
  | .retireCluster => true
  | .drainChannel => true
  | .retrainPort => true
  | .reloadCalibration => true
  | .serviceActionComplete => true
  | .windowRegisterWrite => true
  | .attestationRequest => true
  | .attestationReport => true
  | .thermalWarning => true
  | .thermalCritical => true
  | .temperatureFalls => true
  | .acknowledgmentArrival => true
  | .remoteInvalidation => true
  | .nop h o => wfCommon h o.short && wfNoArr h && (o.d == 0 && o.a == 0 && o.b == 0 && o.sub == 0 && o.imm32 == 0)
  | .br h o => wfCommon h o.short && wfNoArr h && (wfDisp h o)
  | .bri h o => wfCommon h o.short && wfNoArr h && (o.d == 0 && o.b == 0 && o.sub == 0 && o.imm32 == 0)
  | .call h o => wfCommon h o.short && wfNoArr h && (wfDisp h o)
  | .calli h o => wfCommon h o.short && wfNoArr h && (o.b == 0 && o.sub == 0 && o.imm32 == 0)
  | .ret h o => wfCommon h o.short && wfNoArr h && (o.d == 0 && o.b == 0 && o.sub == 0 && o.imm32 == 0)
  | .loop h o => wfCommon h o.short && wfNoArr h && ((if h.ext then o.n == 0 else o.imm32 == 0))
  | .loopv h o => wfCommon h o.short && wfNoArr h && ((if h.ext then o.len == 0 else o.imm32 == 0))
  | .brk h o => wfCommon h o.short && wfNoArr h && (o.d == 0 && wfCI h o && decide (1 ≤ (ciVal h o).toNat ∧ (ciVal h o).toNat ≤ 6))
  | .next h o => wfCommon h o.short && wfNoArr h && (o.d == 0 && wfCI h o && decide (1 ≤ (ciVal h o).toNat ∧ (ciVal h o).toNat ≤ 6))
  | .lidx h o => wfCommon h o.short && wfNoArr h && (wfCI h o && decide ((ciVal h o).toNat ≤ 5))
  | .lidxC h o => wfCommon h o.short && wfNoArr h && (wfCI h o && decide (8 ≤ (ciVal h o).toNat ∧ (ciVal h o).toNat ≤ 13))
  | .mark h o => wfCommon h o.short && wfNoArr h && (o.d == 0 && o.a == 0 && o.b == 0 && o.sub == 0 && o.imm32 == 0)
  | .ppt h o => wfCommon h o.short && wfNoArr h && (o.d == 0 && o.a == 0 && o.b == 0 && o.sub == 0 && o.imm32 == 0)
  | .halt h o => wfCommon h o.short && wfNoArr h && (o.d == 0 && o.a == 0 && o.b == 0 && o.sub == 0 && o.imm32 == 0)
  | .fuse2 h o => wfCommon h o.short && wfNoArr h && (o.d == 0 && wfCI h o && ciVal h o == 2)
  | .fuse4 h o => wfCommon h o.short && wfNoArr h && (o.d == 0 && wfCI h o && ciVal h o == 4)
  | .decouple h o => wfCommon h o.short && wfNoArr h && (o.d == 0 && o.a == 0 && o.b == 0 && o.sub == 0 && o.imm32 == 0)
  | .rejoin2 h o => wfCommon h o.short && wfNoArr h && (o.d == 0 && o.a == 0 && o.b == 0 && o.sub == 1 && o.imm32 == 0)
  | .rejoin4 h o => wfCommon h o.short && wfNoArr h && (o.d == 0 && o.a == 0 && o.b == 0 && o.sub == 2 && o.imm32 == 0)
  | .fmt h o => wfCommon h o.short && wfNoArr h && (wfFmt h o)
  | .wset h o => wfCommon h o.short && wfNoArr h && (decide (o.d.toNat < 8) && o.sub == 0 && o.imm32 == 0)
  | .wait h o => wfCommon h o.short && wfNoArr h && (o.a == 0 && o.b == 0 && o.sub == 0 && o.imm32 == 0)
  | .waitNb h o => wfCommon h o.short && wfNoArr h && (o.a == 0 && o.b == 0 && o.sub == 1 && o.imm32 == 0)
  | .arrive h o => wfCommon h o.short && wfNoArr h && (o.d == 0 && wfCI h o && decide ((ciVal h o).toNat < 16))
  | .bwait h o => wfCommon h o.short && wfNoArr h && (o.a == 0 && decide (o.b.toNat < 16) && o.sub == 0 && decide (o.imm32.toNat < 16))
  | .bphase h o => wfCommon h o.short && wfNoArr h && (o.a == 0 && decide (o.b.toNat < 16) && o.sub == 0 && o.imm32 == 0)
  | .bset h o => wfCommon h o.short && wfNoArr h && (o.d == 0 && decide (o.b.toNat < 16) && o.sub == 0 && o.imm32 == 0)
  | .bsetS h o => wfCommon h o.short && wfNoArr h && (o.d == 0 && decide (o.b.toNat < 16) && o.sub == 1 && o.imm32 == 0)
  | .sstep h o => wfCommon h o.short && wfNoArr h && (o.d == 0 && o.a == 0 && o.b == 0 && o.sub == 0 && o.imm32 == 0)
  | .spawn h o => wfCommon h o.short && wfNoArr h && (o.d == 0 && o.b == 0 && o.imm32 == 0)
  | .ilock h o => wfCommon h o.short && wfNoArr h && (o.sub == 0 && decide (o.imm32.toNat < 16))
  | .iunlock h o => wfCommon h o.short && wfNoArr h && (o.d == 0 && o.sub == 0 && o.imm32 == 0)
  | .pfn h o => wfCommon h o.short && wfNoArr h && (wfDisp h o)
  | .gres h o => wfCommon h o.short && wfNoArr h && (o.d == 0 && decide (o.a.toNat < 16) && o.b == 0 && o.sub == 0 && o.imm32 == 0)
  | .gresAll h o => wfCommon h o.short && wfNoArr h && (o.d == 0 && o.a == 0 && o.b == 0 && o.sub == 1 && o.imm32 == 0)
  | .gcol h o => wfCommon h o.short && wfNoArr h && (o.d == 0 && decide (o.a.toNat < 16) && o.a != 0 && o.b == 0 && o.imm32 == 0 && o.sub == 0)
  | .gcolT h o => wfCommon h o.short && wfNoArr h && (o.d == 0 && decide (o.a.toNat < 16) && o.a != 0 && o.b == 0 && o.imm32 == 0 && o.sub == 1)
  | .gcolF h o => wfCommon h o.short && wfNoArr h && (o.d == 0 && decide (o.a.toNat < 16) && o.a != 0 && o.b == 0 && o.imm32 == 0 && o.sub == 2)
  | .cgo2 h o => wfCommon h o.short && wfNoArr h && (wfUncond h && wfCI h o && (ciVal h o).toNat / 1024 == 4)
  | .cgo4 h o => wfCommon h o.short && wfNoArr h && (wfUncond h && wfCI h o && (ciVal h o).toNat / 1024 == 8)
  | .cguess h o => wfCommon h o.short && wfNoArr h && (wfUncond h && wfDisp h o && decide (0 < cbDisp h o))
  | .cchk h o => wfCommon h o.short && wfNoArr h && (wfUncond h && o.d == 0 && o.a == 0 && o.b == 0 && o.sub == 0 && o.imm32 == 0)
  | .cend h o => wfCommon h o.short && wfNoArr h && (wfUncond h && wfDisp h o && decide (cbDisp h o < 0))
  | .trap h o => wfCommon h o.short && wfNoArr h && (o.d == 0 && (if h.ext then o.imm14 == 0 else o.imm32 == 0))
  | .sret h o => wfCommon h o.short && wfNoArr h && (o.d == 0 && o.a == 0 && o.b == 0 && o.sub == 0 && o.imm32 == 0)
  | .csrr h o => wfCommon h o.short && wfNoArr h && (wfCI h o && csrKnown (ciVal h o).toNat)
  | .csrw h o => wfCommon h o.short && wfNoArr h && (wfCI h o && csrKnown (ciVal h o).toNat)
  | .dstop h o => wfCommon h o.short && wfNoArr h && (o.d == 0 && o.a == 0 && o.b == 0 && o.sub == 0 && o.imm32 == 0)
  | .invqC h o => wfCommon h o.short && wfNoArr h && (o.sub == 0 && o.imm32 == 0)
  | .invqE h o => wfCommon h o.short && wfNoArr h && (o.sub == 1 && o.imm32 == 0)
  | .invqN h o => wfCommon h o.short && wfNoArr h && (o.sub == 2 && o.imm32 == 0)
  | .nopS h o => wfCommon h o.short && (wfNoArr h && o.d == 0 && o.a == 0 && o.b == 0 && o.sub == 0 && o.c == 0 && o.x == 0)
  | .add h o => wfCommon h o.short && (o.sub == 0 && o.c == 0 && o.x == 0)
  | .sub h o => wfCommon h o.short && (o.sub == 0 && o.c == 0 && o.x == 0)
  | .mul h o => wfCommon h o.short && (o.sub == 0 && o.c == 0 && o.x == 0)
  | .mulh h o => wfCommon h o.short && (o.sub == 0 && o.c == 0 && o.x == 0)
  | .mulhu h o => wfCommon h o.short && (o.sub == 0 && o.c == 0 && o.x == 0)
  | .div h o => wfCommon h o.short && (o.sub == 0 && o.c == 0 && o.x == 0)
  | .divu h o => wfCommon h o.short && (o.sub == 0 && o.c == 0 && o.x == 0)
  | .rem h o => wfCommon h o.short && (o.sub == 0 && o.c == 0 && o.x == 0)
  | .remu h o => wfCommon h o.short && (o.sub == 0 && o.c == 0 && o.x == 0)
  | .and h o => wfCommon h o.short && (o.sub == 0 && o.c == 0 && o.x == 0)
  | .or h o => wfCommon h o.short && (o.sub == 0 && o.c == 0 && o.x == 0)
  | .xor h o => wfCommon h o.short && (o.sub == 0 && o.c == 0 && o.x == 0)
  | .andn h o => wfCommon h o.short && (o.sub == 0 && o.c == 0 && o.x == 0)
  | .shl h o => wfCommon h o.short && (o.sub == 0 && o.c == 0 && o.x == 0)
  | .shr h o => wfCommon h o.short && (o.sub == 0 && o.c == 0 && o.x == 0)
  | .sra h o => wfCommon h o.short && (o.sub == 0 && o.c == 0 && o.x == 0)
  | .rotl h o => wfCommon h o.short && (o.sub == 0 && o.c == 0 && o.x == 0)
  | .clz h o => wfCommon h o.short && (o.b == 0 && o.c == 0 && o.x == 0)
  | .ctz h o => wfCommon h o.short && (o.b == 0 && o.c == 0 && o.x == 0)
  | .pop h o => wfCommon h o.short && (o.b == 0 && o.c == 0 && o.x == 0)
  | .ffs h o => wfCommon h o.short && (o.b == 0 && o.c == 0 && o.x == 0)
  | .min h o => wfCommon h o.short && (o.sub == 0 && o.c == 0 && o.x == 0)
  | .minu h o => wfCommon h o.short && (o.sub == 0 && o.c == 0 && o.x == 0)
  | .max h o => wfCommon h o.short && (o.sub == 0 && o.c == 0 && o.x == 0)
  | .maxu h o => wfCommon h o.short && (o.sub == 0 && o.c == 0 && o.x == 0)
  | .sel h o => wfCommon h o.short && (h.ext && o.sub == 0 && o.x == 0)
  | .seq h o => wfCommon h o.short && (o.sub == 0 && o.c == 0 && o.x == 0)
  | .sne h o => wfCommon h o.short && (o.sub == 0 && o.c == 0 && o.x == 0)
  | .slt h o => wfCommon h o.short && (o.sub == 0 && o.c == 0 && o.x == 0)
  | .sltu h o => wfCommon h o.short && (o.sub == 0 && o.c == 0 && o.x == 0)
  | .sext h o => wfCommon h o.short && (o.b == 0 && o.sub != 3 && o.c == 0 && o.x == 0)
  | .zext h o => wfCommon h o.short && (o.b == 0 && o.sub != 3 && o.c == 0 && o.x == 0)
  | .bfx h o => wfCommon h o.short && wfImm h o && (h.ext && wfBitField o 0x13F3F)
  | .bfi h o => wfCommon h o.short && wfImm h o && (h.ext && wfBitField o 0x03F3F)
  | .lea h o => wfCommon h o.short && wfImm h o && (decide (o.d.toNat < 16) && decide (o.a.toNat < 16))
  | .mov h o => wfCommon h o.short && (o.sub == 0 && o.c == 0 && o.x == 0 && o.b == 0)
  | .amovAS h o => wfCommon h o.short && (decide (o.d.toNat < 16) && o.b == 0 && o.sub == 0 && o.c == 0 && o.x == 0)
  | .amovSA h o => wfCommon h o.short && (decide (o.a.toNat < 16) && o.b == 0 && o.sub == 1 && o.c == 0 && o.x == 0)
  | .amovAA h o => wfCommon h o.short && (decide (o.d.toNat < 16) && decide (o.a.toNat < 16) && o.b == 0 && o.sub == 2 && o.c == 0 && o.x == 0)
  | .li h o => wfCommon h o.short && wfImm h o && (o.a == 0)
  | .lih h o => wfCommon h o.short && wfImm h o && (true)
  | .gcmp h o => wfCommon h o.short && (wfNoArr h && decide (o.d.toNat < 48) && decide (o.d.toNat % 16 ≠ 0) && o.c == 0 && o.x == 0)
  | .gcmpLe h o => wfCommon h o.short && (wfNoArr h && decide (o.d.toNat < 48) && decide (o.d.toNat % 16 ≠ 0) && o.c == 0 && o.x == 0 && decide (o.sub.toNat < 2))
  | .gand h o => wfCommon h o.short && (wfNoArr h && decide (o.d.toNat < 48) && decide (o.d.toNat % 16 ≠ 0) && o.c == 0 && o.x == 0 && decide (o.a.toNat < 32) && decide (o.b.toNat < 32) && o.sub == 0)
  | .gor h o => wfCommon h o.short && (wfNoArr h && decide (o.d.toNat < 48) && decide (o.d.toNat % 16 ≠ 0) && o.c == 0 && o.x == 0 && decide (o.a.toNat < 32) && decide (o.b.toNat < 32) && o.sub == 0)
  | .gnot h o => wfCommon h o.short && (wfNoArr h && decide (o.d.toNat < 48) && decide (o.d.toNat % 16 ≠ 0) && o.c == 0 && o.x == 0 && decide (o.a.toNat < 32) && o.b == 0 && o.sub == 0)
  | .addImm h o => wfCommon h o.short && wfImm h o && (true)
  | .andImm h o => wfCommon h o.short && wfImm h o && (true)
  | .orImm h o => wfCommon h o.short && wfImm h o && (true)
  | .xorImm h o => wfCommon h o.short && wfImm h o && (true)
  | .shlImm h o => wfCommon h o.short && wfImm h o && (true)
  | .shrImm h o => wfCommon h o.short && wfImm h o && (true)
  | .sraImm h o => wfCommon h o.short && wfImm h o && (true)
  | .rotlImm h o => wfCommon h o.short && wfImm h o && (true)
  | .mulImm h o => wfCommon h o.short && wfImm h o && (true)
  | .minImm h o => wfCommon h o.short && wfImm h o && (true)
  | .maxImm h o => wfCommon h o.short && wfImm h o && (true)
  | .sltImm h o => wfCommon h o.short && wfImm h o && (true)
  | .sltuImm h o => wfCommon h o.short && wfImm h o && (true)
  | .seqImm h o => wfCommon h o.short && wfImm h o && (true)
  | .sneImm h o => wfCommon h o.short && wfImm h o && (true)
  | .nopL h o => wfCommon h o.short && (wfNoArr h && o == {})
  | .ld h o => wfCommon h o.short && (o.lof == 0 && o.ret == false && o.mrg == false && decide (o.size.toNat ≤ 3))
  | .ldu h o => wfCommon h o.short && (o.lof == 0 && o.ret == false && o.mrg == false && decide (o.size.toNat ≤ 3))
  | .st h o => wfCommon h o.short && (o.lof == 0 && o.ret == false && o.mrg == false && decide (o.size.toNat ≤ 3))
  | .vld h o => wfCommon h o.short && (o.lof == 0 && o.ret == false && o.mrg == false && decide (4 ≤ o.size.toNat ∧ o.size.toNat ≤ 6))
  | .vst h o => wfCommon h o.short && (o.lof == 0 && o.ret == false && o.mrg == false && decide (4 ≤ o.size.toNat ∧ o.size.toNat ≤ 6))
  | .ldt h o => wfCommon h o.short && (o.ret == false && o.mrg == false && decide (o.size.toNat ≤ 3))
  | .vldt h o => wfCommon h o.short && (o.ret == false && o.mrg == false && decide (4 ≤ o.size.toNat ∧ o.size.toNat ≤ 6))
  | .aadd h o => wfCommon h o.short && (decide (2 ≤ o.size.toNat ∧ o.size.toNat ≤ 3) && (if o.ret then !o.st else o.lof == 0) && o.mrg == false)
  | .aand h o => wfCommon h o.short && (decide (2 ≤ o.size.toNat ∧ o.size.toNat ≤ 3) && (if o.ret then !o.st else o.lof == 0) && o.mrg == false)
  | .aor h o => wfCommon h o.short && (decide (2 ≤ o.size.toNat ∧ o.size.toNat ≤ 3) && (if o.ret then !o.st else o.lof == 0) && o.mrg == false)
  | .axor h o => wfCommon h o.short && (decide (2 ≤ o.size.toNat ∧ o.size.toNat ≤ 3) && (if o.ret then !o.st else o.lof == 0) && o.mrg == false)
  | .amin h o => wfCommon h o.short && (decide (2 ≤ o.size.toNat ∧ o.size.toNat ≤ 3) && (if o.ret then !o.st else o.lof == 0) && o.mrg == false)
  | .amax h o => wfCommon h o.short && (decide (2 ≤ o.size.toNat ∧ o.size.toNat ≤ 3) && (if o.ret then !o.st else o.lof == 0) && o.mrg == false)
  | .aminu h o => wfCommon h o.short && (decide (2 ≤ o.size.toNat ∧ o.size.toNat ≤ 3) && (if o.ret then !o.st else o.lof == 0) && o.mrg == false)
  | .amaxu h o => wfCommon h o.short && (decide (2 ≤ o.size.toNat ∧ o.size.toNat ≤ 3) && (if o.ret then !o.st else o.lof == 0) && o.mrg == false)
  | .afadd h o => wfCommon h o.short && (o.size == 2 && decide (2 ≤ o.size.toNat ∧ o.size.toNat ≤ 3) && (if o.ret then !o.st else o.lof == 0))
  | .axchg h o => wfCommon h o.short && (decide (2 ≤ o.size.toNat ∧ o.size.toNat ≤ 3) && (if o.ret then !o.st else o.lof == 0) && o.mrg == false && o.ret)
  | .acas h o => wfCommon h o.short && (decide (2 ≤ o.size.toNat ∧ o.size.toNat ≤ 3) && (if o.ret then !o.st else o.lof == 0) && o.mrg == false && o.ret && o.d != 63)
  | .fence h o => wfCommon h o.short && (o.low == 0 && o.x == 0)
  | .drain h o => wfCommon h o.short && (o.bk == 0 && o.ak == 0 && o.low == 0 && o.x == 0)
  | .tchase h o => wfCommon h o.short && (o.ret == false && o.mrg == false && o.size == 3 && o.st == false && o.step == 0)
  | .nopV h o => wfCommon h o.short && (wfNoArr h && o == {})
  | .vadd h o => wfCommon h o.short && (wfV h o ⟨true, true, 1, false, true, true, false⟩ && decide (o.sub.toNat < 2))
  | .vsub h o => wfCommon h o.short && (wfV h o ⟨true, true, 1, false, true, true, false⟩ && decide (o.sub.toNat < 2))
  | .vmul h o => wfCommon h o.short && (wfV h o ⟨true, true, 1, false, true, true, false⟩ && decide (o.sub.toNat < 2))
  | .vfma h o => wfCommon h o.short && (wfV h o ⟨true, true, 1, true, true, true, true⟩ && o.sub == 0)
  | .vfms h o => wfCommon h o.short && (wfV h o ⟨true, true, 1, true, true, true, true⟩ && o.sub == 0)
  | .vnfma h o => wfCommon h o.short && (wfV h o ⟨true, true, 1, true, true, true, true⟩ && o.sub == 0)
  | .vmin h o => wfCommon h o.short && (wfV h o ⟨true, true, 1, false, false, false, false⟩ && decide (o.sub.toNat < 2))
  | .vmax h o => wfCommon h o.short && (wfV h o ⟨true, true, 1, false, false, false, false⟩ && decide (o.sub.toNat < 2))
  | .vabs h o => wfCommon h o.short && (wfV h o ⟨true, true, 0, false, false, true, false⟩ && o.sub == 0)
  | .vneg h o => wfCommon h o.short && (wfV h o ⟨true, true, 0, false, false, true, false⟩ && o.sub == 0)
  | .vand h o => wfCommon h o.short && (wfV h o ⟨true, true, 1, false, false, false, false⟩ && o.sub == 0)
  | .vor h o => wfCommon h o.short && (wfV h o ⟨true, true, 1, false, false, false, false⟩ && o.sub == 0)
  | .vxor h o => wfCommon h o.short && (wfV h o ⟨true, true, 1, false, false, false, false⟩ && o.sub == 0)
  | .vshl h o => wfCommon h o.short && (wfV h o ⟨true, true, 4, false, false, false, false⟩ && decide (o.sub.toNat < 2))
  | .vshr h o => wfCommon h o.short && (wfV h o ⟨true, true, 4, false, false, false, false⟩ && decide (o.sub.toNat < 2))
  | .vsra h o => wfCommon h o.short && (wfV h o ⟨true, true, 4, false, false, false, false⟩ && decide (o.sub.toNat < 2))
  | .vcmp h o => wfCommon h o.short && (wfV h o ⟨true, true, 1, false, false, false, false⟩ && o.sub != 7)
  | .vsel h o => wfCommon h o.short && (wfV h o ⟨true, true, 1, true, false, false, true⟩ && o.sub == 0)
  | .vsplat h o => wfCommon h o.short && (wfV h o ⟨true, true, 0, false, false, false, false⟩ && o.sub == 0)
  | .vbcast h o => wfCommon h o.short && (wfV h o ⟨true, true, 3, false, false, false, false⟩ && decide (o.sub.toNat < 2))
  | .vperm h o => wfCommon h o.short && (wfV h o ⟨true, true, 1, false, false, false, false⟩ && o.sub == 0)
  | .vshuf h o => wfCommon h o.short && (wfV h o ⟨true, true, 1, false, false, false, false⟩ && decide (o.sub.toNat < 4))
  | .vrot h o => wfCommon h o.short && (wfV h o ⟨true, true, 3, false, false, false, false⟩ && decide (o.sub.toNat < 2))
  | .vext h o => wfCommon h o.short && (wfV h o ⟨true, true, 3, false, false, false, false⟩ && decide (o.sub.toNat < 4))
  | .vins h o => wfCommon h o.short && (wfV h o ⟨true, true, 3, false, false, false, false⟩ && decide (o.sub.toNat < 2))
  | .vmov h o => wfCommon h o.short && (wfV h o ⟨true, true, 0, false, false, false, false⟩ && o.sub == 0)
  | .vredsum h o => wfCommon h o.short && (wfV h o ⟨true, true, 0, false, true, false, false⟩ && o.sub == 0)
  | .vredmax h o => wfCommon h o.short && (wfV h o ⟨true, true, 0, false, false, false, false⟩ && decide (o.sub.toNat < 2))
  | .vredmin h o => wfCommon h o.short && (wfV h o ⟨true, true, 0, false, false, false, false⟩ && decide (o.sub.toNat < 2))
  | .vscan h o => wfCommon h o.short && (wfV h o ⟨true, true, 0, false, true, false, false⟩ && o.sub == 0)
  | .vexp2 h o => wfCommon h o.short && (wfV h o ⟨true, true, 0, false, true, true, false⟩ && o.sub == 0)
  | .vlog2 h o => wfCommon h o.short && (wfV h o ⟨true, true, 0, false, true, true, false⟩ && o.sub == 0)
  | .vrcp h o => wfCommon h o.short && (wfV h o ⟨true, true, 0, false, true, true, false⟩ && o.sub == 0)
  | .vrsqrt h o => wfCommon h o.short && (wfV h o ⟨true, true, 0, false, true, true, false⟩ && o.sub == 0)
  | .vsqrt h o => wfCommon h o.short && (wfV h o ⟨true, true, 0, false, true, true, false⟩ && o.sub == 0)
  | .vclz h o => wfCommon h o.short && (wfV h o ⟨true, true, 0, false, false, false, false⟩ && o.sub == 0)
  | .vpop h o => wfCommon h o.short && (wfV h o ⟨true, true, 0, false, false, false, false⟩ && o.sub == 0)
  | .vcvt h o => wfCommon h o.short && (wfV h o ⟨true, true, 0, false, true, true, false⟩ && true)
  | .vmaxe h o => wfCommon h o.short && (wfV h o ⟨true, true, 0, false, false, false, false⟩ && o.sub == 0)
  | .vqcvt h o => wfCommon h o.short && (wfV h o ⟨true, true, 0, false, true, false, false⟩ && true)
  | .vpack h o => wfCommon h o.short && (wfV h o ⟨true, true, 2, false, false, false, false⟩ && o.sub == 0 && decide (o.b.toNat < 16) && o.b5 == false)
  | .vunpack h o => wfCommon h o.short && (wfV h o ⟨true, true, 2, false, false, false, false⟩ && o.sub == 0 && decide (o.b.toNat < 16) && o.b5 == false)
  | .nopM h o => wfCommon h o.short && (wfNoArr h && o == {})
  | .mset h o => wfCommon h o.short && (o.z == 0 && o.x == 0)
  | .mget h o => wfCommon h o.short && (o.z == 0 && o.x == 0)
  | .mcall h o => wfCommon h o.short && (o.f == 0 && o.x == 0)
  | .mzero h o => wfCommon h o.short && (o.idx == 0 && o.fi == false && o.fo == false && decide (o.f.toNat < 8) && o.x == 0)
  | .mrd h o => wfCommon h o.short && (h.ext && o.p == 0 && o.z == 0 && decide (o.x.toNat / 65536 % 32 = 0))
  | .mwr h o => wfCommon h o.short && (h.ext && o.p == 0 && o.z == 0 && decide (o.x.toNat / 65536 % 32 = 0))
  | .mwait h o => wfCommon h o.short && (o.d == 0 && o.p == 0 && o.z == 0 && o.x == 0)
  | .mprov h o => wfCommon h o.short && (o.p == 0 && o.z == 0 && o.x == 0)
  | .mpgm h o => wfCommon h o.short && (o.fi == false && o.fo == false && decide (o.f.toNat < 16) && o.x == 0)
  | .nopX h o => wfCommon h o.short && (wfNoArr h && o == {})
  | .xdim h o => wfCommon h o.short && (o.z == false && o.lof == 0 && o.st == false && o.xstep == 0 && o.da == 0 && decide (o.sa.toNat < 3) && o.x == 0)
  | .xcopy h o => wfCommon h o.short && (h.ext && o.z == false && o.lof == 0 && decide (o.x.toNat / 4 % 8 ≤ 4) && decide (o.xs.toNat + o.x.toNat / 32 + 1 ≤ 16) && o.d == 0)
  | .xgather h o => wfCommon h o.short && (h.ext && o.z == false && o.lof == 0 && decide (o.x.toNat / 4 % 8 ≤ 4) && decide (o.xs.toNat + o.x.toNat / 32 + 1 ≤ 16) && decide (o.d.toNat < 16))
  | .xscatter h o => wfCommon h o.short && (h.ext && o.z == false && o.lof == 0 && decide (o.x.toNat / 4 % 8 ≤ 4) && decide (o.xs.toNat + o.x.toNat / 32 + 1 ≤ 16) && decide (o.d.toNat < 16))
  | .xfill h o => wfCommon h o.short && (h.ext && o.z == false && o.lof == 0 && decide (o.x.toNat / 4 % 8 ≤ 4) && decide (o.xs.toNat + o.x.toNat / 32 + 1 ≤ 16) && o.sa == 0)
  | .xwait h o => wfCommon h o.short && (o.z == false && o.lof == 0 && o.st == false && o.xstep == 0 && o.da == 0 && o.sa == 0 && o.x == 0)
  | .tmove h o => wfCommon h o.short && (o.z == false && o.lof == 0 && o.st == false && o.xstep == 0 && decide (o.x.toNat % 256 = 0) && (decide (256 ≤ o.x.toNat) || o.xs == 0))
  | .tstat h o => wfCommon h o.short && (o.z == false && o.st == false && o.xstep == 0 && o.da == 0 && o.xs == 0 && o.x == 0)
  | .tsweep h o => wfCommon h o.short && (o.z == false && o.lof == 0 && o.st == false && o.xstep == 0 && o.sa == 0 && decide (o.x.toNat % 256 < 4) && (decide (256 ≤ o.x.toNat) || o.xs == 0))
  | .tunmark h o => wfCommon h o.short && (o.z == false && o.lof == 0 && o.st == false && o.xstep == 0 && o.d == 0 && o.sa == 0 && decide (o.x.toNat % 256 = 0) && (decide (256 ≤ o.x.toNat) || o.xs == 0))
  | .tunmarkF h o => wfCommon h o.short && (o.z == false && o.lof == 0 && o.st == false && o.xstep == 0 && h.ext && o.d == 0 && o.sa == 0 && decide (o.x.toNat % 256 = 128) && (decide (256 ≤ o.x.toNat) || o.xs == 0))
  | .lsend h o => wfCommon h o.short && (h.ext && o.z == false && o.st == false && o.xstep == 0 && o.lof == 0 && decide (o.xs.toNat < 8))
  | .lrecv h o => wfCommon h o.short && (h.ext && o.z == false && o.st == false && o.xstep == 0 && o.da == 0 && o.sa == 0 && decide (o.xs.toNat < 8))
  | .lred h o => wfCommon h o.short && (h.ext && o.z == false && o.st == false && o.xstep == 0 && o.d == 0 && decide (o.xs.toNat < 8))
  | .ltime h o => wfCommon h o.short && (o.z == false && o.st == false && o.xstep == 0 && o.lof == 0 && o.da == 0 && o.sa == 0 && o.xs == 0 && o.x == 0)
  | .nopN h o => wfCommon h o.short && (wfNoArr h && o == {})
  | .nclr h o => wfCommon h o.short && (o.d == 0 && o.a == 0 && o.b == 0 && o.sub == 0 && o.x == 0)
  | .nmerge h o => wfCommon h o.short && (o.d == 0 && o.sub == 0 && o.x == 0)
  | .nmergeP h o => wfCommon h o.short && (o.d == 0 && o.b == 0 && o.sub == 1 && o.x == 0)
  | .nsort h o => wfCommon h o.short && (o.b == 0 && o.sub == 0 && o.x == 0)
  | .nsortI h o => wfCommon h o.short && (o.b == 0 && o.sub == 1 && o.x == 0)
  | .ntop h o => wfCommon h o.short && (o.b == 0 && o.sub == 0 && o.x == 0)
  | .ntopK h o => wfCommon h o.short && (o.b == 0 && o.sub == 1 && o.x == 0)
  | .ntopV h o => wfCommon h o.short && (o.b == 0 && o.sub == 2 && o.x == 0)
  | .nkth h o => wfCommon h o.short && (o.b == 0 && o.sub == 0 && o.x == 0)
  | .nmass h o => wfCommon h o.short && (o.sub == 0 && o.x == 0)
  | .nhist h o => wfCommon h o.short && (o.d == 0 && o.b == 0 && o.sub == 0 && o.x == 0)
  | .nhistM h o => wfCommon h o.short && (o.d == 0 && o.b == 0 && o.sub == 1 && o.x == 0)
  | .nhistSet h o => wfCommon h o.short && (o.d == 0 && o.sub == 2 && o.x == 0)
  | .nhistRd h o => wfCommon h o.short && (o.a == 0 && decide (o.b.toNat < 16) && o.sub == 3 && o.x == 0)
  | .nthr h o => wfCommon h o.short && (o.b == 0 && o.sub == 0 && o.x == 0)
  | .nthrP h o => wfCommon h o.short && (o.b == 0 && o.sub == 1 && o.x == 0)
  | .nrng h o => wfCommon h o.short && (o.d == 0 && o.sub == 0 && o.x == 0)
  | .nrngX h o => wfCommon h o.short && (o.b == 0 && o.sub == 1 && o.x == 0)
  | .nsampleTok h o => wfCommon h o.short && (o.a == 0 && o.b == 0 && o.sub == 0 && o.x == 0)
  | .nsampleShard h o => wfCommon h o.short && (o.b == 0 && o.sub == 1 && o.x == 0)
  | .nsave h o => wfCommon h o.short && (o.a == 0 && o.b == 0 && o.x == 0)

end Sys2Proof
end

