-- ==== Sys2Proof/Decode.lean ====
section
/-! DEFINITION. Decoding and encoding of operation words (R28 to R30, R41 to R46) and of bundles
(R24 to R26). Every field is cut out of the words here, once. -/

namespace Sys2Proof

/-- What decoding answers: an instruction, or the trap of R41 by name. -/
inductive Decoded where
  | ok (i : Instr)
  | illegalOpcode
  | illegalEncoding
  deriving DecidableEq, Repr

/-- Bits [lo+n-1:lo] of a word. -/
def bits {w : Nat} (v : BitVec w) (lo n : Nat) : BitVec n := v.extractLsb' lo n

/-- Bit `i` of a word. -/
def bit {w : Nat} (v : BitVec w) (i : Nat) : Bool := v.getLsbD i

def bbit (b : Bool) : BitVec 1 := BitVec.ofBool b

/-- Family T: `d` `a` `b` `sub`; extension ARR BN `c` x (R30). -/
def TOp.low (o : TOp) : BitVec 20 := o.d ++ o.a ++ o.b ++ o.sub
def TOp.ex (o : TOp) : BitVec 27 := o.c ++ o.x
def tOf (l : BitVec 20) (x : BitVec 32) : TOp :=
  { d := bits l 14 6, a := bits l 8 6, b := bits l 2 6, sub := bits l 0 2, c := bits x 21 6, x := bits x 0 21 }

def IOp.low (o : IOp) : BitVec 20 := o.d ++ o.a ++ o.imm8
def iOf (l : BitVec 20) (x : BitVec 32) : IOp :=
  { d := bits l 14 6, a := bits l 8 6, imm8 := bits l 0 8, imm32 := x }

def MOp.low (o : MOp) : BitVec 20 := o.d ++ o.base ++ o.ac ++ bbit o.st ++ o.size ++ o.step
def MOp.ex (o : MOp) : BitVec 27 := o.lof ++ bbit o.ret ++ bbit o.mrg ++ o.hint ++ o.off
def mOf (l : BitVec 20) (x : BitVec 32) : MOp :=
  { d := bits l 14 6, base := bits l 10 4, ac := bits l 8 2, st := bit l 7, size := bits l 4 3, step := bits l 0 4,
    lof := bits x 15 12, ret := bit x 14, mrg := bit x 13, hint := bits x 11 2, off := bits x 0 11 }

def FOp.lowBits (o : FOp) : BitVec 20 := o.scope ++ o.bk ++ o.ak ++ o.low
def fOf (l : BitVec 20) (x : BitVec 32) : FOp :=
  { scope := bits l 18 2, bk := bits l 13 5, ak := bits l 8 5, low := bits l 0 8, x := bits x 0 27 }

def VOp.low (o : VOp) : BitVec 20 := o.w ++ bbit o.st ++ o.d ++ o.a ++ o.b
def VOp.ex (o : VOp) : BitVec 27 :=
  bbit o.b5 ++ o.c ++ o.rm ++ bbit o.sat ++ o.fo ++ o.hint ++ o.sm ++ o.vstep ++ o.sub
def vOf (l : BitVec 20) (x : BitVec 32) : VOp :=
  { w := bits l 18 2, st := bit l 17, d := bits l 11 6, a := bits l 5 6, b := bits l 0 5,
    b5 := bit x 26, c := bits x 20 6, rm := bits x 17 3, sat := bit x 16, fo := bits x 12 4,
    hint := bits x 10 2, sm := bits x 7 3, vstep := bits x 3 4, sub := bits x 0 3 }

def cbOf (l : BitVec 20) (x : BitVec 32) : CBOp := { disp := l, imm32 := x }

def CLOp.low (o : CLOp) : BitVec 20 := o.n ++ o.len
def clOf (l : BitVec 20) (x : BitVec 32) : CLOp := { n := bits l 14 6, len := bits l 0 14, imm32 := x }

def CROp.low (o : CROp) : BitVec 20 := o.d ++ o.a ++ o.b ++ o.sub
def crOf (l : BitVec 20) (x : BitVec 32) : CROp :=
  { d := bits l 14 6, a := bits l 8 6, b := bits l 2 6, sub := bits l 0 2, imm32 := x }

def CIOp.low (o : CIOp) : BitVec 20 := o.d ++ o.imm14
def ciOf (l : BitVec 20) (x : BitVec 32) : CIOp := { d := bits l 14 6, imm14 := bits l 0 14, imm32 := x }

def KCOp.low (o : KCOp) : BitVec 20 := o.idx ++ bbit o.fi ++ bbit o.fo ++ o.f
def kcOf (l : BitVec 20) (x : BitVec 32) : KCOp :=
  { idx := bits l 12 8, fi := bit l 11, fo := bit l 10, f := bits l 0 10, x := bits x 0 27 }

def KROp.low (o : KROp) : BitVec 20 := o.d ++ o.p ++ o.z
def krOf (l : BitVec 20) (x : BitVec 32) : KROp :=
  { d := bits l 14 6, p := bits l 11 3, z := bits l 0 11, x := bits x 0 27 }

def QOp.low (o : QOp) : BitVec 20 := o.d ++ o.da ++ o.sa ++ o.xs ++ bbit o.st ++ bbit o.z
def QOp.ex (o : QOp) : BitVec 27 := o.lof ++ o.xstep ++ o.hint ++ o.x
def qOf (l : BitVec 20) (x : BitVec 32) : QOp :=
  { d := bits l 14 6, da := bits l 10 4, sa := bits l 6 4, xs := bits l 2 4, st := bit l 1, z := bit l 0,
    lof := bits x 15 12, xstep := bits x 11 4, hint := bits x 9 2, x := bits x 0 9 }

def NOp.low (o : NOp) : BitVec 20 := o.d ++ o.a ++ o.b ++ o.sub
def nOf (l : BitVec 20) (x : BitVec 32) : NOp :=
  { d := bits l 14 6, a := bits l 8 6, b := bits l 2 6, sub := bits l 0 2, x := bits x 0 27 }

/-- The extension word of a family that carries arrivals: ARR, BN and 27 bits (R29, R30). -/
def arrWord (h : Hdr) (e : BitVec 27) : BitVec 32 := bbit h.arr ++ h.bn ++ e

/-- The families whose extension word holds ARR and BN: all but families C and I (R29). -/
def hasArr (sl : Slot) (opc : Nat) : Bool :=
  match sl with
  | .c => false
  | .s => !(opc == 0x21 || opc == 0x22 || opc == 0x23 || opc == 0x26 || opc == 0x27 || decide (0x30 ≤ opc))
  | _ => true

/-- The header fields of an operation (R28, R29). -/
def hdrOf (sl : Slot) (w0 x : BitVec 32) : Hdr :=
  let ar := bit w0 31 && hasArr sl (bits w0 25 6).toNat
  { ext := bit w0 31, g := bits w0 21 4, gs := bit w0 20,
    arr := ar && bit x 31, bn := if ar then bits x 27 4 else 0 }

/-- The C slot's opcode map (R42). -/
def mapC (opc : Nat) (h : Hdr) (l : BitVec 20) (x : BitVec 32) : Option Instr :=
  match opc with
  | 0 => some (.nop h (crOf l x))
  | 1 => some (.br h (cbOf l x))
  | 2 => some (.bri h (crOf l x))
  | 3 => some (.call h (cbOf l x))
  | 4 => some (.calli h (crOf l x))
  | 5 => some (.ret h (crOf l x))
  | 6 => some (.loop h (clOf l x))
  | 7 => some (.loopv h (clOf l x))
  | 8 => some (.brk h (ciOf l x))
  | 9 => some (.next h (ciOf l x))
  | 10 =>
    let o := ciOf l x
    if decide ((ciVal h o).toNat / 8 % 2 = 0) then some (.lidx h o) else some (.lidxC h o)
  | 11 => some (.mark h (crOf l x))
  | 12 => some (.ppt h (crOf l x))
  | 13 => some (.halt h (crOf l x))
  | 14 =>
    let o := ciOf l x
    if (ciVal h o == 4) then some (.fuse4 h o) else some (.fuse2 h o)
  | 15 => some (.decouple h (crOf l x))
  | 16 =>
    let o := crOf l x
    if (o.sub == 2) then some (.rejoin4 h o) else some (.rejoin2 h o)
  | 17 => some (.fmt h (ciOf l x))
  | 18 => some (.wset h (crOf l x))
  | 19 =>
    let o := crOf l x
    if (o.sub == 1) then some (.waitNb h o) else some (.wait h o)
  | 20 => some (.arrive h (ciOf l x))
  | 21 => some (.bwait h (crOf l x))
  | 22 => some (.bphase h (crOf l x))
  | 23 =>
    let o := crOf l x
    if (o.sub == 1) then some (.bsetS h o) else some (.bset h o)
  | 24 => some (.sstep h (crOf l x))
  | 25 => some (.spawn h (crOf l x))
  | 26 => some (.ilock h (crOf l x))
  | 27 => some (.iunlock h (crOf l x))
  | 28 => some (.pfn h (cbOf l x))
  | 29 =>
    let o := crOf l x
    if (o.sub == 1) then some (.gresAll h o) else some (.gres h o)
  | 30 =>
    let o := crOf l x
    if (o.sub == 1) then some (.gcolT h o) else if (o.sub == 2) then some (.gcolF h o) else some (.gcol h o)
  | 40 =>
    let o := ciOf l x
    if ((ciVal h o).toNat / 4096 == 2) then some (.cgo4 h o) else some (.cgo2 h o)
  | 41 => some (.cguess h (cbOf l x))
  | 42 => some (.cchk h (crOf l x))
  | 43 => some (.cend h (cbOf l x))
  | 48 => some (.trap h (ciOf l x))
  | 49 => some (.sret h (crOf l x))
  | 50 => some (.csrr h (ciOf l x))
  | 51 => some (.csrw h (ciOf l x))
  | 52 => some (.dstop h (crOf l x))
  | 53 =>
    let o := crOf l x
    if (o.sub == 1) then some (.invqE h o) else if (o.sub == 2) then some (.invqN h o) else some (.invqC h o)
  | _ => none

/-- The S slot's opcode map (R43). -/
def mapS (opc : Nat) (h : Hdr) (l : BitVec 20) (x : BitVec 32) : Option Instr :=
  match opc with
  | 0 => some (.nopS h (tOf l x))
  | 1 => some (.add h (tOf l x))
  | 2 => some (.sub h (tOf l x))
  | 3 => some (.mul h (tOf l x))
  | 4 => some (.mulh h (tOf l x))
  | 5 => some (.mulhu h (tOf l x))
  | 6 => some (.div h (tOf l x))
  | 7 => some (.divu h (tOf l x))
  | 8 => some (.rem h (tOf l x))
  | 9 => some (.remu h (tOf l x))
  | 10 => some (.and h (tOf l x))
  | 11 => some (.or h (tOf l x))
  | 12 => some (.xor h (tOf l x))
  | 13 => some (.andn h (tOf l x))
  | 14 => some (.shl h (tOf l x))
  | 15 => some (.shr h (tOf l x))
  | 16 => some (.sra h (tOf l x))
  | 17 => some (.rotl h (tOf l x))
  | 18 => some (.clz h (tOf l x))
  | 19 => some (.ctz h (tOf l x))
  | 20 => some (.pop h (tOf l x))
  | 21 => some (.ffs h (tOf l x))
  | 22 => some (.min h (tOf l x))
  | 23 => some (.minu h (tOf l x))
  | 24 => some (.max h (tOf l x))
  | 25 => some (.maxu h (tOf l x))
  | 26 => some (.sel h (tOf l x))
  | 27 => some (.seq h (tOf l x))
  | 28 => some (.sne h (tOf l x))
  | 29 => some (.slt h (tOf l x))
  | 30 => some (.sltu h (tOf l x))
  | 31 => some (.sext h (tOf l x))
  | 32 => some (.zext h (tOf l x))
  | 33 => some (.bfx h (iOf l x))
  | 34 => some (.bfi h (iOf l x))
  | 35 => some (.lea h (iOf l x))
  | 36 => some (.mov h (tOf l x))
  | 37 =>
    let o := tOf l x
    if (o.sub == 1) then some (.amovSA h o) else if (o.sub == 2) then some (.amovAA h o) else some (.amovAS h o)
  | 38 => some (.li h (iOf l x))
  | 39 => some (.lih h (iOf l x))
  | 40 => some (.gcmp h (tOf l x))
  | 41 => some (.gcmpLe h (tOf l x))
  | 42 => some (.gand h (tOf l x))
  | 43 => some (.gor h (tOf l x))
  | 44 => some (.gnot h (tOf l x))
  | 48 => some (.addImm h (iOf l x))
  | 49 => some (.andImm h (iOf l x))
  | 50 => some (.orImm h (iOf l x))
  | 51 => some (.xorImm h (iOf l x))
  | 52 => some (.shlImm h (iOf l x))
  | 53 => some (.shrImm h (iOf l x))
  | 54 => some (.sraImm h (iOf l x))
  | 55 => some (.rotlImm h (iOf l x))
  | 56 => some (.mulImm h (iOf l x))
  | 57 => some (.minImm h (iOf l x))
  | 58 => some (.maxImm h (iOf l x))
  | 59 => some (.sltImm h (iOf l x))
  | 60 => some (.sltuImm h (iOf l x))
  | 61 => some (.seqImm h (iOf l x))
  | 62 => some (.sneImm h (iOf l x))
  | _ => none

/-- The L slot's opcode map (R44). -/
def mapL (opc : Nat) (h : Hdr) (l : BitVec 20) (x : BitVec 32) : Option Instr :=
  match opc with
  | 0 => some (.nopL h (mOf l x))
  | 1 => some (.ld h (mOf l x))
  | 2 => some (.ldu h (mOf l x))
  | 3 => some (.st h (mOf l x))
  | 4 => some (.vld h (mOf l x))
  | 5 => some (.vst h (mOf l x))
  | 6 => some (.ldt h (mOf l x))
  | 7 => some (.vldt h (mOf l x))
  | 16 => some (.aadd h (mOf l x))
  | 17 => some (.aand h (mOf l x))
  | 18 => some (.aor h (mOf l x))
  | 19 => some (.axor h (mOf l x))
  | 20 => some (.amin h (mOf l x))
  | 21 => some (.amax h (mOf l x))
  | 22 => some (.aminu h (mOf l x))
  | 23 => some (.amaxu h (mOf l x))
  | 24 => some (.afadd h (mOf l x))
  | 25 => some (.axchg h (mOf l x))
  | 26 => some (.acas h (mOf l x))
  | 48 => some (.fence h (fOf l x))
  | 49 => some (.drain h (fOf l x))
  | 50 => some (.tchase h (mOf l x))
  | _ => none

/-- The V slot's opcode map (R45). -/
def mapV (opc : Nat) (h : Hdr) (l : BitVec 20) (x : BitVec 32) : Option Instr :=
  match opc with
  | 0 => some (.nopV h (vOf l x))
  | 1 => some (.vadd h (vOf l x))
  | 2 => some (.vsub h (vOf l x))
  | 3 => some (.vmul h (vOf l x))
  | 4 => some (.vfma h (vOf l x))
  | 5 => some (.vfms h (vOf l x))
  | 6 => some (.vnfma h (vOf l x))
  | 7 => some (.vmin h (vOf l x))
  | 8 => some (.vmax h (vOf l x))
  | 9 => some (.vabs h (vOf l x))
  | 10 => some (.vneg h (vOf l x))
  | 11 => some (.vand h (vOf l x))
  | 12 => some (.vor h (vOf l x))
  | 13 => some (.vxor h (vOf l x))
  | 14 => some (.vshl h (vOf l x))
  | 15 => some (.vshr h (vOf l x))
  | 16 => some (.vsra h (vOf l x))
  | 17 => some (.vcmp h (vOf l x))
  | 18 => some (.vsel h (vOf l x))
  | 19 => some (.vsplat h (vOf l x))
  | 20 => some (.vbcast h (vOf l x))
  | 21 => some (.vperm h (vOf l x))
  | 22 => some (.vshuf h (vOf l x))
  | 23 => some (.vrot h (vOf l x))
  | 24 => some (.vext h (vOf l x))
  | 25 => some (.vins h (vOf l x))
  | 26 => some (.vmov h (vOf l x))
  | 27 => some (.vredsum h (vOf l x))
  | 28 => some (.vredmax h (vOf l x))
  | 29 => some (.vredmin h (vOf l x))
  | 30 => some (.vscan h (vOf l x))
  | 31 => some (.vexp2 h (vOf l x))
  | 32 => some (.vlog2 h (vOf l x))
  | 33 => some (.vrcp h (vOf l x))
  | 34 => some (.vrsqrt h (vOf l x))
  | 35 => some (.vsqrt h (vOf l x))
  | 36 => some (.vclz h (vOf l x))
  | 37 => some (.vpop h (vOf l x))
  | 38 => some (.vcvt h (vOf l x))
  | 39 => some (.vmaxe h (vOf l x))
  | 40 => some (.vqcvt h (vOf l x))
  | 41 => some (.vpack h (vOf l x))
  | 42 => some (.vunpack h (vOf l x))
  | _ => none

/-- The M slot's opcode map (R46). -/
def mapM (opc : Nat) (h : Hdr) (l : BitVec 20) (x : BitVec 32) : Option Instr :=
  match opc with
  | 0 => some (.nopM h (krOf l x))
  | 1 => some (.mset h (krOf l x))
  | 2 => some (.mget h (krOf l x))
  | 3 => some (.mcall h (kcOf l x))
  | 4 => some (.mzero h (kcOf l x))
  | 5 => some (.mrd h (krOf l x))
  | 6 => some (.mwr h (krOf l x))
  | 7 => some (.mwait h (krOf l x))
  | 8 => some (.mprov h (krOf l x))
  | 9 => some (.mpgm h (kcOf l x))
  | _ => none

/-- The X slot's opcode map (R46). -/
def mapX (opc : Nat) (h : Hdr) (l : BitVec 20) (x : BitVec 32) : Option Instr :=
  match opc with
  | 0 => some (.nopX h (qOf l x))
  | 1 => some (.xdim h (qOf l x))
  | 2 => some (.xcopy h (qOf l x))
  | 3 => some (.xgather h (qOf l x))
  | 4 => some (.xscatter h (qOf l x))
  | 5 => some (.xfill h (qOf l x))
  | 6 => some (.xwait h (qOf l x))
  | 16 => some (.tmove h (qOf l x))
  | 17 => some (.tstat h (qOf l x))
  | 18 => some (.tsweep h (qOf l x))
  | 19 =>
    let o := qOf l x
    if decide (o.x.toNat / 128 % 2 = 0) then some (.tunmark h o) else some (.tunmarkF h o)
  | 32 => some (.lsend h (qOf l x))
  | 33 => some (.lrecv h (qOf l x))
  | 34 => some (.lred h (qOf l x))
  | 35 => some (.ltime h (qOf l x))
  | _ => none

/-- The N slot's opcode map (R46). -/
def mapN (opc : Nat) (h : Hdr) (l : BitVec 20) (x : BitVec 32) : Option Instr :=
  match opc with
  | 0 => some (.nopN h (nOf l x))
  | 1 => some (.nclr h (nOf l x))
  | 2 =>
    let o := nOf l x
    if (o.sub == 1) then some (.nmergeP h o) else some (.nmerge h o)
  | 3 =>
    let o := nOf l x
    if (o.sub == 1) then some (.nsortI h o) else some (.nsort h o)
  | 4 =>
    let o := nOf l x
    if (o.sub == 1) then some (.ntopK h o) else if (o.sub == 2) then some (.ntopV h o) else some (.ntop h o)
  | 5 => some (.nkth h (nOf l x))
  | 6 => some (.nmass h (nOf l x))
  | 7 =>
    let o := nOf l x
    if (o.sub == 1) then some (.nhistM h o) else if (o.sub == 2) then some (.nhistSet h o) else if (o.sub == 3) then some (.nhistRd h o) else some (.nhist h o)
  | 8 =>
    let o := nOf l x
    if (o.sub == 1) then some (.nthrP h o) else some (.nthr h o)
  | 9 =>
    let o := nOf l x
    if (o.sub == 1) then some (.nrngX h o) else some (.nrng h o)
  | 10 =>
    let o := nOf l x
    if (o.sub == 1) then some (.nsampleShard h o) else some (.nsampleTok h o)
  | 11 => some (.nsave h (nOf l x))
  | _ => none

/-- The map of a slot. -/
def mapOf (sl : Slot) (opc : Nat) (h : Hdr) (l : BitVec 20) (x : BitVec 32) : Option Instr :=
  match sl with
  | .c => mapC opc h l x
  | .s => mapS opc h l x
  | .l => mapL opc h l x
  | .v => mapV opc h l x
  | .m => mapM opc h l x
  | .x => mapX opc h l x
  | .n => mapN opc h l x

/-- One operation: its OPC, then its reserved and must-be-zero fields (R41 step 3). `x` is the
extension word, 0 in the short form. -/
def decodeOp (sl : Slot) (w0 x : BitVec 32) : Decoded :=
  let x := if bit w0 31 then x else 0
  match mapOf sl (bits w0 25 6).toNat (hdrOf sl w0 x) (bits w0 0 20) x with
  | none => .illegalOpcode
  | some i => if i.wf then .ok i else .illegalEncoding

/-- The encoding of a slot operation: its slot, OPC, header, low 20 bits and extension word. -/
def Instr.parts : Instr → Option (Slot × BitVec 6 × Hdr × BitVec 20 × BitVec 32)
  | .uopNop _ => none
  | .uopStep _ => none
  | .uopAdva _ => none
  | .uopAdvb _ => none
  | .uopLoopu _ => none
  | .uopAcc _ => none
  | .uopClr _ => none
  | .uopDrn _ => none
  | .uopProv _ => none
  | .uopWin _ => none
  | .uopBpip _ => none
  | .uopTrn _ => none
  | .uopScl _ => none
  | .uopArr _ => none
  | .uopEnd _ => none
  | .emptyBundle _ _ _ => none
  | .issueGroup => none
  | .bPrecedence => none
  | .dataArrival => none
  | .freezeEnd => none
  | .larderRelease => none
  | .outboundDepart => none
  | .homeAccess => none
  | .fabricRequest => none
  | .pageFault => none
  | .markChain => none
  | .fetchFault => none
  | .icacheFill => none
  | .fbdMarkDone => none
  | .trapEntry => none
  | .fatalTrap => none
  | .fuseJoin => none
  | .switchOut => none
  | .switchIn => none
  | .watchdogOverrun => none
  | .watchdog => none
  | .budgetExceeded => none
  | .debugStop => none
  | .debugResume => none
  | .traceSample => none
  | .tscWrite => none
  | .superstepComplete => none
  | .routineStart => none
  | .routineRetire => none
  | .routinePause => none
  | .arrayModeChange => none
  | .packInstall => none
  | .copyStart => none
  | .copyRetire => none
  | .copySuspend => none
  | .moveFreeze => none
  | .moveDrain => none
  | .moveCopy => none
  | .relocationRetire => none
  | .lsendDeparture => none
  | .flitArrival => none
  | .lredReduce => none
  | .lsendRetire => none
  | .start => none
  | .launch => none
  | .graph => none
  | .kill => none
  | .launchStart => none
  | .preload => none
  | .kernelRetire => none
  | .nodeKernel => none
  | .nodeCond => none
  | .nodeLoop => none
  | .nodeJoin => none
  | .powerUp => none
  | .go => none
  | .firmwareVerify => none
  | .ready => none
  | .swapFirmware => none
  | .installRoutine => none
  | .retireCluster => none
  | .drainChannel => none
  | .retrainPort => none
  | .reloadCalibration => none
  | .serviceActionComplete => none
  | .windowRegisterWrite => none
  | .attestationRequest => none
  | .attestationReport => none
  | .thermalWarning => none
  | .thermalCritical => none
  | .temperatureFalls => none
  | .acknowledgmentArrival => none
  | .remoteInvalidation => none
  | .nop h o => some (.c, 0, h, o.low, o.imm32)
  | .br h o => some (.c, 1, h, o.disp, o.imm32)
  | .bri h o => some (.c, 2, h, o.low, o.imm32)
  | .call h o => some (.c, 3, h, o.disp, o.imm32)
  | .calli h o => some (.c, 4, h, o.low, o.imm32)
  | .ret h o => some (.c, 5, h, o.low, o.imm32)
  | .loop h o => some (.c, 6, h, o.low, o.imm32)
  | .loopv h o => some (.c, 7, h, o.low, o.imm32)
  | .brk h o => some (.c, 8, h, o.low, o.imm32)
  | .next h o => some (.c, 9, h, o.low, o.imm32)
  | .lidx h o => some (.c, 10, h, o.low, o.imm32)
  | .lidxC h o => some (.c, 10, h, o.low, o.imm32)
  | .mark h o => some (.c, 11, h, o.low, o.imm32)
  | .ppt h o => some (.c, 12, h, o.low, o.imm32)
  | .halt h o => some (.c, 13, h, o.low, o.imm32)
  | .fuse2 h o => some (.c, 14, h, o.low, o.imm32)
  | .fuse4 h o => some (.c, 14, h, o.low, o.imm32)
  | .decouple h o => some (.c, 15, h, o.low, o.imm32)
  | .rejoin2 h o => some (.c, 16, h, o.low, o.imm32)
  | .rejoin4 h o => some (.c, 16, h, o.low, o.imm32)
  | .fmt h o => some (.c, 17, h, o.low, o.imm32)
  | .wset h o => some (.c, 18, h, o.low, o.imm32)
  | .wait h o => some (.c, 19, h, o.low, o.imm32)
  | .waitNb h o => some (.c, 19, h, o.low, o.imm32)
  | .arrive h o => some (.c, 20, h, o.low, o.imm32)
  | .bwait h o => some (.c, 21, h, o.low, o.imm32)
  | .bphase h o => some (.c, 22, h, o.low, o.imm32)
  | .bset h o => some (.c, 23, h, o.low, o.imm32)
  | .bsetS h o => some (.c, 23, h, o.low, o.imm32)
  | .sstep h o => some (.c, 24, h, o.low, o.imm32)
  | .spawn h o => some (.c, 25, h, o.low, o.imm32)
  | .ilock h o => some (.c, 26, h, o.low, o.imm32)
  | .iunlock h o => some (.c, 27, h, o.low, o.imm32)
  | .pfn h o => some (.c, 28, h, o.disp, o.imm32)
  | .gres h o => some (.c, 29, h, o.low, o.imm32)
  | .gresAll h o => some (.c, 29, h, o.low, o.imm32)
  | .gcol h o => some (.c, 30, h, o.low, o.imm32)
  | .gcolT h o => some (.c, 30, h, o.low, o.imm32)
  | .gcolF h o => some (.c, 30, h, o.low, o.imm32)
  | .cgo2 h o => some (.c, 40, h, o.low, o.imm32)
  | .cgo4 h o => some (.c, 40, h, o.low, o.imm32)
  | .cguess h o => some (.c, 41, h, o.disp, o.imm32)
  | .cchk h o => some (.c, 42, h, o.low, o.imm32)
  | .cend h o => some (.c, 43, h, o.disp, o.imm32)
  | .trap h o => some (.c, 48, h, o.low, o.imm32)
  | .sret h o => some (.c, 49, h, o.low, o.imm32)
  | .csrr h o => some (.c, 50, h, o.low, o.imm32)
  | .csrw h o => some (.c, 51, h, o.low, o.imm32)
  | .dstop h o => some (.c, 52, h, o.low, o.imm32)
  | .invqC h o => some (.c, 53, h, o.low, o.imm32)
  | .invqE h o => some (.c, 53, h, o.low, o.imm32)
  | .invqN h o => some (.c, 53, h, o.low, o.imm32)
  | .nopS h o => some (.s, 0, h, o.low, (arrWord h o.ex))
  | .add h o => some (.s, 1, h, o.low, (arrWord h o.ex))
  | .sub h o => some (.s, 2, h, o.low, (arrWord h o.ex))
  | .mul h o => some (.s, 3, h, o.low, (arrWord h o.ex))
  | .mulh h o => some (.s, 4, h, o.low, (arrWord h o.ex))
  | .mulhu h o => some (.s, 5, h, o.low, (arrWord h o.ex))
  | .div h o => some (.s, 6, h, o.low, (arrWord h o.ex))
  | .divu h o => some (.s, 7, h, o.low, (arrWord h o.ex))
  | .rem h o => some (.s, 8, h, o.low, (arrWord h o.ex))
  | .remu h o => some (.s, 9, h, o.low, (arrWord h o.ex))
  | .and h o => some (.s, 10, h, o.low, (arrWord h o.ex))
  | .or h o => some (.s, 11, h, o.low, (arrWord h o.ex))
  | .xor h o => some (.s, 12, h, o.low, (arrWord h o.ex))
  | .andn h o => some (.s, 13, h, o.low, (arrWord h o.ex))
  | .shl h o => some (.s, 14, h, o.low, (arrWord h o.ex))
  | .shr h o => some (.s, 15, h, o.low, (arrWord h o.ex))
  | .sra h o => some (.s, 16, h, o.low, (arrWord h o.ex))
  | .rotl h o => some (.s, 17, h, o.low, (arrWord h o.ex))
  | .clz h o => some (.s, 18, h, o.low, (arrWord h o.ex))
  | .ctz h o => some (.s, 19, h, o.low, (arrWord h o.ex))
  | .pop h o => some (.s, 20, h, o.low, (arrWord h o.ex))
  | .ffs h o => some (.s, 21, h, o.low, (arrWord h o.ex))
  | .min h o => some (.s, 22, h, o.low, (arrWord h o.ex))
  | .minu h o => some (.s, 23, h, o.low, (arrWord h o.ex))
  | .max h o => some (.s, 24, h, o.low, (arrWord h o.ex))
  | .maxu h o => some (.s, 25, h, o.low, (arrWord h o.ex))
  | .sel h o => some (.s, 26, h, o.low, (arrWord h o.ex))
  | .seq h o => some (.s, 27, h, o.low, (arrWord h o.ex))
  | .sne h o => some (.s, 28, h, o.low, (arrWord h o.ex))
  | .slt h o => some (.s, 29, h, o.low, (arrWord h o.ex))
  | .sltu h o => some (.s, 30, h, o.low, (arrWord h o.ex))
  | .sext h o => some (.s, 31, h, o.low, (arrWord h o.ex))
  | .zext h o => some (.s, 32, h, o.low, (arrWord h o.ex))
  | .bfx h o => some (.s, 33, h, o.low, o.imm32)
  | .bfi h o => some (.s, 34, h, o.low, o.imm32)
  | .lea h o => some (.s, 35, h, o.low, o.imm32)
  | .mov h o => some (.s, 36, h, o.low, (arrWord h o.ex))
  | .amovAS h o => some (.s, 37, h, o.low, (arrWord h o.ex))
  | .amovSA h o => some (.s, 37, h, o.low, (arrWord h o.ex))
  | .amovAA h o => some (.s, 37, h, o.low, (arrWord h o.ex))
  | .li h o => some (.s, 38, h, o.low, o.imm32)
  | .lih h o => some (.s, 39, h, o.low, o.imm32)
  | .gcmp h o => some (.s, 40, h, o.low, (arrWord h o.ex))
  | .gcmpLe h o => some (.s, 41, h, o.low, (arrWord h o.ex))
  | .gand h o => some (.s, 42, h, o.low, (arrWord h o.ex))
  | .gor h o => some (.s, 43, h, o.low, (arrWord h o.ex))
  | .gnot h o => some (.s, 44, h, o.low, (arrWord h o.ex))
  | .addImm h o => some (.s, 48, h, o.low, o.imm32)
  | .andImm h o => some (.s, 49, h, o.low, o.imm32)
  | .orImm h o => some (.s, 50, h, o.low, o.imm32)
  | .xorImm h o => some (.s, 51, h, o.low, o.imm32)
  | .shlImm h o => some (.s, 52, h, o.low, o.imm32)
  | .shrImm h o => some (.s, 53, h, o.low, o.imm32)
  | .sraImm h o => some (.s, 54, h, o.low, o.imm32)
  | .rotlImm h o => some (.s, 55, h, o.low, o.imm32)
  | .mulImm h o => some (.s, 56, h, o.low, o.imm32)
  | .minImm h o => some (.s, 57, h, o.low, o.imm32)
  | .maxImm h o => some (.s, 58, h, o.low, o.imm32)
  | .sltImm h o => some (.s, 59, h, o.low, o.imm32)
  | .sltuImm h o => some (.s, 60, h, o.low, o.imm32)
  | .seqImm h o => some (.s, 61, h, o.low, o.imm32)
  | .sneImm h o => some (.s, 62, h, o.low, o.imm32)
  | .nopL h o => some (.l, 0, h, o.low, (arrWord h o.ex))
  | .ld h o => some (.l, 1, h, o.low, (arrWord h o.ex))
  | .ldu h o => some (.l, 2, h, o.low, (arrWord h o.ex))
  | .st h o => some (.l, 3, h, o.low, (arrWord h o.ex))
  | .vld h o => some (.l, 4, h, o.low, (arrWord h o.ex))
  | .vst h o => some (.l, 5, h, o.low, (arrWord h o.ex))
  | .ldt h o => some (.l, 6, h, o.low, (arrWord h o.ex))
  | .vldt h o => some (.l, 7, h, o.low, (arrWord h o.ex))
  | .aadd h o => some (.l, 16, h, o.low, (arrWord h o.ex))
  | .aand h o => some (.l, 17, h, o.low, (arrWord h o.ex))
  | .aor h o => some (.l, 18, h, o.low, (arrWord h o.ex))
  | .axor h o => some (.l, 19, h, o.low, (arrWord h o.ex))
  | .amin h o => some (.l, 20, h, o.low, (arrWord h o.ex))
  | .amax h o => some (.l, 21, h, o.low, (arrWord h o.ex))
  | .aminu h o => some (.l, 22, h, o.low, (arrWord h o.ex))
  | .amaxu h o => some (.l, 23, h, o.low, (arrWord h o.ex))
  | .afadd h o => some (.l, 24, h, o.low, (arrWord h o.ex))
  | .axchg h o => some (.l, 25, h, o.low, (arrWord h o.ex))
  | .acas h o => some (.l, 26, h, o.low, (arrWord h o.ex))
  | .fence h o => some (.l, 48, h, o.lowBits, (arrWord h o.x))
  | .drain h o => some (.l, 49, h, o.lowBits, (arrWord h o.x))
  | .tchase h o => some (.l, 50, h, o.low, (arrWord h o.ex))
  | .nopV h o => some (.v, 0, h, o.low, (arrWord h o.ex))
  | .vadd h o => some (.v, 1, h, o.low, (arrWord h o.ex))
  | .vsub h o => some (.v, 2, h, o.low, (arrWord h o.ex))
  | .vmul h o => some (.v, 3, h, o.low, (arrWord h o.ex))
  | .vfma h o => some (.v, 4, h, o.low, (arrWord h o.ex))
  | .vfms h o => some (.v, 5, h, o.low, (arrWord h o.ex))
  | .vnfma h o => some (.v, 6, h, o.low, (arrWord h o.ex))
  | .vmin h o => some (.v, 7, h, o.low, (arrWord h o.ex))
  | .vmax h o => some (.v, 8, h, o.low, (arrWord h o.ex))
  | .vabs h o => some (.v, 9, h, o.low, (arrWord h o.ex))
  | .vneg h o => some (.v, 10, h, o.low, (arrWord h o.ex))
  | .vand h o => some (.v, 11, h, o.low, (arrWord h o.ex))
  | .vor h o => some (.v, 12, h, o.low, (arrWord h o.ex))
  | .vxor h o => some (.v, 13, h, o.low, (arrWord h o.ex))
  | .vshl h o => some (.v, 14, h, o.low, (arrWord h o.ex))
  | .vshr h o => some (.v, 15, h, o.low, (arrWord h o.ex))
  | .vsra h o => some (.v, 16, h, o.low, (arrWord h o.ex))
  | .vcmp h o => some (.v, 17, h, o.low, (arrWord h o.ex))
  | .vsel h o => some (.v, 18, h, o.low, (arrWord h o.ex))
  | .vsplat h o => some (.v, 19, h, o.low, (arrWord h o.ex))
  | .vbcast h o => some (.v, 20, h, o.low, (arrWord h o.ex))
  | .vperm h o => some (.v, 21, h, o.low, (arrWord h o.ex))
  | .vshuf h o => some (.v, 22, h, o.low, (arrWord h o.ex))
  | .vrot h o => some (.v, 23, h, o.low, (arrWord h o.ex))
  | .vext h o => some (.v, 24, h, o.low, (arrWord h o.ex))
  | .vins h o => some (.v, 25, h, o.low, (arrWord h o.ex))
  | .vmov h o => some (.v, 26, h, o.low, (arrWord h o.ex))
  | .vredsum h o => some (.v, 27, h, o.low, (arrWord h o.ex))
  | .vredmax h o => some (.v, 28, h, o.low, (arrWord h o.ex))
  | .vredmin h o => some (.v, 29, h, o.low, (arrWord h o.ex))
  | .vscan h o => some (.v, 30, h, o.low, (arrWord h o.ex))
  | .vexp2 h o => some (.v, 31, h, o.low, (arrWord h o.ex))
  | .vlog2 h o => some (.v, 32, h, o.low, (arrWord h o.ex))
  | .vrcp h o => some (.v, 33, h, o.low, (arrWord h o.ex))
  | .vrsqrt h o => some (.v, 34, h, o.low, (arrWord h o.ex))
  | .vsqrt h o => some (.v, 35, h, o.low, (arrWord h o.ex))
  | .vclz h o => some (.v, 36, h, o.low, (arrWord h o.ex))
  | .vpop h o => some (.v, 37, h, o.low, (arrWord h o.ex))
  | .vcvt h o => some (.v, 38, h, o.low, (arrWord h o.ex))
  | .vmaxe h o => some (.v, 39, h, o.low, (arrWord h o.ex))
  | .vqcvt h o => some (.v, 40, h, o.low, (arrWord h o.ex))
  | .vpack h o => some (.v, 41, h, o.low, (arrWord h o.ex))
  | .vunpack h o => some (.v, 42, h, o.low, (arrWord h o.ex))
  | .nopM h o => some (.m, 0, h, o.low, (arrWord h o.x))
  | .mset h o => some (.m, 1, h, o.low, (arrWord h o.x))
  | .mget h o => some (.m, 2, h, o.low, (arrWord h o.x))
  | .mcall h o => some (.m, 3, h, o.low, (arrWord h o.x))
  | .mzero h o => some (.m, 4, h, o.low, (arrWord h o.x))
  | .mrd h o => some (.m, 5, h, o.low, (arrWord h o.x))
  | .mwr h o => some (.m, 6, h, o.low, (arrWord h o.x))
  | .mwait h o => some (.m, 7, h, o.low, (arrWord h o.x))
  | .mprov h o => some (.m, 8, h, o.low, (arrWord h o.x))
  | .mpgm h o => some (.m, 9, h, o.low, (arrWord h o.x))
  | .nopX h o => some (.x, 0, h, o.low, (arrWord h o.ex))
  | .xdim h o => some (.x, 1, h, o.low, (arrWord h o.ex))
  | .xcopy h o => some (.x, 2, h, o.low, (arrWord h o.ex))
  | .xgather h o => some (.x, 3, h, o.low, (arrWord h o.ex))
  | .xscatter h o => some (.x, 4, h, o.low, (arrWord h o.ex))
  | .xfill h o => some (.x, 5, h, o.low, (arrWord h o.ex))
  | .xwait h o => some (.x, 6, h, o.low, (arrWord h o.ex))
  | .tmove h o => some (.x, 16, h, o.low, (arrWord h o.ex))
  | .tstat h o => some (.x, 17, h, o.low, (arrWord h o.ex))
  | .tsweep h o => some (.x, 18, h, o.low, (arrWord h o.ex))
  | .tunmark h o => some (.x, 19, h, o.low, (arrWord h o.ex))
  | .tunmarkF h o => some (.x, 19, h, o.low, (arrWord h o.ex))
  | .lsend h o => some (.x, 32, h, o.low, (arrWord h o.ex))
  | .lrecv h o => some (.x, 33, h, o.low, (arrWord h o.ex))
  | .lred h o => some (.x, 34, h, o.low, (arrWord h o.ex))
  | .ltime h o => some (.x, 35, h, o.low, (arrWord h o.ex))
  | .nopN h o => some (.n, 0, h, o.low, (arrWord h o.x))
  | .nclr h o => some (.n, 1, h, o.low, (arrWord h o.x))
  | .nmerge h o => some (.n, 2, h, o.low, (arrWord h o.x))
  | .nmergeP h o => some (.n, 2, h, o.low, (arrWord h o.x))
  | .nsort h o => some (.n, 3, h, o.low, (arrWord h o.x))
  | .nsortI h o => some (.n, 3, h, o.low, (arrWord h o.x))
  | .ntop h o => some (.n, 4, h, o.low, (arrWord h o.x))
  | .ntopK h o => some (.n, 4, h, o.low, (arrWord h o.x))
  | .ntopV h o => some (.n, 4, h, o.low, (arrWord h o.x))
  | .nkth h o => some (.n, 5, h, o.low, (arrWord h o.x))
  | .nmass h o => some (.n, 6, h, o.low, (arrWord h o.x))
  | .nhist h o => some (.n, 7, h, o.low, (arrWord h o.x))
  | .nhistM h o => some (.n, 7, h, o.low, (arrWord h o.x))
  | .nhistSet h o => some (.n, 7, h, o.low, (arrWord h o.x))
  | .nhistRd h o => some (.n, 7, h, o.low, (arrWord h o.x))
  | .nthr h o => some (.n, 8, h, o.low, (arrWord h o.x))
  | .nthrP h o => some (.n, 8, h, o.low, (arrWord h o.x))
  | .nrng h o => some (.n, 9, h, o.low, (arrWord h o.x))
  | .nrngX h o => some (.n, 9, h, o.low, (arrWord h o.x))
  | .nsampleTok h o => some (.n, 10, h, o.low, (arrWord h o.x))
  | .nsampleShard h o => some (.n, 10, h, o.low, (arrWord h o.x))
  | .nsave h o => some (.n, 11, h, o.low, (arrWord h o.x))

/-- The first word of an operation (R28). -/
def firstWord (opc : BitVec 6) (h : Hdr) (l : BitVec 20) : BitVec 32 :=
  bbit h.ext ++ opc ++ h.g ++ bbit h.gs ++ l

/-- The encoder: a slot operation's slot, its first word and its extension word when it has one. -/
def encode (i : Instr) : Option (Slot × BitVec 32 × Option (BitVec 32)) :=
  match i.parts with
  | none => none
  | some (sl, opc, h, l, x) => some (sl, firstWord opc h l, if h.ext then some x else none)

/-- The slot and the header fields of a slot operation. -/
def Instr.slot? (i : Instr) : Option Slot := i.parts.map (fun p => p.1)
def Instr.hdr? (i : Instr) : Option Hdr := i.parts.map (fun p => p.2.2.1)

/-- The bundle header (R24). -/
structure BHdr where
  hk   : BitVec 2 := 0
  stop : Bool := false
  rep  : BitVec 3 := 0
  hint : BitVec 2 := 0
  p    : BitVec 8 := 0
  deriving DecidableEq, Repr, Inhabited

def bhdrOf (w : BitVec 16) : BHdr :=
  { hk := bits w 14 2, stop := bit w 13, rep := bits w 10 3, hint := bits w 8 2, p := bits w 0 8 }

def BHdr.word (b : BHdr) : BitVec 16 := b.hk ++ bbit b.stop ++ b.rep ++ b.hint ++ b.p

/-- The slots in encoding order, as numbers 0 C to 7 N (R11, R344), with their opcode maps. -/
def slotList : List (Nat × Slot) :=
  [(0, .c), (1, .s), (2, .l), (3, .v), (4, .v), (5, .m), (6, .x), (7, .n)]

/-- The presence bit of slot number `k` (R24: bit 7 C ... bit 0 N). -/
def present (p : BitVec 8) (k : Nat) : Bool := bit p (7 - k)

/-- Little-endian value of bytes (R1). -/
def leBytes : List Byte → Nat
  | [] => 0
  | b :: bs => b.toNat + 256 * leBytes bs

/-- `n` bytes of a value, lowest first (R1). -/
def toBytes (v : Nat) : Nat → List Byte
  | 0 => []
  | n + 1 => BitVec.ofNat 8 v :: toBytes (v / 256) n

/-- The four bytes at the head of a list as a word. -/
def word32 (bs : List Byte) : BitVec 32 := BitVec.ofNat 32 (leBytes (bs.take 4))

/-- The halfword at the head. -/
def word16 (bs : List Byte) : BitVec 16 := BitVec.ofNat 16 (leBytes (bs.take 2))

/-- One operation of a bundle as it stands in memory: member, slot number, words, and its decoding. -/
structure RawOp where
  member : Nat := 0
  slot   : Nat := 0
  w0     : BitVec 32 := 0
  x      : BitVec 32 := 0
  dec    : Decoded := .illegalOpcode
  deriving DecidableEq, Repr

/-- The operations named by one presence byte, in slot order (R26). -/
def rawOps (member : Nat) (p : BitVec 8) : List (Nat × Slot) → List Byte → List RawOp × List Byte
  | [], bs => ([], bs)
  | (k, sl) :: ks, bs =>
    if present p k then
      let w0 := word32 bs
      let x := if bit w0 31 then word32 (bs.drop 4) else 0
      let r := rawOps member p ks (bs.drop (if bit w0 31 then 8 else 4))
      ({ member := member, slot := k, w0 := w0, x := x, dec := decodeOp sl w0 x } :: r.1, r.2)
    else rawOps member p ks bs

/-- The operations of each member in turn (R25). -/
def rawMembers : Nat → List (BitVec 8) → List Byte → List RawOp × List Byte
  | _, [], bs => ([], bs)
  | k, p :: ps, bs =>
    let r := rawOps k p slotList bs
    let q := rawMembers (k + 1) ps r.2
    (r.1 ++ q.1, q.2)

/-- The presence bytes of a bundle: P, and for a wide bundle 1 or 3 more, by the fusion width
(R25). -/
def presences (b : BHdr) (width : Nat) (bs : List Byte) : List (BitVec 8) :=
  if b.hk == 1 then b.p :: (bs.take (width - 1)).map (fun v => v.setWidth 8) else [b.p]

/-- A bundle as assembled: header, presence bytes, the pad byte of a wide bundle, its operations,
and its length in bytes (R24 to R26). -/
structure RawBundle where
  hdr  : BHdr := {}
  ps   : List (BitVec 8) := []
  pad  : Byte := 0
  ops  : List RawOp := []
  len  : Nat := 2
  deriving DecidableEq, Repr

/-- The bytes the presence bytes and pad of a wide bundle take: 2 for a pair, 4 for a quad. -/
def wideBytes (b : BHdr) (width : Nat) : Nat := if b.hk == 1 then width else 0

/-- Assemble the bundle at the head of a list of bytes. A reserved HK leaves the length open: the bytes that its presence mask would have
in a bundle of HK 0 are the bundle's for R27's fetch faults. DESIGN CHOICE (log 58). -/
def bundleOf (width : Nat) (bs : List Byte) : RawBundle :=
  let b := bhdrOf (word16 bs)
  let rest := bs.drop 2
  let wb := wideBytes b width
  let ps := presences b width rest
  let body := rest.drop wb
  let r := rawMembers 0 ps body
  { hdr := b, ps := ps, pad := (rest.drop (wb - 1)).headD 0, ops := r.1, len := 2 + wb + (body.length - r.2.length) }

/-- The operations that `opcode_table.json` numbers by their first word carry no slot: the first slot
in the order of R11 whose map holds the word legally is taken. DESIGN CHOICE (log 4). -/
def firstSlot (w0 x : BitVec 32) : List (Nat × Slot) → Option (Nat × Instr)
  | [] => none
  | (k, sl) :: ks =>
    match decodeOp sl w0 x with
    | .ok i => some (k, i)
    | _ => firstSlot w0 x ks

/-- The slot number and the instruction read from a table word of 32 or more bits. -/
def tableOp (w : Nat) : Option (Nat × Instr) :=
  firstSlot (BitVec.ofNat 32 w) (BitVec.ofNat 32 (w / 2 ^ 32)) slotList

/-- The instruction the decoder reads from a table row's bits: 16 bits are a bundle header with no
operation (R26), 32 or 64 bits one operation. -/
def decodeTableWord (nbits w : Nat) : Option Instr :=
  if nbits ≤ 16 then
    let b := bhdrOf (BitVec.ofNat 16 w)
    if b.hk == 0 && b.p == 0 then some (.emptyBundle b.stop b.rep b.hint) else none
  else (tableOp w).map (fun r => r.2)

end Sys2Proof
end

