-- ==== Sys2Proof/Machine/State.lean ====
section
/-! DEFINITION. The state of the module as plain data: every context, core, array, cluster and wing,
memory, the command processor, what travels between them, and the model's own bookkeeping.
INVENTORY.md lists each piece with the rule that names it. -/

namespace Sys2Proof.Machine

/-! ### Reasons to stop -/

/-- Why the model stops with a fault. Every trap of R342 is a next state, not one of these. -/
inductive Fault where
  /-- Raised by `HOME_ACCESS` for an access through a KIND 4 entry to device memory above 1.5 TiB. R136 refuses such an
  entry at a launch, and the spec says nothing of one that a reload brings in. Safe: the spec gives such an access no
  effect. -/
  | noSuchHome (addr : Nat)
  deriving DecidableEq, Repr

/-- Why the model refuses an instruction. -/
inductive Refusal where
  /-- An instruction that has no meaning yet, by its mnemonic. Safe: nothing is claimed of it. -/
  | notModelled (mnemonic : String)
  deriving DecidableEq, Repr

/-! ### Small data -/

/-- A total map in sparse form: keys rising, absent keys at the map's default. -/
abbrev TMap (α : Type) := List (Nat × α)

/-- The trap codes of R342. -/
inductive TrapCode where
  | none | illegalEncoding | illegalOpcode | privilege | divZero | poison | userTrap
  | untranslated | noExecute | fetchAlign | misaligned | untimedPlace | noWrite | noMark | loopDepth
  | fuseState | notSpeculable | carryFull | noRoutine | matrixArgs | accRange | microcode | copyArgs
  | wakePlace | barrierArgs | moveArgs | remoteError | linkArgs | watchdog | killed
  | pageFault | markChain
  deriving DecidableEq, Repr

/-- A trap, page fault or `MARK_CHAIN` as raised: the fields of the frame that the raiser knows (R344),
`wr` for the fault buffer's WR (R351) and `forceFatal` where a rule makes a code fatal (R353). -/
structure TrapRec where
  code       : TrapCode := .none
  slot       : Nat := 0
  deferred   : Bool := false
  ba         : Nat := 0
  ra         : Nat := 0
  info0      : Word := 0
  info1      : Word := 0
  scy        : Word := 0
  wr         : Bool := false
  forceFatal : Bool := false
  deriving DecidableEq, Repr

/-- A literal over an open guard, named by the guard's identity (R113, R118). -/
structure Lit where
  id  : Nat
  pos : Bool
  deriving DecidableEq, Repr

/-- A conjunction of literals; the empty tag is true (R118). -/
abbrev Tag := List Lit

/-- A register value with its poison and its fault mark (R52, R131). -/
structure Val (w p : Nat) where
  v : BitVec w := 0
  p : BitVec p := 0
  f : Option TrapRec := none
  deriving DecidableEq, Repr

/-- A scalar or address value: one poison bit. A vector value: one poison bit for each 32-bit word. -/
abbrev SVal := Val 64 1
abbrev VVal := Val 1024 32

/-- One alternative (R118). `ref` names the access whose data has not arrived; `gen` is the write the
value comes from, post-steps apart (R86). -/
structure Alt (w p : Nat) where
  tag : Tag := []
  val : Val w p := {}
  ref : Option Nat := none
  gen : Nat := 0
  deriving DecidableEq, Repr

/-- A result on its way to a register (R34): visible at count `due`, the later `seq` standing (R34), not
before the core's unfrozen cycle `rdy` (R133) and after cycle `at'` of its data's arrival (R143), under the
literals `under` (R119). `late` marks an overdue landing (R116). `lock` marks a divide (R82). With
`chase`, it is the conditional add of R86: to alternatives of that generation compatible with the tag. -/
structure Pend (w p : Nat) where
  dst   : Nat
  due   : Nat
  seq   : Nat := 0
  rdy   : Nat := 0
  at'   : Nat := 0
  under : Tag := []
  alts  : List (Alt w p) := []
  lock  : Bool := false
  late  : Bool := false
  chase : Option (Nat × Tag × BitVec w) := none
  deriving DecidableEq, Repr

/-- The registers of one kind: their values with alternatives, and the pending results. -/
structure RegFile (w p : Nat) where
  base : TMap (List (Alt w p)) := []
  pend : List (Pend w p) := []
  deriving DecidableEq, Repr

/-- A pending write of a plain register, visible at `due`. -/
structure Later (α : Type) where
  dst : Nat := 0
  due : Nat
  val : α
  rdy : Nat := 0
  deriving DecidableEq, Repr

/-- A guard register: resolved, or open under an identity (R112). -/
inductive GVal where
  | res (b : Bool)
  | opn (id : Nat)
  deriving DecidableEq, Repr

/-- The conditions of `gcmp` (R114). -/
inductive Cond where
  | eq | ne | lt | ltu | le | leu
  deriving DecidableEq, Repr

/-- A source of a `gcmp`: known, or the data of an access that has not arrived (R116). -/
inductive GSrc where
  | known (v : Word)
  | ref (id : Nat)
  deriving DecidableEq, Repr

/-- What a guard is worth in one case: a bit, or a comparison that waits for data. -/
inductive GLeaf where
  | bit (b : Bool)
  | cmp (c : Cond) (x y : GSrc)
  deriving DecidableEq, Repr

/-- An open or predicted guard (R112, R115). `decided`: its value and the cycle in which it was decided
(R117). The list of open guards stands in order of age. `reg` 0 is the acceptance literal of a carry
round's member (R310). -/
structure OpenG where
  id      : Nat
  reg     : Nat
  hint    : Nat := 0
  pred    : Option Bool := none
  cases   : List (Tag × GLeaf) := []
  decided : Option (Bool × Nat) := none
  deriving DecidableEq, Repr

/-! ### Memory -/

/-- The bytes of every place of the module and of other nodes in one numbering of homes (log 19, DESIGN CHOICE), the
poisoned granules by their first byte, the marked lines of device memory by their first byte, and the pool
granules whose check bits show a correctable error (R149). -/
structure Mem where
  cells  : List Host.Cell := []
  poison : List Nat := []
  marks  : List Nat := []
  flips  : List Nat := []
  deriving DecidableEq, Repr

/-- A translation entry as its two words (R135). -/
structure TEntry where
  w0 : Word := 0
  w1 : Word := 0
  deriving DecidableEq, Repr

/-- The copies of a context's table (R17): the core's, and the engines' (array pipes, copy engines,
link engine), which only `invq.e` and `.n` reach (R356). -/
structure Tables where
  core : TMap TEntry := []
  eng  : TMap TEntry := []
  deriving DecidableEq, Repr

/-! ### Accesses under way -/

/-- What an access of the network does at its home. -/
inductive AccKind where
  | load | store | atomic | tchase | tstat | activation
  deriving DecidableEq, Repr

/-- Where the answer of an access goes. -/
inductive AccDst where
  | none
  | s (r : Nat) (signed : Bool)
  | v (r : Nat)
  | engine
  deriving DecidableEq, Repr

/-- The register that an access was based on, for R86: the address register, the tag of the alternative used and
the write its value comes from. -/
structure BaseRef where
  reg : Nat
  tag : Tag := []
  gen : Nat := 0
  deriving DecidableEq, Repr

/-- A constituent of a merged atomic that another request carries (R243): its name, its context, its arrival,
slot, bundle and base register. -/
structure Acc1 where
  id   : Nat
  n    : Nat
  rel  : Nat := 0
  arr  : Option Nat := none
  slot : Nat := 2
  ba   : Nat := 0
  base : Option BaseRef := none
  deriving DecidableEq, Repr

/-- One access on its way (R154 to R157): the context that issued it, its place in program order (`seq`) and by
release (`rel`, R156, R168), its effective address and the address it started from, the place (0 own, 1 peer, 2
another cluster, 3 device, 4 remote, 5 host), the home and the scratch offset there, the bytes a store carries and, where it is
held, their poison and fault mark (R129), an atomic's operation and operands, the class, where the answer goes, what completes with
it, the base register it came from (R86: register, alternative tag, generation) and what it waits for. -/
structure Acc where
  id     : Nat
  n      : Nat
  kind   : AccKind
  seq    : Nat := 0
  rel    : Nat := 0
  ea     : Nat := 0
  ea0    : Nat := 0
  place  : Nat := 0
  home   : Nat := 0
  off    : Nat := 0
  mv     : Bool := false
  size   : Nat := 0
  data   : List Byte := []
  bad    : List Bool := []
  mark   : Option TrapRec := none
  aop    : Nat := 0
  x      : Word := 0
  y      : Word := 0
  ret    : Bool := false
  mrg    : Bool := false
  cls    : Nat := 0
  dst    : AccDst := .none
  due    : Nat := 0
  arr    : Option Nat := none
  base   : Option BaseRef := none
  moved  : Word := 0
  hops   : Nat := 0
  slot   : Nat := 2
  ba     : Nat := 0
  scy    : Word := 0
  tag    : Tag := []
  merged : List Acc1 := []
  after  : List Nat := []
  deriving DecidableEq, Repr

/-- The answer of a performed access travelling to its core: bytes read, their poison, a page fault or chain
that a chase met (R152), and the cycle of its arrival: not before `at'`, and with `exact` in that cycle. -/
structure Resp where
  acc    : Acc
  bytes  : List Byte := []
  bad    : List Bool := []
  fault  : Option TrapRec := none
  at'    : Nat := 0
  exact  : Bool := false
  deriving DecidableEq, Repr

/-- One porch entry (R142): the access it holds a place for. It is free when its data has arrived and the
issuing context's count has reached `due`, or its request has been discarded: `tag` is the alternative it is for. -/
structure PorchE where
  id      : Nat
  n       : Nat
  due     : Nat
  arrived : Bool := false
  dead    : Bool := false
  overdue : Bool := false
  tag     : Tag := []
  deriving DecidableEq, Repr

/-- A write or atomic to be made at a scratchpad port at the end of this cycle (R145): its rank in the order
of R145 and the access. `bad` is the poison that an engine's bytes carry; `oor`: `SOOR` records it where it is out of range
(R147, R215). -/
structure PortW where
  rank : Nat
  acc  : Acc
  bad  : List Bool := []
  oor  : Bool := true
  deriving DecidableEq, Repr

/-! ### Commands of the engines -/

/-- A copy shape register (R227). -/
structure XShape where
  ext  : BitVec 32 := 0
  dstr : BitVec 48 := 0
  sstr : BitVec 48 := 0
  deriving DecidableEq, Repr

/-- Where the source of a started element lies: place, home, scratch offset and core. -/
structure SrcAt where
  place : Nat := 3
  home  : Nat := 0
  off   : Nat := 0
  core  : Nat := 0
  deriving DecidableEq, Repr

/-- An element of a copy command that has started and is not yet written (R166, R236): its number, where it goes, its source
while that has yet to be read (`src`), what it carries, and what a chase of its source and of its destination adds to
the register of the base once that access completes (`addS`, `addD`, R86, R235). For a sweep, `x` is the word read and `y` its replacement
(R296). -/
structure Flight where
  q     : Nat
  place : Nat := 3
  home  : Nat := 0
  off   : Nat := 0
  core  : Nat := 0
  src   : Option SrcAt := none
  bytes : List Byte := []
  bad   : List Bool := []
  x     : Word := 0
  y     : Word := 0
  addS  : Option Word := none
  addD  : Option Word := none
  deriving DecidableEq, Repr

/-- A command of a copy engine (R229, R230, R296): operation 2 `xcopy`, 3 `xgather`, 4 `xscatter`, 5 `xfill`,
6 `tsweep`; bases, fill value, dimensions, element size, the issuing bundle. `elemAt`: elements below it have
started; those of `flight` are yet to be written. `halted`: it starts no more. `index`: the index in use. `phase`: 0 queued, 1 running, 2 suspended on the fault `waitF`, 3 its status word waits for a place.
`baseD` and `baseS`: the registers of its unindexed bases (R235). A sweep keeps its code and count. `since`: the cycle in
which it took its queue entry; `away`: it has left its engine with its context, suspended (R237). -/
structure CopyCmd where
  id     : Nat
  n      : Nat
  op     : Nat
  eng    : Nat := 0
  dst    : Nat := 0
  src    : Nat := 0
  idx    : Nat := 0
  fill   : Word := 0
  dims   : List XShape := []
  elem   : Nat := 1
  len    : Nat := 0
  sw     : Option Nat := none
  arr    : Option Nat := none
  ba     : Nat := 0
  scy    : Word := 0
  elemAt : Nat := 0
  phase  : Nat := 0
  waitF  : Option Nat := none
  baseD  : Option BaseRef := none
  baseS  : Option BaseRef := none
  flight : List Flight := []
  halted : Bool := false
  index  : Option (Nat × Word) := none
  code   : Nat := 0
  count  : Nat := 0
  since  : Nat := 0
  after  : List Nat := []
  tag    : Tag := []
  away   : Bool := false
  deriving DecidableEq, Repr

/-- A relocation command (R285): operation 0 `tmove`, 1 `tunmark`, 2 `tunmark.f`, with its own copy of the table
(R284). `phase`: 0 queued or between tiles, 1 FREEZE, 2 DRAIN, 3 COPY, 4 MARK, 5 RELEASE, 6 finished, its status word still to
be written.
`stores`: the writes queued at the old home (R288). -/
structure RelocCmd where
  id     : Nat
  n      : Nat
  op     : Nat
  src    : Nat := 0
  dst    : Nat := 0
  len    : Nat := 0
  sw     : Option Nat := none
  arr    : Option Nat := none
  ba     : Nat := 0
  scy    : Word := 0
  table  : TMap TEntry := []
  phase  : Nat := 0
  tile   : Nat := 0
  srcH   : Nat := 0
  dstH   : Nat := 0
  stores : List Acc := []
  code   : Nat := 0
  waitF  : Option Nat := none
  since  : Nat := 0
  after  : List Nat := []
  tag    : Tag := []
  deriving DecidableEq, Repr

/-- A link command (R327): operation 0 `lsend`, 1 `lrecv`, 2 `lred`. `dueAt`: the issue count at which a receive
falls due, `timed`: it names a tick. `gone`: the send has departed, or the receive's flits are counted. `sent`: flits of
a send not yet written at the destination. -/
structure LinkCmd where
  id     : Nat
  n      : Nat
  op     : Nat
  dst    : Nat := 0
  src    : Nat := 0
  tick   : Word := 0
  slot   : Nat := 0
  flits  : Nat := 0
  fmt    : BitVec 32 := 0
  timed  : Bool := false
  dueAt  : Nat := 0
  arr    : Option Nat := none
  ba     : Nat := 0
  scy    : Word := 0
  gone   : Bool := false
  sent   : List Nat := []
  waitF  : Option Nat := none
  since  : Nat := 0
  after  : List Nat := []
  tag    : Tag := []
  deriving DecidableEq, Repr

/-- A routine (R206, R208, R224): 0 `mcall`, 1 `mzero`, 2 `mpgm`, with the parameters as issued, the
microwords it runs, and its state (R222): microword address, micro-loops (first word, iterations left), pointers,
tile, layouts, plane counts, and the place within a BPI block. `since`: the cycle of its issue; `ord`: its place in
the queue; `busy`: owned cycles until the next word; `winAt`: `WIN`; `ended`: `END` has run; `waitF`: paused; `away`: it has left its array with its context, paused (R213). -/
structure Routine where
  id     : Nat
  n      : Nat
  op     : Nat
  idx    : Nat := 0
  std    : Bool := false
  fi     : Bool := false
  fo     : Bool := false
  mp     : List Word := []
  fmt    : BitVec 32 := 0
  prog   : List Word := []
  pack   : Nat := 0
  arr    : Option Nat := none
  ba     : Nat := 0
  scy    : Word := 0
  since  : Nat := 0
  ord    : Nat := 0
  begun  : Bool := false
  ended  : Bool := false
  uw     : Nat := 0
  loops  : List (Nat × Nat) := []
  pa     : Nat := 0
  ra     : Nat := 0
  ora    : Nat := 0
  pb     : Nat := 0
  rb     : Nat := 0
  orb    : Nat := 0
  pd     : Nat := 0
  rd     : Nat := 0
  qa     : Nat := 0
  qb     : Nat := 0
  ps     : Nat := 0
  tb     : Nat := 0
  t      : Nat := 0
  kstep  : Nat := 0
  ka     : Nat := 0
  kb     : Nat := 0
  kmA    : Bool := false
  kmB    : Bool := false
  plA    : Nat := 8
  plB    : Nat := 8
  scA    : Bool := false
  scB    : Bool := false
  provOn : Bool := true
  prov   : Word := 0
  provK  : Nat × Nat × Nat × Nat := (0, 0, 0, 0)
  row    : Nat := 0
  drow   : Nat := 0
  busy   : Nat := 0
  winAt  : Nat := 0
  waitF  : Option Nat := none
  after  : List Nat := []
  tag    : Tag := []
  away   : Bool := false
  deriving DecidableEq, Repr

/-! ### The larder -/

/-- What a larder entry performs at its release (R127). An arrival keeps the count and the accesses that it waits for
(R139, R253). -/
inductive HeldOp where
  | store (a : Acc)
  | atomic (a : Acc)
  | arrive (b slot ba due : Nat) (refs : List Nat)
  | wset (w lo hi : Nat)
  | spawn (a : Acc)
  | copy (c : CopyCmd)
  | reloc (c : RelocCmd)
  | link (c : LinkCmd)
  | routine (r : Routine)
  | raise (t : TrapRec)
  deriving DecidableEq, Repr

/-- A larder entry (R127): its tag, its place in program order and its arrival. `trap` is raised instead of
the effect at its release (poisoned data, R151). `dead`: its tag
holds a contrary literal. `fired`: its trap has been raised, and the entry stays until `sret` (R347). -/
structure Held where
  id   : Nat
  tag  : Tag := []
  seq  : Nat := 0
  op   : HeldOp
  arr  : Option Nat := none
  trap : Option TrapRec := none
  dead : Bool := false
  fired : Bool := false
  deriving DecidableEq, Repr

/-! ### Sequencing -/

/-- One loop level (R93); `carry` for the level of a carry loop (R309); `began`: the bundles issued when its
current iteration began (R361). -/
structure Level where
  index : Word := 0
  count : Word := 0
  start : Nat := 0
  stop  : Nat := 0
  carry : Bool := false
  began : Nat := 0
  deriving DecidableEq, Repr

/-- An armed sticky slot: the operation as it will be re-issued (R38). -/
structure Sticky where
  slot : Nat
  i    : Instr
  k    : Nat := 0
  deriving DecidableEq, Repr

/-- A bundle of the group in progress: its address, its length in bytes, its header and operations, and
how many of its issues remain; `names`: where the names of its operations begin, once a bundle behind it has issued
(R98), so that names follow program order; `early`: it has taken its issue before a bundle that stands before it, and has its
effect behind that one (R98, R99). -/
structure GBundle where
  addr : Nat
  len  : Nat := 2
  hdr  : BHdr := {}
  ops  : List RawOp := []
  left : Nat := 1
  names : Option Nat := none
  early : Bool := false
  deriving DecidableEq, Repr

/-- A candidate of the cupboard (R261). -/
structure Cand where
  key : BitVec 32 := 0
  idx : BitVec 32 := 0
  bad : Bool := false
  deriving DecidableEq, Repr

/-- A floating-point event on its way to `FEL` (R73): visible at count `due`, its key, its kind and the
bundle's address, under the tag of its alternative. -/
structure FelP where
  due  : Nat
  key  : Nat × Nat × Nat
  kind : Nat
  ba   : Nat
  tag  : Tag := []
  deriving DecidableEq, Repr

/-- The part of a context that a restart mark copies (R104), with the results still due of the mark's own
bundle. -/
structure Regs where
  sa       : RegFile 64 1 := {}
  v        : RegFile 1024 32 := {}
  g        : TMap GVal := []
  gpend    : List (Later GVal) := []
  opens    : List OpenG := []
  gwatch   : List (Nat × Tag × TrapRec) := []
  gtraps   : List (Tag × TrapRec) := []
  mp       : TMap Word := []
  mpPend   : List (Later Word) := []
  xs       : TMap XShape := []
  xsPend   : List (Later XShape) := []
  fmt      : BitVec 32 := 0x08814411
  fmtPend  : List (Later (BitVec 32 × BitVec 32)) := []
  ql       : TMap (BitVec 9) := []
  qlPend   : List (Later (BitVec 9)) := []
  fel      : BitVec 64 := 0x7800000000000000
  felKey   : Nat × Nat × Nat := (0, 0, 0)
  felPend  : List FelP := []
  loops    : List Level := []
  sticky   : List Sticky := []
  deriving DecidableEq, Repr

/-- The state of a carry loop (R309), held by member 0: next iteration, trip count, iterations left, width, the
carry mask, the address of the guess routine, the phase of the round (0 guess routine, 1 body, 2 after `cchk`, 3 the
next round is to start) and the members accepted. -/
structure CarryL where
  on     : Bool := false
  i      : Word := 0
  t      : Word := 0
  r      : Word := 0
  w      : Nat := 2
  mask   : BitVec 10 := 0
  start  : Nat := 0
  phase  : Nat := 0
  taken  : Nat := 0
  deriving DecidableEq, Repr

/-- The restart shadow (R104): the registers, the CONSUMED counts of the context's slots, the address of
the next bundle and the carry loop with its round (R315). What has a name from `seq` on was issued after the mark; `csr`: the writes of
special registers that were on their way at the mark. -/
structure Shadow where
  regs     : Regs := {}
  consumed : TMap (BitVec 32) := []
  addr     : Nat := 0
  seq      : Nat := 0
  csr      : List (Nat × Nat × Word) := []
  cloop    : CarryL := {}
  deriving DecidableEq, Repr

/-- An operation of the context that has not performed (for fences and drains, R161, R163): its kind (0 L,
1 S, 2 A, 3 X, 4 M) and home class (0 own, 1 cluster, 2 chip, 3 beyond; 0 for X and M). `perf`: it has
performed; `lands`: its data has yet to reach the core (R157), for a load of fixed latency until the core's unfrozen cycle
`rdy`. -/
structure OutOp where
  id   : Nat
  seq  : Nat
  kind : Nat
  home : Nat := 0
  perf : Bool := false
  lands : Bool := false
  rdy  : Nat := 0
  deriving DecidableEq, Repr

/-- A fence in force: its members, the after-kinds it holds back, and its arrival (R161). `heldB`: the larder
entries that a point kept in a carry round puts before it (R406). -/
structure FencePt where
  seq     : Nat
  members : List Nat := []
  ak      : BitVec 5 := 0
  arr     : Option Nat := none
  slot    : Nat := 2
  ba      : Nat := 0
  heldB   : List Nat := []
  deriving DecidableEq, Repr

/-- An arrival that an operation makes when its result becomes visible at count `due`, once the accesses `refs`
have landed (R139, R253). DEDUCED (log 30). -/
structure ArrP where
  due  : Nat
  bar  : Nat
  slot : Nat := 0
  ba   : Nat := 0
  refs : List Nat := []
  seq  : Nat := 0
  deriving DecidableEq, Repr

/-- What reaches a barrier in cycle `at'` (R252): an arrival, or with `set` a `bset`. -/
structure BarIn where
  cluster : Nat
  bar     : Nat
  at'     : Nat
  core    : Nat := 0
  b       : Bool := false
  slot    : Nat := 0
  ba      : Nat := 0
  set     : Option (BitVec 16 × Bool) := none
  deriving DecidableEq, Repr

/-- What a context does (R358, R359, R110). -/
inductive Mode where
  | off | running | stopped | switchedOut | halted
  deriving DecidableEq, Repr

/-- What a context waits for beyond its own bundle: a fault by its name (`Module.waits`). -/
inductive Hold where
  | none
  | fetch (f : Nat)     -- R27, R369: the fetch fault
  | data (f : Nat)      -- R354: rolled back, until the entry is marked done
  deriving DecidableEq, Repr

/-- The carry round of a member (R309 to R315): its acceptance literal, whether it takes part in a round
(`active`), without an iteration of its own (`inact`), whether it was rejected, its guard registers at the round's start (`g0`, with the results due
then, `gp0`, and the guards open then, `op0`), the cycle after the last performance of a larder entry (`relAt`), the accesses that it has released (`rels`), and the 64-byte lines its
loads and held stores touched. Its carry-ins stand in its register files, beside the carry registers (`ciReg`). -/
structure CarryM where
  lit      : Option Nat := none
  active   : Bool := false
  inact    : Bool := false
  rejected : Bool := false
  g0       : TMap GVal := []
  gp0      : List (Later GVal) := []
  op0      : List Nat := []
  relAt    : Nat := 0
  rels     : List Nat := []
  loads    : List Nat := []
  stores   : List Nat := []
  deriving DecidableEq, Repr

/-- The sort-and-sample unit of a context (R261, R273, R274, R276, R277): the cupboard in rank order, the
threshold, the mass basis, the stream key, the histogram store (counts and masses with poison). -/
structure NUnit where
  cand  : List Cand := []
  thr   : BitVec 32 := 0
  ovf   : Bool := false
  exact : Bool := false
  massM : BitVec 32 := 0
  massT : BitVec 32 := 0
  q     : Word := 0
  n     : Word := 0
  hp    : BitVec 32 := 0
  hl    : BitVec 2 := 0
  hcnt  : TMap (BitVec 32 × Bool) := []
  hmass : TMap (BitVec 32 × Bool) := []
  deriving DecidableEq, Repr

/-- A change of the unit's state, applied at its count to the state as it then stands (R264). -/
inductive NChg where
  | clr
  | merge (xs : List Cand)
  | keep (k : Nat)
  | thr (t : BitVec 32)
  | basis (m t : BitVec 32)
  | key (q n : Word)
  | hset (p : BitVec 32) (l : BitVec 2)
  | hist (mass : Bool) (xs : List (BitVec 32 × Bool))
  deriving DecidableEq, Repr

/-- A pending change. -/
structure NPend where
  due : Nat
  chg : NChg
  rdy : Nat := 0
  deriving DecidableEq, Repr

/-- Where a waiting context stands, for those that wait for it (R100, R103, R110, R259, R356). -/
inductive Reach where
  | none | fuse (w : Nat) | rejoin (w : Nat) | sstep | halt
  | invq (asid : BitVec 16) (lo len lvl : Nat)
  deriving DecidableEq, Repr

/-- One context (R10, R13). `trapQ`: handled traps that reached it while one waited to enter. `hw`: the special registers of
which the hardware has set a W1C or RC bit in this cycle (R6). `pointed`: a pre-emption point stands at the end of its bundle
(R106). `lnksNow`: what RLATE and SLATE of `LNKS` have counted in this cycle (R6). `part`: the bundles of the group at an address that were assembled before a fetch fault (R369). `hostReq`: the host asks
for a stop (R359). `resumed`: the bundle at which a debug stop ended, until it has issued (R359). `dies`: its kernel has been killed, and it
stops behind the repeats of its bundle (R348). `depth0`: the loop levels held when the cycle began (R362). `quits`: its `halt` retires it when the bundle ends. `inv` and `invN`: the accesses and nodes whose acknowledgment an `invq` of its waits for
(R356). `known`: what open guards resolved to, for the tags of accesses on their way. -/
structure Ctx extends Regs where
  mode     : Mode := .off
  hold     : Hold := .none
  kernel   : Nat := 0
  pc       : Nat := 0
  ic       : Nat := 0
  issued   : Nat := 0
  push     : List Level := []
  group    : List GBundle := []
  gaddr    : Nat := 0
  gnext    : Nat := 0
  go       : Option Nat := none
  took     : Bool := false
  cost     : Nat := 0
  ended    : Option TrapRec := none
  marking  : Bool := false
  pointed  : Bool := false
  part     : Option (Nat × List (Nat × RawBundle)) := none
  fetchAt  : Nat := 0
  reach    : Reach := .none
  pass     : Bool := false
  inv      : List Nat := []
  invN     : List Nat := []
  parting  : Bool := false
  marked   : Bool := false
  swOut    : Bool := false
  shadow   : Option Shadow := none
  larder   : List Held := []
  larderOff : Bool := false
  freed    : List Acc := []
  soor     : BitVec 64 := 0
  soorx    : BitVec 64 := 0
  altm     : BitVec 2 := 0
  wrong    : BitVec 16 := 0
  ilk      : Bool := false
  nunit    : NUnit := {}
  npend    : List NPend := []
  lnks     : BitVec 64 := 0
  lnksNow  : BitVec 64 := 0
  lvl      : Bool := false
  kl       : Bool := false
  inh      : Bool := false
  tvec     : BitVec 64 := 0
  tfa      : BitVec 64 := 0
  ttb      : BitVec 64 := 0
  table    : Tables := {}
  lscs     : BitVec 5 := 0
  lsc      : TMap Word := []
  wdb      : BitVec 32 := 0
  ovr      : Bool := false
  pend     : Bool := false
  fs       : Bool := false
  wdogC    : Nat := 0
  dbg      : BitVec 64 := 0
  bka      : TMap Word := []
  wpt      : TMap Word := []
  stopReq  : Option (Nat × Nat) := none
  hostReq  : Bool := false
  resumed  : Option Nat := none
  dies     : Bool := false
  depth0   : Nat := 0
  csrPend  : List (Nat × Nat × Word) := []
  divBusy  : Nat := 0
  arrP     : List ArrP := []
  trapP    : Option TrapRec := none
  trapQ    : List TrapRec := []
  hw       : List Nat := []
  quits    : Bool := false
  fatalP   : Option TrapRec := none
  faultP   : Option TrapRec := none
  fences   : List FencePt := []
  outs     : List OutOp := []
  copyAt   : Nat := 0
  copyNow  : Nat := 0
  fuseW    : Nat := 1
  fuse0    : Nat := 0
  carry    : CarryM := {}
  cloop    : CarryL := {}
  prov     : Word := 0
  known    : List (Nat × Bool) := []
  deriving DecidableEq, Repr

/-! ### Cores, arrays, clusters, wings -/

/-- A wake comparator (R247): the context that owns its tokens, its range, and when its token came. -/
structure Comparator where
  armed : Bool := false
  n     : Nat := 0
  lo    : Nat := 0
  hi    : Nat := 0
  deriving DecidableEq, Repr

/-- One accumulator row: 32 words and their poison (R202, R210). -/
structure AccRow where
  v : BitVec 1024 := 0
  p : BitVec 32 := 0
  deriving DecidableEq, Repr

/-- One core. `eccFrom` and `eccUntil`: the cycle of the first correctable error of a freeze and its last frozen cycle
(R149). `wakeP`: comparators to be armed at the end of this cycle (R247). `flitT`: the ticks at which the flits of a
slot were written, oldest first (R331). -/
structure Core where
  accg     : BitVec 8 := 0x18
  ctxn     : BitVec 2 := 2
  acc      : TMap AccRow := []
  porch    : List PorchE := []
  late     : Option (Nat × Nat) := none
  eccFrom  : Nat := 0
  eccUntil : Nat := 0
  blocked  : Nat := 0
  bFirst   : Bool := false
  units    : List Nat := []
  act      : Nat := 0
  wake     : TMap Comparator := []
  wakeP    : List (Nat × Comparator) := []
  tokens   : List Nat := []
  arrivedN : TMap (BitVec 32) := []
  consumed : TMap (BitVec 32) := []
  flitT    : TMap (List Word) := []
  queue    : List Routine := []
  lines    : List (Nat × Nat) := []
  locks    : List (Nat × Nat) := []
  deriving DecidableEq, Repr

/-- One array (R200, R221): FEN, MODE, what FEN was when its pair last fused, the microword store and the index table. -/
structure Arr where
  fen   : Bool := false
  mode  : Bool := false
  goal  : Bool := false
  store : TMap Word := []
  index : TMap (BitVec 32) := []
  deriving DecidableEq, Repr

/-- A completion of a barrier that bundles do not see yet (R252): its cycle, the arrivals it took, whether it set OV. -/
structure BarDone where
  at'  : Nat
  took : Nat := 0
  ovr  : Bool := false
  deriving DecidableEq, Repr

/-- A barrier (R251), with the completions that are not seen yet and the last arrival counted into a
carried count (R252, R257). -/
structure Barrier where
  exp  : BitVec 16 := 1
  cnt  : Nat := 0
  ph   : BitVec 16 := 0
  str  : Bool := false
  ov   : Bool := false
  seen : Bool := true
  done : List BarDone := []
  last : Option BarIn := none
  deriving DecidableEq, Repr

/-- One cluster. -/
structure Cluster where
  bars  : TMap Barrier := []
  bovr  : BitVec 64 := 0
  queue : List CopyCmd := []
  deriving DecidableEq, Repr

/-- A trace record being written (R365): the device address of its first byte, its bytes, how many of its pieces are left (a
piece is a unit, the rest of unit 0, or the header), and the `TSW` it leaves. -/
structure TraceR where
  addr  : Nat
  bytes : List Byte := []
  left  : Nat := 0
  next  : BitVec 32 := 0
  deriving DecidableEq, Repr

/-- One wing. `recs`: the trace records placed and not yet written whole, in order. `kept`: flits for switched-out contexts (R334). `lost` and `tseq`: the trace writer (R364);
`sample`: a sample is due in this cycle (R363). -/
structure Wing where
  reloc : List RelocCmd := []
  link  : List LinkCmd := []
  kept  : List Flit := []
  moves : BitVec 16 := 0
  tsb   : BitVec 64 := 12
  tsc   : BitVec 64 := 0
  tsw   : BitVec 32 := 0
  tsl   : BitVec 32 := 0
  tseq  : BitVec 8 := 0
  sample : Bool := false
  lost  : Nat := 0
  recs  : List TraceR := []
  deriving DecidableEq, Repr

/-- What is saved of the core with a context that has been switched out (R358): its comparators, its receive slots, its
locks, whether it had halted, and with `pool` the partition: its scratchpad, its accumulators and the partition word. -/
structure Save where
  wake     : TMap Comparator := []
  arrivedN : TMap (BitVec 32) := []
  consumed : TMap (BitVec 32) := []
  flitT    : TMap (List Word) := []
  locks    : List Nat := []
  halt     : Bool := false
  pool     : Bool := false
  accg     : BitVec 8 := 0x18
  ctxn     : BitVec 2 := 2
  acc      : TMap AccRow := []
  cells    : List Host.Cell := []
  poison   : List Nat := []
  deriving DecidableEq, Repr

/-! ### The bundle being issued -/

/-- How the operation just run ended. `stall`: an open-guard stall, with the guards a collapse would
take, in order (R122, R125). `mark`: an implicit mark is taken before the bundle (R130, R162, R245). `spill`: a held store
of poisoned data must raise its trap before the bundle's mark can be taken (R151).
`late`: an access whose data must arrive first (R19). -/
inductive LStat where
  | go
  | wait
  | waitAt (r : Reach)
  | stall (ids : List Nat)
  | mark
  | spill
  | late (id : Nat)
  | trap (t : TrapRec)
  deriving DecidableEq, Repr

/-- The place of the operation being run: context, nominal issue count (R33), bundle address, the next
bundle's address, slot number, the words (for R344), the schedule cycle, the literals it runs under (R113, R310), and its
outcome. -/
structure Latch where
  n      : Nat := 0
  ic     : Nat := 0
  ba     : Nat := 0
  next   : Nat := 0
  gaddr  : Nat := 0
  slot   : Nat := 0
  w0     : BitVec 32 := 0
  x      : BitVec 32 := 0
  scy    : Word := 0
  under  : Tag := []
  stat   : LStat := .go
  lastG  : Bool := false
  stop   : Bool := false
  gcmpAt : Bool := false
  reiss  : Bool := false
  deriving DecidableEq, Repr

/-- The arguments of an event: which context, core, access, address, value it happens to. -/
structure EvArg where
  n    : Nat := 0
  core : Nat := 0
  id   : Nat := 0
  idx  : Nat := 0
  addr : Nat := 0
  v    : Word := 0
  w    : Word := 0
  req  : FabReq := {}
  flit : Flit := {}
  who  : ChainAgent := .core 0
  deriving DecidableEq, Repr

/-- What the outside does: an event of the table with its arguments, a correctable error arising in a pool
granule (R149), or bytes of another node's memory, or the marks of one of its tiles (R292), changing under its own agents. -/
inductive Input where
  | event (i : Instr) (a : EvArg)
  | flip (home : Nat)
  | remote (home : Nat) (bs : List Byte)
  | remoteMark (home : Nat) (on : Bool)
  deriving DecidableEq, Repr

/-! ### The module -/

/-- The answer to a request of another node (R324): the node, whether it was refused with `REMOTE_ERROR`, and the bytes
returned; with `mark` the line carries MARK, and they are the record's NEWVA, to which the requester retargets (R152, R293). -/
structure Answer where
  node    : Nat := 0
  refused : Bool := false
  bytes   : List Byte := []
  mark    : Bool := false
  deriving DecidableEq, Repr

/-- A fault that could not be posted yet (R352): its name and the words of its entry. -/
structure Post where
  fid : Nat
  w0  : Word := 0
  va  : Word := 0
  ba  : Word := 0
  row : Word := 0
  deriving DecidableEq, Repr

/-- What a launch is doing: waiting for its contexts, running, or switched out and waiting to resume. -/
inductive KState where
  | waiting | running | out
  deriving DecidableEq, Repr

/-- A launch from its acceptance to its retirement (R374 to R382): its record, its place in the order of waiting
launches, since when it waits and runs, the contexts it is placed on, whether pre-emption is requested, the
budget used, reruns, the first fatal trap's frame, the graph node it came from, how it ends (`dying` is
the outcome, R377, of a kernel that has been killed), and what of it has been preloaded (R382): `pre`, with the cores whose context B
holds it and the argument slots 16 and up in the command processor's own memory. -/
structure Kernel where
  record : Nat
  seq    : Word := 0
  prio   : Nat := 0
  state  : KState := .waiting
  order  : Nat := 0
  since  : Nat := 0
  start  : Nat := 0
  places : List Nat := []
  preq   : Bool := false
  budget : Nat := 0
  used   : Nat := 0
  overB  : Bool := false
  retry  : Nat := 0
  reruns : Nat := 0
  spawnX : Bool := false
  frame  : List Byte := []
  dying  : Option Nat := none
  node   : Option Nat := none
  pre    : Bool := false
  preOn  : List Nat := []
  preArg : List Byte := []
  deriving DecidableEq, Repr

/-- An activation of a graph node (R385): its address, its PRIO, and the kernel that spawned it with the address of that kernel's
completion record (R387). -/
structure Activation where
  node : Nat
  prio : Nat
  by'  : Option Nat := none
  st   : Nat := 0
  deriving DecidableEq, Repr

/-- Service state (R402) with the verification under way at stage 2 or as action 7. `moves`: the tiles of a channel that is being
drained are on their way (R300), `rest` those that the engine's queue has no room for yet. -/
structure Service where
  busy : Bool := false
  act  : BitVec 7 := 0
  res  : BitVec 8 := 0
  tgt  : BitVec 48 := 0
  moves : Bool := false
  rest  : List RelocCmd := []
  deriving DecidableEq, Repr

/-- What is shared by the whole module (R323, R352, R371, R398 to R405): the registers of the window, the fault
buffer's bookkeeping, the command processor's launches and activations, firmware slots, the core map (for each
logical cluster the physical cluster and whether it is a spare), what is out of service, and the power. `waits`
names every fault that an agent waits on with its entry once posted. `ovfNow` and `skipNow`: what `FBS`.OVF and SKIP have counted in this cycle (R6). `events` are the event words sent to the
host, in order. -/
structure Module where
  power   : Bool := true
  node    : BitVec 15 := 0
  ticks   : Word := 0
  ovf     : BitVec 16 := 0
  ovfNow  : BitVec 16 := 0
  fbBase  : BitVec 64 := 0
  waits   : List (Nat × Option Nat) := []
  posts   : List Post := []
  events  : List Word := []
  stage   : BitVec 8 := 0
  err     : BitVec 8 := 0
  sig     : BitVec 8 := 0
  slot    : BitVec 8 := 0
  detail  : BitVec 32 := 0
  slots   : TMap (List Byte) := []
  staged  : List Nat := []
  svc     : Service := {}
  evAddr  : Word := 0
  grants  : TMap Word := []
  nonce   : TMap Word := []
  attest  : Bool := false
  tail    : BitVec 32 := 0
  head    : BitVec 32 := 0
  skip    : BitVec 16 := 0
  skipNow : BitVec 16 := 0
  ring    : BitVec 64 := 4
  seqTop  : Word := 0
  kernels : TMap Kernel := []
  acts    : List Activation := []
  phys    : TMap (BitVec 3 × Bool) := []
  chanOut : List Nat := []
  hot     : Bool := false
  deriving DecidableEq, Repr

/-- The state of the machine. The last block is the model's own bookkeeping: what the outside does next,
events that are due now,
the counters of free choices and of free values, the contexts still to take their turn in this cycle, fresh names, this cycle's
port writes, wide-scope `csrw`s of this cycle (R341), accesses, flits to other nodes and answers travelling, the answers
that other nodes have been sent, their requests that wait behind a tile's move, the bundle being issued and the event's arguments. -/
structure State where
  mem      : Mem := {}
  cycle    : Nat := 0
  ctxs     : TMap Ctx := []
  cores    : TMap Core := []
  arrays   : TMap Arr := []
  clusters : TMap Cluster := []
  wings    : TMap Wing := []
  saves    : TMap Save := []
  mod      : Module := {}
  inputs   : List Input := []
  todo     : List (Instr × EvArg) := []
  picks    : Nat := 0
  frees    : Nat := 0
  turns    : List Nat := []
  uid      : Nat := 0
  portW    : List PortW := []
  barIn    : List BarIn := []
  csrLate  : List (Nat × Nat × Word) := []
  outq     : List Acc := []
  net      : List Acc := []
  wire     : List (Nat × Flit) := []
  resps    : List Resp := []
  sent     : List Answer := []
  fab      : List FabReq := []
  latch    : Latch := {}
  ev       : EvArg := {}
  deriving DecidableEq, Repr

/-- The machine at power-up, before stage 0 of R398 is over: every part at the reset value the spec gives it, at 0 or empty
where the spec gives none (log 2, DESIGN CHOICE), memory with nothing listed (log 1, DESIGN CHOICE), no kernel, nothing under way. -/
def State.reset : State := {}

end Sys2Proof.Machine
end

