-- ==== Sys2Proof/Machine/Map.lean ====
section
/-! DEFINITION. Sparse total maps, and the accessors of the state's contexts, cores, arrays, clusters
and wings. -/

namespace Sys2Proof.Machine

/-- The value of a key, `d` where the map lists none. -/
def mget {α : Type} (d : α) : TMap α → Nat → α
  | [], _ => d
  | (k', v) :: m, k => if k = k' then v else mget d m k

/-- The map with one key changed; keys stay rising. -/
def mput {α : Type} : TMap α → Nat → α → TMap α
  | [], k, v => [(k, v)]
  | (k', w) :: m, k, v =>
    if k < k' then (k, v) :: (k', w) :: m
    else if k = k' then (k, v) :: m
    else (k', w) :: mput m k v

/-- A sorted list of numbers without repeats: membership, insertion, removal. -/
def sIns : List Nat → Nat → List Nat
  | [], a => [a]
  | b :: l, a => if a < b then a :: b :: l else if a = b then b :: l else b :: sIns l a

def sDel (l : List Nat) (a : Nat) : List Nat := l.filter (fun b => b != a)

/-- The numbers lo, lo+1, ..., lo+n-1. -/
def upTo (lo : Nat) : Nat → List Nat
  | 0 => []
  | n + 1 => lo :: upTo (lo + 1) n

/-- A context; numbered 2 x core, plus 1 for B. -/
def State.ctx (s : State) (n : Nat) : Ctx := mget {} s.ctxs n
def State.setCtx (s : State) (n : Nat) (c : Ctx) : State := { s with ctxs := mput s.ctxs n c }
def State.onCtx (s : State) (n : Nat) (f : Ctx → Ctx) : State := s.setCtx n (f (s.ctx n))

def State.core (s : State) (k : Nat) : Core := mget {} s.cores k
def State.setCore (s : State) (k : Nat) (c : Core) : State := { s with cores := mput s.cores k c }
def State.onCore (s : State) (k : Nat) (f : Core → Core) : State := s.setCore k (f (s.core k))

def State.arr (s : State) (k : Nat) : Arr := mget {} s.arrays k
def State.setArr (s : State) (k : Nat) (a : Arr) : State := { s with arrays := mput s.arrays k a }

def State.cluster (s : State) (k : Nat) : Cluster := mget {} s.clusters k
def State.setCluster (s : State) (k : Nat) (c : Cluster) : State :=
  { s with clusters := mput s.clusters k c }

def State.wing (s : State) (k : Nat) : Wing := mget {} s.wings k
def State.setWing (s : State) (k : Nat) (w : Wing) : State := { s with wings := mput s.wings k w }

/-- The core, cluster and wing of a context (R8, R9). A number from 192 on is the place of a context that has been switched
out: number n + 192 j for context n (log 34, DESIGN CHOICE). -/
def coreOf (n : Nat) : Nat := n % 192 / 2
def clusterOf (n : Nat) : Nat := n % 192 / 8
def wingOf (n : Nat) : Nat := n % 192 / 48
/-- The array of a core (R9). -/
def arrayOf (core : Nat) : Nat := core / 2

/-- The context of the bundle being issued. -/
def State.cur (s : State) : Ctx := s.ctx s.latch.n
def State.onCur (s : State) (f : Ctx → Ctx) : State := s.onCtx s.latch.n f

/-- The state with the outcome of the operation being run set (`LStat`); nothing else changes. -/
def State.stat (s : State) (l : LStat) : State := { s with latch := { s.latch with stat := l } }

/-- A fresh name and the state after taking it. -/
def State.fresh (s : State) : State := { s with uid := s.uid + 1 }

end Sys2Proof.Machine
end

