-- ==== Sys2Proof/Machine/Mem.lean ====
section
/-! DEFINITION. Memory: one canonical list of (home address, byte) pairs, poison by granule and MARK by
line. Homes are numbered as the node addresses of R324: device memory from 0, the scratchpad of core c
from 0x400000000000 + c * 0x800000, the command processor's window at 0x7FFF00000000. Memory of another
node stands above 2^48 (log 19, DESIGN CHOICE). A byte that nothing has written reads 0 (log 1, DESIGN CHOICE). -/

namespace Sys2Proof.Machine

/-- What an unlisted address reads as. DESIGN CHOICE (log 1). -/
def Mem.fill : Byte := 0

/-- The byte listed at an address, or the fill. -/
def cellsGet : List Host.Cell → Nat → Byte
  | [], _ => Mem.fill
  | (a, b) :: m, k => if k = a then b else cellsGet m k

/-- The cells with one byte written: addresses stay rising and no cell equals the fill. -/
def cellsPut : List Host.Cell → Nat → Byte → List Host.Cell
  | [], k, v => if v = Mem.fill then [] else [(k, v)]
  | (a, b) :: m, k, v =>
    if k < a then (if v = Mem.fill then (a, b) :: m else (k, v) :: (a, b) :: m)
    else if k = a then (if v = Mem.fill then m else (k, v) :: m)
    else (a, b) :: cellsPut m k v

def Mem.get (m : Mem) (a : Nat) : Byte := cellsGet m.cells a
def Mem.put (m : Mem) (a : Nat) (b : Byte) : Mem := { m with cells := cellsPut m.cells a b }

/-- `n` bytes from an address upward. -/
def Mem.read (m : Mem) (a : Nat) : Nat → List Byte
  | 0 => []
  | n + 1 => m.get a :: m.read (a + 1) n

/-- A little-endian value (R1). -/
def Mem.nat (m : Mem) (a n : Nat) : Nat := leBytes (m.read a n)
def Mem.word (m : Mem) (a : Nat) : Word := BitVec.ofNat 64 (m.nat a 8)

def Mem.write (m : Mem) (a : Nat) : List Byte → Mem
  | [] => m
  | b :: bs => (m.put a b).write (a + 1) bs

/-- The canonical form of the cells: addresses rising above `lo`, no cell at the fill. -/
def cellsWf : Nat → List Host.Cell → Bool
  | _, [] => true
  | lo, (a, b) :: m => decide (lo ≤ a) && decide (b ≠ Mem.fill) && cellsWf (a + 1) m

/-- The canonical form of memory. -/
def Mem.wf (m : Mem) : Bool := cellsWf 0 m.cells

/-! ### Places -/

def scratchBase : Nat := 0x400000000000
def scratchSpan : Nat := 0x800000
def deviceSize : Nat := 0x18000000000
def windowBase : Nat := 0x7FFF00000000

/-- The home of a byte of a core's scratchpad (R324). -/
def scratchHome (core off : Nat) : Nat := scratchBase + core * scratchSpan + off

/-- The home of an address at another node: `node` is the node id with the host bit above it. -/
def nodeHome (node addr : Nat) : Nat := (node + 1) * 2 ^ 48 + addr

/-- Whether a home lies in a scratchpad, and in which core's. -/
def isScratch (a : Nat) : Bool := decide (scratchBase ≤ a ∧ a < scratchBase + 96 * scratchSpan)
def scratchCore (a : Nat) : Nat := (a - scratchBase) / scratchSpan
def scratchOff (a : Nat) : Nat := (a - scratchBase) % scratchSpan
def isDevice (a : Nat) : Bool := decide (a < deviceSize)

/-- The size of a core's scratchpad in bytes (R15). -/
def scratchBytes (c : Core) : Nat := (128 - c.ctxn.toNat - c.accg.toNat) * 0x10000

/-- Whether a byte of a scratchpad's address range exists (R146). -/
def State.inRange (s : State) (a : Nat) : Bool :=
  !isScratch a || decide (scratchOff a < scratchBytes (s.core (scratchCore a)))

/-! ### Poison -/

/-- The granule of poison that holds a byte: 8 bytes in a pool, 32 in device memory (R150). -/
def granule (a : Nat) : Nat := if isScratch a then a - a % 8 else a - a % 32
def granuleSize (a : Nat) : Nat := if isScratch a then 8 else 32

def Mem.bad (m : Mem) (a : Nat) : Bool := m.poison.contains (granule a)

/-- Poison of each of `n` bytes from an address. -/
def Mem.bads (m : Mem) (a : Nat) : Nat → List Bool
  | 0 => []
  | n + 1 => m.bad a :: m.bads (a + 1) n

/-- The granules that the bytes [a, a+n) touch. -/
def granules (a n : Nat) : List Nat :=
  if n = 0 then []
  else
    let g := granuleSize a
    (upTo 0 ((a + n - 1) / g - a / g + 1)).map (fun i => granule a + i * g)

/-- The granules wholly inside [a, a+n). -/
def wholeGranules (a n : Nat) : List Nat :=
  (granules a n).filter (fun g => decide (a ≤ g ∧ g + granuleSize a ≤ a + n))

/-- A clean store clears the poison of the granules it covers (R151). -/
def Mem.clean (m : Mem) (a n : Nat) : Mem :=
  { m with poison := m.poison.filter (fun g => !(wholeGranules a n).contains g) }

/-- Poison the granules of the bytes at `a` whose flag is set (R236). -/
def Mem.taint (m : Mem) (a : Nat) : List Bool → Mem
  | [] => m
  | b :: bs => ({ m with poison := if b then sIns m.poison (granule a) else m.poison } : Mem).taint (a + 1) bs

/-- A store of bytes: written, clean where whole granules are clean, poisoned where a byte is poisoned. -/
def Mem.store (m : Mem) (a : Nat) (bs : List Byte) (bad : List Bool) : Mem :=
  ((m.write a bs).clean a bs.length).taint a bad

/-! ### Marks -/

/-- The 64-byte line of device memory that holds a byte carries MARK (R152, R292). -/
def Mem.marked (m : Mem) (a : Nat) : Bool := m.marks.contains (a - a % 64)

/-- A byte of memory as a program sees it: out-of-range scratch reads 0 (R146). -/
def State.byteAt (s : State) (a : Nat) : Byte := if s.inRange a then s.mem.get a else 0

/-- `n` bytes with R146, and their poison (out-of-range bytes are clean). -/
def State.bytesAt (s : State) (a : Nat) : Nat → List Byte
  | 0 => []
  | n + 1 => s.byteAt a :: s.bytesAt (a + 1) n
def State.badAt (s : State) (a : Nat) : Nat → List Bool
  | 0 => []
  | n + 1 => (s.inRange a && s.mem.bad a) :: s.badAt (a + 1) n

/-- The leading bytes of a list that lie in range, for a store starting at `a` (R146: the rest is
discarded). Ranges end at one offset, so the bytes in range are a prefix. -/
def State.inPart {α : Type} (s : State) (a : Nat) : List α → List α
  | [] => []
  | b :: bs => if s.inRange a then b :: s.inPart (a + 1) bs else []

/-- A store that performs at its home now, with R146 and R151. -/
def State.storeAt (s : State) (a : Nat) (bs : List Byte) (bad : List Bool) : State :=
  { s with mem := s.mem.store a (s.inPart a bs) (s.inPart a bad) }

end Sys2Proof.Machine
end

