-- ==== Sys2Proof/Machine/Ops.lean ====
section
/-! DEFINITION. The shared operations over registers and guards: tags and alternatives (R118, R119),
reading a register at an issue count (R34), the guard of an operation (R113), delivering a result (R52), and
raising a trap (R131). -/

namespace Sys2Proof.Machine

/-! ### Tags -/

def Lit.neg (l : Lit) : Lit := ⟨l.id, !l.pos⟩

/-- A tag holds no literal together with its negation. -/
def tagOk (t : Tag) : Bool := t.all (fun l => !t.contains l.neg)

/-- The conjunction of two tags. -/
def tagAnd (t u : Tag) : Tag := t ++ u.filter (fun l => !t.contains l)

/-- The negation of a conjunction, as disjoint tags: ¬(l ∧ m) is ¬l, or l ∧ ¬m. -/
def tagNeg : Tag → List Tag
  | [] => []
  | l :: t => [l.neg] :: (tagNeg t).map (fun u => l :: u)

/-- A tag once an open guard is known: dropped when contrary, else the literal struck (R117). -/
def tagResolve (id : Nat) (b : Bool) (t : Tag) : Option Tag :=
  if t.contains ⟨id, !b⟩ then none else some (t.filter (fun l => l.id != id))

/-- Every compatible pair of tagged things (R119). -/
def tagPair {α β : Type} (xs : List (Tag × α)) (ys : List (Tag × β)) : List (Tag × (α × β)) :=
  xs.flatMap (fun x => ys.filterMap (fun y =>
    let t := tagAnd x.1 y.1
    if tagOk t then some (t, (x.2, y.2)) else none))

/-! ### Alternatives and pending results -/

/-- An alternative under a further tag, if compatible. -/
def Alt.under {w p : Nat} (a : Alt w p) (t : Tag) : Option (Alt w p) :=
  let u := tagAnd a.tag t
  if tagOk u then some { a with tag := u } else none

/-- A pending result applied to the alternatives its register holds at its due count (R119, R86). -/
def Pend.apply {w p : Nat} (cur : List (Alt w p)) (x : Pend w p) : List (Alt w p) :=
  match x.chase with
  | some (g, t, d) =>
    cur.map (fun a => if a.gen == g && tagOk (tagAnd a.tag t) then
      { a with val := { a.val with v := a.val.v + d }, gen := x.seq } else a)
  | none =>
    if x.under.isEmpty then x.alts
    else x.alts.filterMap (fun a => a.under x.under) ++
      (tagNeg x.under).flatMap (fun t => cur.filterMap (fun a => a.under t))

/-- The order of R34: by due count, then the order of issue; the conditional add of R86 stands on top of the post-steps due at
its count. -/
def Pend.before {w p : Nat} (x y : Pend w p) : Bool :=
  decide (x.due < y.due) || (x.due == y.due &&
    (if x.chase.isSome == y.chase.isSome then decide (x.seq ≤ y.seq) else y.chase.isSome))

def pendIns {w p : Nat} (x : Pend w p) : List (Pend w p) → List (Pend w p)
  | [] => [x]
  | y :: l => if x.before y then x :: y :: l else y :: pendIns x l

def RegFile.held {w p : Nat} (f : RegFile w p) (r : Nat) : List (Alt w p) := mget [{}] f.base r

/-- The alternatives of a register as a bundle at count `t` reads them (R34). -/
def RegFile.at {w p : Nat} (f : RegFile w p) (r t : Nat) : List (Alt w p) :=
  (f.pend.filter (fun x => x.dst == r && decide (x.due ≤ t) && !x.late)).foldl Pend.apply (f.held r)

/-- A register file with a pending result added. -/
def RegFile.add {w p : Nat} (f : RegFile w p) (x : Pend w p) : RegFile w p :=
  { f with pend := pendIns x f.pend }

/-- A register written at once, with nothing pending on it. -/
def RegFile.set {w p : Nat} (f : RegFile w p) (r : Nat) (v : Val w p) : RegFile w p :=
  { base := mput f.base r [{ val := v }], pend := f.pend.filter (fun x => x.dst != r) }

/-- Whether a pending result still waits for data. -/
def Pend.missing {w p : Nat} (x : Pend w p) : Bool := x.alts.any (fun a => a.ref.isSome)

/-- A result that becomes part of its register by count `t`: due, its data there, and none before it on the register
whose data is not (R19, R34, R116). -/
def RegFile.ripe {w p : Nat} (f : RegFile w p) (t : Nat) (x : Pend w p) : Bool :=
  decide (x.due ≤ t) && !x.late && !x.missing &&
    !f.pend.any (fun y => y.dst == x.dst && y.missing && !y.late && decide (y.due ≤ t) && y.before x)

/-- The code of no register: the landings of requests into `s0` stand under it (R13, R19). -/
def noReg : Nat := 299

/-- Results due by count `t` become part of the registers. -/
def RegFile.commit {w p : Nat} (f : RegFile w p) (t : Nat) : RegFile w p :=
  { base := (f.pend.filter (f.ripe t)).foldl (fun b x =>
      if x.dst = noReg then b else mput b x.dst (x.apply (mget [{}] b x.dst))) f.base,
    pend := f.pend.filter (fun x => !f.ripe t x) }

def altsResolve {w p : Nat} (id : Nat) (b : Bool) (as : List (Alt w p)) : List (Alt w p) :=
  as.filterMap (fun a => (tagResolve id b a.tag).map (fun t => { a with tag := t }))

/-- Every register drops the contrary alternatives and strikes the literal (R117). -/
def RegFile.resolve {w p : Nat} (f : RegFile w p) (id : Nat) (b : Bool) : RegFile w p :=
  { base := f.base.map (fun e => (e.1, altsResolve id b e.2)),
    pend := f.pend.filterMap (fun x => (tagResolve id b x.under).bind (fun t =>
      match x.chase with
      | none => some { x with under := t, alts := altsResolve id b x.alts }
      | some (g, u, d) => (tagResolve id b u).map (fun u => { x with under := t, chase := some (g, u, d) }))) }

/-- The data of an access put where a register waits for it, in cycle `cyc` (R143): bundles of the next cycle read it, and with
`soon` those of this cycle. -/
def RegFile.land {w p : Nat} (f : RegFile w p) (id cyc : Nat) (soon : Bool) (v : Val w p) : RegFile w p :=
  { f with pend := f.pend.map (fun x =>
      if x.alts.any (fun a => a.ref == some id) then
        { x with at' := max x.at' (if soon && !x.late then cyc else cyc + 1), alts := x.alts.map (fun a =>
            if a.ref == some id then { a with val := v, ref := none } else a) }
      else x) }

/-! ### Reading registers -/

/-- Register codes: s r is r, a r is 64 + r (in the file `sa`). -/
def aReg (r : Nat) : Nat := 64 + r

/-- The alternatives of s r at count `t`; `s0` reads zero (R13). -/
def Ctx.sAt (c : Ctx) (r t : Nat) : List (Alt 64 1) := if r = 0 then [{}] else c.sa.at r t
def Ctx.aAt (c : Ctx) (r t : Nat) : List (Alt 64 1) := c.sa.at (aReg r) t
def Ctx.vAt (c : Ctx) (r t : Nat) : List (Alt 1024 32) := c.v.at r t

def tagged {w p : Nat} (as : List (Alt w p)) : List (Tag × Val w p) := as.map (fun a => (a.tag, a.val))

/-- A pending write of a plain register, in the order of due counts. -/
def laterIns {α : Type} (x : Later α) : List (Later α) → List (Later α)
  | [] => [x]
  | y :: l => if x.due < y.due then x :: y :: l else y :: laterIns x l

/-- A plain register at count `t`. -/
def laterAt {α : Type} (v : α) (pend : List (Later α)) (r t : Nat) : α :=
  (pend.filter (fun x => x.dst == r && decide (x.due ≤ t))).foldl (fun _ x => x.val) v

/-- The plain registers with the writes due by `t` made. -/
def laterCommit {α : Type} (m : TMap α) (pend : List (Later α)) (t : Nat) : TMap α :=
  (pend.filter (fun x => decide (x.due ≤ t))).foldl (fun b x => mput b x.dst x.val) m

def laterRest {α : Type} (pend : List (Later α)) (t : Nat) : List (Later α) :=
  pend.filter (fun x => !decide (x.due ≤ t))

/-- A guard register at count `t`; `g0` is true (R112). -/
def Ctx.gAt (c : Ctx) (r t : Nat) : GVal :=
  if r = 0 then .res true else laterAt (mget (.res false) c.g r) c.gpend r t

def Ctx.mpAt (c : Ctx) (r t : Nat) : Word := laterAt (mget 0 c.mp r) c.mpPend r t
def Ctx.xsAt (c : Ctx) (r t : Nat) : XShape := laterAt (mget {} c.xs r) c.xsPend r t
/-- `FMT` at count `t`: each due write replaces the bits of its mask (R70, R71). -/
def Ctx.fmtAt (c : Ctx) (t : Nat) : BitVec 32 :=
  (c.fmtPend.filter (fun x => decide (x.due ≤ t))).foldl
    (fun f x => (f &&& ~~~x.val.1) ||| (x.val.2 &&& x.val.1)) c.fmt
def Ctx.qlAt (c : Ctx) (r t : Nat) : BitVec 9 := laterAt (mget 127 c.ql r) c.qlPend r t

/-! ### The guard of an operation -/

def Ctx.open? (c : Ctx) (id : Nat) : Option OpenG := c.opens.find? (fun o => o.id == id)

/-- Whether the context keeps marks (R104). -/
def Ctx.keepsMarks (c : Ctx) : Bool := c.shadow.isSome

/-- The tags of an operation: `alg` for results (open guards neither known nor predicted, and the
acceptance literal of a carry round, R310), `held` for effects in the larder, which keep predicted
literals (R113). -/
structure Cond2 where
  alg  : Tag := []
  held : Tag := []
  deriving DecidableEq, Repr

/-- The acceptance literal of the member, while open (R310). -/
def Ctx.carryTag (c : Ctx) : Tag :=
  match c.carry.lit with
  | some id => if (c.open? id).isSome then [⟨id, true⟩] else []
  | none => []

/-- The guard of an operation at count `t`: `none` when it is resolved to the failing sense. -/
def Ctx.guard (c : Ctx) (h : Hdr) (t : Nat) : Option Cond2 :=
  let k := c.carryTag
  match c.gAt h.g.toNat t with
  | .res b => if b != h.gs then some ⟨k, k⟩ else none
  | .opn id =>
    let l : Lit := ⟨id, !h.gs⟩
    match (c.open? id).bind (fun o => o.pred) with
    | some b => if b != h.gs then some ⟨k, tagAnd k [l]⟩ else none
    | none => some ⟨tagAnd k [l], tagAnd k [l]⟩

/-- Alternatives as they stand under a tag that holds for the whole operation. -/
def restrict {α : Type} (t : Tag) (xs : List (Tag × α)) : List (Tag × α) :=
  xs.filterMap (fun x => if tagOk (tagAnd x.1 t) then some (x.1.filter (fun l => !t.contains l), x.2) else none)

/-- The sources of the operation being run, under the literals it runs under (R119, R310). -/
def State.sSrc (s : State) (r : Nat) : List (Tag × SVal) :=
  restrict s.latch.under (tagged (s.cur.sAt r s.latch.ic))
def State.aSrc (s : State) (r : Nat) : List (Tag × SVal) :=
  restrict s.latch.under (tagged (s.cur.aAt r s.latch.ic))
def State.vSrc (s : State) (r : Nat) : List (Tag × VVal) :=
  restrict s.latch.under (tagged (s.cur.vAt r s.latch.ic))

def State.guard (s : State) (h : Hdr) : Option Cond2 := s.cur.guard h s.latch.ic

/-- The open guards of the context that a collapse may take, oldest first (R122, R310). -/
def Ctx.collapsible (c : Ctx) : List Nat :=
  (c.opens.filter (fun o => o.pred.isNone && o.reg != 0)).map (fun o => o.id)

/-- The guards that a cap of R120 asks to collapse, and last the acceptance literal of the member (R310). -/
def Ctx.capGuards (c : Ctx) : List Nat := c.collapsible ++ c.carryTag.map (fun l => l.id)

/-- The unresolved guard of an operation, for R125. -/
def Ctx.ownOpen (c : Ctx) (h : Hdr) (t : Nat) : List Nat :=
  match c.gAt h.g.toNat t with
  | .res _ => []
  | .opn id => [id]

/-! ### Resolving an open guard -/

def GVal.resolve (id : Nat) (b : Bool) (g : GVal) : GVal := if g = .opn id then .res b else g

def tagDead (id : Nat) (b : Bool) (t : Tag) : Bool := t.contains ⟨id, !b⟩
def tagStrike (id : Nat) (t : Tag) : Tag := t.filter (fun l => l.id != id)

/-- Register alternatives see the guard as `b` (R117, R122). -/
def Regs.resolveRegs (c : Regs) (id : Nat) (b : Bool) : Regs :=
  { c with sa := c.sa.resolve id b, v := c.v.resolve id b }

/-- The guard is resolved to `b` in the registers, the guard registers and the other guards (R117). -/
def Regs.resolve (c : Regs) (id : Nat) (b : Bool) : Regs :=
  { c.resolveRegs id b with
    g := c.g.map (fun e => (e.1, e.2.resolve id b)),
    gpend := c.gpend.map (fun x => { x with val := x.val.resolve id b }),
    opens := (c.opens.filter (fun o => o.id != id)).map (fun o =>
      { o with cases := o.cases.filterMap (fun d => (tagResolve id b d.1).map (fun t => (t, d.2))) }),
    felPend := c.felPend.filterMap (fun x => (tagResolve id b x.tag).map (fun t => { x with tag := t })),
    gwatch := c.gwatch.filterMap (fun x => (tagResolve id b x.2.1).map (fun t => (x.1, t, x.2.2))),
    gtraps := c.gtraps.filterMap (fun x => (tagResolve id b x.1).map (fun t => (t, x.2))) }

/-- A change of the registers that the restart shadow shares (a result of the mark's own bundle, R104). -/
def Ctx.both (c : Ctx) (f : Regs → Regs) : Ctx :=
  { c with toRegs := f c.toRegs, shadow := c.shadow.map (fun z => { z with regs := f z.regs }) }

/-- The guard registers of a rejected member return to their values at the round's start, results due then and guards open then among
them (R314; log 104, DEDUCED). -/
def Ctx.guardsBack (c : Ctx) : Ctx :=
  { c with g := c.carry.g0, gpend := c.carry.gp0, opens := c.opens.filter (fun o => c.carry.op0.contains o.id) }

/-- What a round keeps of its start sees the guard as `b` too (R117). -/
def CarryM.resolve (id : Nat) (b : Bool) (c : CarryM) : CarryM :=
  { c with
    g0 := c.g0.map (fun e => (e.1, e.2.resolve id b)),
    gp0 := c.gp0.map (fun x => { x with val := x.val.resolve id b }) }

/-- The guard is resolved to `b` everywhere (R117): also in the larder. -/
def Ctx.resolve (c : Ctx) (id : Nat) (b : Bool) : Ctx :=
  let c1 := { c.both (fun r => r.resolve id b) with
    known := (id, b) :: c.known,
    carry := c.carry.resolve id b,
    larder := c.larder.map (fun e =>
      { e with dead := e.dead || tagDead id b e.tag, tag := tagStrike id e.tag }) }
  if !b && c.carry.lit == some id then c1.guardsBack else c1

/-- The acceptance literal of a carry member resolves false: the member is rejected (R310). -/
def Ctx.reject (c : Ctx) : Ctx :=
  match c.carry.lit with
  | some id => { c.resolve id false with carry := { c.carry with rejected := true } }
  | none => { c with carry := { c.carry with rejected := true } }

/-! ### Traps -/

/-- The 8-bit code of a trap (R342). -/
def TrapCode.num : TrapCode → Nat
  | .none => 0x00 | .illegalEncoding => 0x01 | .illegalOpcode => 0x02 | .privilege => 0x03 | .divZero => 0x04
  | .poison => 0x05 | .userTrap => 0x06 | .untranslated => 0x10 | .noExecute => 0x11 | .fetchAlign => 0x12
  | .misaligned => 0x13 | .untimedPlace => 0x14 | .noWrite => 0x15 | .noMark => 0x16 | .loopDepth => 0x17
  | .fuseState => 0x18 | .notSpeculable => 0x19 | .carryFull => 0x1A | .noRoutine => 0x1B | .matrixArgs => 0x1C
  | .accRange => 0x1D | .microcode => 0x1E | .copyArgs => 0x1F | .wakePlace => 0x20 | .barrierArgs => 0x21
  | .moveArgs => 0x22 | .remoteError => 0x23 | .linkArgs => 0x24 | .watchdog => 0x25 | .killed => 0x26
  | .pageFault => 0x30 | .markChain => 0x31

/-- The codes that enter a handler (R342). -/
def TrapCode.handled (c : TrapCode) : Bool := decide (1 ≤ c.num ∧ c.num ≤ 6)

/-- Page faults and `MARK_CHAIN` go to the fault buffer (R342). -/
def TrapCode.toBuffer (c : TrapCode) : Bool := decide (0x30 ≤ c.num)

/-- The first of two traps or fault marks (R131). -/
def orF (a b : Option TrapRec) : Option TrapRec := if a.isSome then a else b

/-- Of two fatal traps of one context in one cycle, the one of the lower slot, and of one slot the one that came first (R348). -/
def slotFirst (a b : Option TrapRec) : Option TrapRec :=
  match a, b with
  | some x, some y => if y.slot < x.slot then some y else some x
  | some x, none => some x
  | none, y => y

/-- A trap, page fault or chain that reaches a context with a true tag: raised at its next bundle boundary. None is lost: a
fatal one acts at once, and a handled one stands behind the handled trap that came first. -/
def Ctx.report (c : Ctx) (t : TrapRec) : Ctx :=
  if t.code.toBuffer then { c with faultP := orF c.faultP (some t) }
  else if c.trapP.isNone then { c with trapP := some t }
  else if t.code.handled && !t.forceFatal then { c with trapQ := c.trapQ ++ [t] }
  else { c with fatalP := slotFirst c.fatalP (some t) }

/-- A trap raised by the operation being run, with the frame fields of its bundle (R344). -/
def State.trapRec (s : State) (code : TrapCode) (i0 i1 : Word) : TrapRec :=
  { code := code, slot := s.latch.slot, ba := s.latch.ba, ra := s.latch.ba, info0 := i0, info1 := i1,
    scy := s.latch.scy }

/-- A larder entry put in its place in program order. -/
def heldIns (e : Held) : List Held → List Held
  | [] => [e]
  | x :: l => if e.seq < x.seq then e :: x :: l else x :: heldIns e l

/-- A larder entry takes its place (R127): the tail, but for a bundle that another has passed (R98). -/
def Ctx.hold1 (c : Ctx) (e : Held) : Ctx := { c with larder := heldIns e c.larder }

def State.pushHeld (s : State) (e : Held) : State :=
  { s.onCur (fun c => c.hold1 { e with id := s.uid, seq := s.uid }) with uid := s.uid + 1 }

/-- The larder has no room for `k` more entries (R130, R315). -/
def Ctx.noRoom (c : Ctx) (k : Nat) : Bool := decide (64 < c.larder.length + k)

/-- What happens before `k` entries enter the larder: nothing where there is room; else a carry member is
rejected and the entry dropped, member 0 of a round raises `CARRY_FULL` for a store or a deferred trap (`st`, R315), a context that
keeps marks takes one first, any other waits (R130). `rej` is the state of the rejected member. -/
def State.withRoom (s : State) (k : Nat) (st : Bool) (rej f : State) : State :=
  if k = 0 || !s.cur.noRoom k then f
  else if s.cur.carry.lit.isSome then rej
  else if s.cur.carry.active then (if st then s.stat (.trap (s.trapRec .carryFull 0 0)) else s.stat (.stall []))
  else if s.cur.keepsMarks && !s.cur.marked then s.stat .mark
  else s.stat (.stall [])

/-- A trap under a tag: raised at the bundle when the tag is true, else deferred (R52, R131). -/
def State.raiseTag (s : State) (t : Tag) (r : TrapRec) : State :=
  if t.isEmpty then s.stat (.trap r)
  else s.pushHeld { id := 0, tag := t, op := .raise { r with deferred := true } }

/-- Several of them, in turn. -/
def State.raiseAll (s : State) : List (Tag × TrapRec) → State
  | [] => s
  | (t, r) :: l => (s.raiseTag t r).raiseAll l

/-! ### Delivering results -/

/-- The cap of R120: what the register would hold at the due count, as known at issue. -/
def RegFile.wouldHold {w p : Nat} (f : RegFile w p) (x : Pend w p) : Nat :=
  (x.apply (f.at x.dst x.due)).length

/-- The unit time at which a result of latency `lat` exists (R133). -/
def State.readyAt (s : State) (lat : Nat) : Nat := (s.core (coreOf s.latch.n)).act + lat

/-- A pending result: `outs` with its tags, under the operation's literals. -/
def mkPend {w p : Nat} (s : State) (dst lat : Nat) (under : Tag) (outs : List (Tag × Val w p)) : Pend w p :=
  { dst := dst, due := s.latch.ic + lat, seq := s.uid, rdy := s.readyAt lat,
    under := under, alts := outs.map (fun o => { tag := o.1, val := o.2, gen := s.uid }) }

/-- A scalar or address result added to its register, or the stall of R120. -/
def State.addS (s : State) (x : Pend 64 1) : State :=
  if 4 < s.cur.sa.wouldHold x then s.stat (.stall s.cur.capGuards)
  else { s.onCur (fun c => { c with sa := c.sa.add x }) with uid := s.uid + 1 }

/-- A vector result, likewise. -/
def State.addV (s : State) (x : Pend 1024 32) : State :=
  if 4 < s.cur.v.wouldHold x then s.stat (.stall s.cur.capGuards)
  else { s.onCur (fun c => { c with v := c.v.add x }) with uid := s.uid + 1 }

/-- `deliver` into s r: a write of `s0` is discarded (R52, R75). -/
def State.deliverS (s : State) (k : Cond2) (r lat : Nat) (outs : List (Tag × SVal)) : State :=
  if r = 0 then s else s.addS (mkPend s r lat k.alg outs)

def State.deliverA (s : State) (k : Cond2) (r lat : Nat) (outs : List (Tag × SVal)) : State :=
  s.addS (mkPend s (aReg r) lat k.alg outs)

def State.deliverV (s : State) (k : Cond2) (r lat : Nat) (outs : List (Tag × VVal)) : State :=
  s.addV (mkPend s r lat k.alg outs)

/-- A status guard written known (R107, R254). -/
def State.deliverG (s : State) (r lat : Nat) (b : Bool) : State :=
  if r = 0 then s
  else s.onCur (fun c => { c with gpend := laterIns ⟨r, s.latch.ic + lat, .res b, s.readyAt lat⟩ c.gpend })

/-! ### Arrivals -/

/-- An arrival or a `bset` on its way to a barrier of the context's cluster: there in cycle c + 2 (R252). -/
def State.toBarrier (s : State) (n slot ba bar : Nat) (set : Option (BitVec 16 × Bool)) : State :=
  let x : BarIn := BarIn.mk (clusterOf n) bar (s.cycle + 2) (coreOf n) (n % 2 == 1) slot ba set
  { s with barIn := s.barIn ++ [x] }

/-- The combinations in which an operation with an arrive field arrives, with the accesses that each waits for: one for each
combination `xs` of its sources' alternatives, under its guard (R126). -/
def arriveIn (k : Cond2) (h : Hdr) (xs : List (Tag × List Nat)) : List (Tag × List Nat) :=
  if h.arr then xs.map (fun x => (tagAnd k.held x.1, x.2)) else []

/-- The larder entries that they take. -/
def arriveRoom (k : Cond2) (h : Hdr) (xs : List (Tag × List Nat)) : Nat := ((arriveIn k h xs).filter (fun x => !x.1.isEmpty)).length

/-- The arrival of an operation whose result becomes visible at count `due`, once the accesses of its combination have landed
(R139, R253): at that count, or held in the larder under an open literal (R127). -/
def State.arriveOne (s : State) (h : Hdr) (due : Nat) (x : Tag × List Nat) : State :=
  if x.1.isEmpty then s.onCur (fun c => { c with arrP := c.arrP ++
    [⟨due, h.bn.toNat, s.latch.slot, s.latch.ba, x.2, s.uid⟩] })
  else s.pushHeld { id := 0, tag := x.1, op := .arrive h.bn.toNat s.latch.slot s.latch.ba due x.2 }

def State.arriveAll (s : State) (h : Hdr) (due : Nat) : List (Tag × List Nat) → State
  | [] => s
  | x :: l => (s.arriveOne h due x).arriveAll h due l

/-- All the arrivals of an operation; the larder has room for them. -/
def State.arriveAt (s : State) (k : Cond2) (h : Hdr) (due : Nat) (xs : List (Tag × List Nat)) : State :=
  s.arriveAll h due (arriveIn k h xs)

/-- The same for a result of latency `lat` of an operation whose sources hold one alternative each. -/
def State.arriveLat (s : State) (k : Cond2) (h : Hdr) (lat : Nat) : State := s.arriveAt k h (s.latch.ic + lat) [([], [])]

/-- The combinations of the sources of a result. -/
def combos {α : Type} (outs : List (Tag × α)) : List (Tag × List Nat) := outs.map (fun z => (z.1, []))

/-- A result of latency `lat` with the combinations `outs`, then its arrivals, where the larder has room for them (R126, R130). -/
def State.withArrivals {α : Type} (s : State) (k : Cond2) (h : Hdr) (lat : Nat) (outs : List (Tag × α)) (f : State) : State :=
  s.withRoom (arriveRoom k h (combos outs)) false (s.onCur Ctx.reject) (f.arriveAt k h (s.latch.ic + lat) (combos outs))

/-! ### Register operations -/

/-- An operation on registers: off when its guard fails, else `f` runs under its tags (R113, R119). -/
def State.guarded (s : State) (h : Hdr) (f : Cond2 → State) : State :=
  match s.guard h with
  | none => s
  | some k => f k

/-- A scalar operation: results per combination of alternatives, then the arrivals. -/
def State.regS (s : State) (h : Hdr) (r lat : Nat) (outs : List (Tag × SVal)) : State :=
  s.guarded h (fun k => s.withArrivals k h lat outs (s.deliverS k r lat outs))

def State.regA (s : State) (h : Hdr) (r lat : Nat) (outs : List (Tag × SVal)) : State :=
  s.guarded h (fun k => s.withArrivals k h lat outs (s.deliverA k r lat outs))

def val1 (f : Word → Word) (x : SVal) : SVal := ⟨f x.v, x.p, x.f⟩
def val2 (f : Word → Word → Word) (x y : SVal) : SVal := ⟨f x.v y.v, x.p ||| y.p, orF x.f y.f⟩

/-- One result per combination of one, two or three sources (R119). -/
def lift1 {α β : Type} (f : α → β) (xs : List (Tag × α)) : List (Tag × β) := xs.map (fun x => (x.1, f x.2))
def lift2 {α β γ : Type} (f : α → β → γ) (xs : List (Tag × α)) (ys : List (Tag × β)) : List (Tag × γ) :=
  (tagPair xs ys).map (fun z => (z.1, f z.2.1 z.2.2))
def lift3 {α β γ δ : Type} (f : α → β → γ → δ) (xs : List (Tag × α)) (ys : List (Tag × β))
    (zs : List (Tag × γ)) : List (Tag × δ) :=
  (tagPair (tagPair xs ys) zs).map (fun z => (z.1, f z.2.1.1 z.2.1.2 z.2.2))

/-- A known source. -/
def known {w p : Nat} (v : BitVec w) : List (Tag × Val w p) := [([], { v := v })]

/-! ### Waiting operations -/

/-- A source that still holds more than one alternative, if any. -/
def manyAlts (srcs : List (List (Tag × SVal))) : Option (List (Tag × SVal)) :=
  srcs.find? (fun x => decide (1 < x.length))

/-- Operations that wait at the bundle while their guard is open or predicted, or a source holds
alternatives (R126, last row; R164). When the guard fails, nothing happens. -/
def State.waitingN (s : State) (h : Hdr) (many : Bool) (f : Cond2 → State) : State :=
  if !(s.cur.ownOpen h s.latch.ic).isEmpty then s.stat (.stall [])
  else s.guarded h (fun k => if many then s.stat (.stall []) else f k)

def State.waiting (s : State) (h : Hdr) (srcs : List (List (Tag × SVal))) (f : State) : State :=
  s.waitingN h (manyAlts srcs).isSome (fun _ => f)

/-- An operation of a speculative member that R312 names in no row, and whose effect cannot be taken back: it waits for the acceptance
literal as for any open guard, which `cchk` alone resolves, so that the member is rejected (R310). DEDUCED (log 110). -/
def State.underLit (s : State) (f : State) : State :=
  match s.cur.carryTag with
  | l :: _ => s.stat (.stall [l.id])
  | [] => f

/-- Branches and the other operations of R125: an open guard is waited for or collapsed, and then the
guards of a source that holds alternatives, oldest first. A predicted guard counts as its prediction, and its literal
stays with the traps (R131). -/
def State.branchingK (s : State) (h : Hdr) (srcs : List (List (Tag × SVal))) (f : Cond2 → State) : State :=
  let own := s.cur.ownOpen h s.latch.ic
  if s.cur.collapsible.any (fun id => own.contains id) then s.stat (.stall own)
  else s.guarded h (fun k =>
    match manyAlts srcs with
    | some x => s.stat (.stall (s.cur.collapsible.filter (fun id =>
        x.any (fun a => a.1.any (fun l => l.id == id)))))
    | none => f k)

def State.branching (s : State) (h : Hdr) (srcs : List (List (Tag × SVal))) (f : State) : State :=
  s.branchingK h srcs (fun _ => f)

/-- The one value of a source that holds a single alternative. -/
def one (x : List (Tag × SVal)) : SVal :=
  match x with
  | [] => {}
  | a :: _ => a.2

def oneV (x : List (Tag × VVal)) : VVal :=
  match x with
  | [] => {}
  | a :: _ => a.2

/-- A use that raises `POISON` (R353), or the trap of a fault mark (R131). -/
def State.useTrap (s : State) (x : SVal) (ea use : Word) (fatal : Bool) : Option TrapRec :=
  match x.f with
  | some t => some t
  | none => if x.p == 0 then none else some { s.trapRec .poison ea use with forceFatal := fatal }

end Sys2Proof.Machine
end

