-- ==== Sys2Proof/Machine/Flags.lean ====
section
/-! DEFINITION. The guards: what decides an open guard (R115 to R117), its resolution, its collapse (R122),
and the first-event log (R72, R73). -/

namespace Sys2Proof.Machine

/-! ### What a guard is worth -/

def Cond.eval (c : Cond) (x y : Word) : Bool :=
  match c with
  | .eq => x == y
  | .ne => x != y
  | .lt => x.slt y
  | .ltu => x.ult y
  | .le => x.sle y
  | .leu => x.ule y

def GSrc.val : GSrc → Option Word
  | .known v => some v
  | .ref _ => none

/-- The value of a case, when its sources are known. -/
def GLeaf.val : GLeaf → Option Bool
  | .bit b => some b
  | .cmp c x y =>
    match x.val, y.val with
    | some u, some v => some (c.eval u v)
    | _, _ => none

/-- What is known of a literal: the guard's decided value, seen or not (R117). -/
def litKnown (opens : List OpenG) (l : Lit) : Option Bool :=
  match (opens.find? (fun o => o.id == l.id)).bind (fun o => o.decided) with
  | some (b, _) => some (b == l.pos)
  | none => none

/-- The value of a guard, once every case that is still possible agrees (R117). -/
def decideCases (opens : List OpenG) (cases : List (Tag × GLeaf)) : Option Bool :=
  let live := cases.filter (fun c => c.1.all (fun l => litKnown opens l != some false))
  match live with
  | [] => none
  | c :: cs =>
    match c.2.val with
    | some b => if cs.all (fun d => d.2.val == some b) then some b else none
    | none => none

/-- Decide, in order of age, every guard that has become decided in cycle `cyc`. -/
def decideGo (cyc : Nat) : List OpenG → List OpenG → List OpenG
  | done, [] => done
  | done, o :: os =>
    let o' := if o.decided.isSome then o else
      match decideCases done o.cases with
      | some b => { o with decided := some (b, cyc) }
      | none => o
    decideGo cyc (done ++ [o']) os

def decideAll (opens : List OpenG) (cyc : Nat) : List OpenG := decideGo cyc [] opens

/-- Data that a guard waits for has arrived (R117). -/
def GSrc.land (id : Nat) (v : Word) (x : GSrc) : GSrc := if x = .ref id then .known v else x
def GLeaf.land (id : Nat) (v : Word) : GLeaf → GLeaf
  | .bit b => .bit b
  | .cmp c x y => .cmp c (x.land id v) (y.land id v)

def Regs.landGuards (c : Regs) (id : Nat) (v : Word) (cyc : Nat) : Regs :=
  { c with opens := decideAll (c.opens.map (fun o =>
      { o with cases := o.cases.map (fun d => (d.1, d.2.land id v)) })) cyc }

/-! ### Resolution in time -/

/-- The first guard whose resolution bundles of this cycle see (R117). -/
def Ctx.ripe (c : Ctx) (cyc : Nat) : Option OpenG :=
  c.opens.find? (fun o => match o.decided with | some (_, k) => decide (k + 2 ≤ cyc) | none => false)

/-- Resolve the ripe guards. The second answer says that a prediction proved wrong (R123), or, in a
member of a carry round, rejects the member (R315). -/
def resolveGo (cyc : Nat) : Nat → Ctx → Ctx × Bool
  | 0, c => (c, false)
  | k + 1, c =>
    match c.ripe cyc with
    | none => (c, false)
    | some o =>
      match o.decided with
      | none => (c, false)
      | some (b, _) =>
        if (match o.pred with | some p => p != b | none => false) then
          let c1 := { c with wrong := if c.wrong == 0xFFFF then c.wrong else c.wrong + 1 }
          if c.carry.lit.isSome then resolveGo cyc k (c1.resolve o.id b).reject
          else (c1, true)
        else resolveGo cyc k (c.resolve o.id b)

/-- The sense a collapse takes: the hint, or NOHINT (R121, R122). -/
def Ctx.hinted (c : Ctx) (o : OpenG) : Bool :=
  if o.hint = 1 then true else if o.hint = 2 then false else !c.altm.getLsbD 1

/-- A collapse of an open guard to a sense: predicted, and resolved for the alternatives (R122). -/
def Ctx.collapse (c : Ctx) (id : Nat) (b : Bool) : Ctx :=
  let r := c.toRegs.resolveRegs id b
  { c with toRegs := { r with opens := c.opens.map (fun o => if o.id == id then { o with pred := some b } else o) } }

/-! ### A guard operation -/

/-- The cases of an operation under its own literals: elsewhere the old value stands (R115). -/
def underCases (q : Tag) (cases : List (Tag × GLeaf)) (old : Bool) : List (Tag × GLeaf) :=
  if q.isEmpty then cases
  else (cases.filterMap (fun c => let t := tagAnd c.1 q; if tagOk t then some (t, c.2) else none)) ++
    (tagNeg q).map (fun t => (t, GLeaf.bit old))

/-- A guard takes its place in the order of age, which is program order (R112, R98). -/
def openIns (o : OpenG) : List OpenG → List OpenG
  | [] => [o]
  | x :: l => if o.id < x.id then o :: x :: l else x :: openIns o l

/-- A case list that is one known value throughout. -/
def allKnown (cases : List (Tag × GLeaf)) : Option Bool :=
  match cases with
  | [] => none
  | c :: cs =>
    match c.2.val with
    | some b => if cs.all (fun d => d.2.val == some b) then some b else none
    | none => none

/-- Write guard `gd` from its cases (R115): at `ic` + 2, known or open. It waits while `gd` is open, or
where a fifth guard would open. In a member of a carry round the operation performs as if the member were accepted (R312; log 104,
DEDUCED). -/
def State.guardWrite (s : State) (gd hint : Nat) (q : Tag) (cases : List (Tag × GLeaf)) : State :=
  match s.cur.gAt gd s.latch.ic with
  | .opn _ => s.stat (.stall [])
  | .res old =>
    let k := s.cur.carryTag
    let cs := if k.isEmpty then underCases q cases old
      else underCases (q.filter (fun l => !k.contains l)) (restrict k cases) old
    match allKnown cs with
    | some b => s.onCur (fun c => { c with gpend := laterIns ⟨gd, s.latch.ic + 2, .res b, s.readyAt 2⟩ c.gpend })
    | none =>
      if 4 ≤ s.cur.opens.length then s.stat (.stall [])
      else
        { s.onCur (fun c => { c with
            gpend := laterIns ⟨gd, s.latch.ic + 2, .opn s.uid, s.readyAt 2⟩ c.gpend,
            opens := decideAll (openIns { id := s.uid, reg := gd, hint := hint, cases := cs } c.opens) s.cycle })
          with uid := s.uid + 1 }

/-- A guard as a source: its literal, resolved or open, perhaps negated (R114, R115). -/
def Ctx.gSrc (c : Ctx) (r : Nat) (neg : Bool) (t : Nat) : List (Tag × Bool) :=
  match c.gAt r t with
  | .res b => [([], b != neg)]
  | .opn id => [([⟨id, true⟩], !neg), ([⟨id, false⟩], neg)]

/-- The alternatives of a scalar for `gcmp`, overdue landings included (R116). -/
def Ctx.sAtLate (c : Ctx) (r t : Nat) : List (Alt 64 1) :=
  if r = 0 then [{}]
  else (c.sa.pend.filter (fun x => x.dst == r && decide (x.due ≤ t))).foldl Pend.apply (c.sa.held r)

def Alt.src (a : Alt 64 1) : GSrc := match a.ref with | some id => .ref id | none => .known a.val.v

/-! ### The first-event log -/

/-- One event enters `FEL` (R73): its kind must be recorded, and it must come first. -/
def Ctx.felEnter (c : Ctx) (x : FelP) : Ctx :=
  let on := c.fel.getLsbD (62 - x.kind)
  let v := c.fel.getLsbD 63
  let first := decide (x.key.1 < c.felKey.1) || (x.key.1 == c.felKey.1 && (decide (x.key.2.1 < c.felKey.2.1) ||
    (x.key.2.1 == c.felKey.2.1 && decide (x.key.2.2 < c.felKey.2.2))))
  if on && (!v || first) then
    { c with
      felKey := x.key,
      fel := bbit true ++ bits c.fel 58 5 ++ BitVec.ofNat 3 x.kind ++ BitVec.ofNat 1 x.key.2.1 ++
        BitVec.ofNat 7 x.key.2.2 ++ BitVec.ofNat 47 (x.ba / 2) }
  else c

/-- The events due by count `t` whose alternatives are decided. -/
def Ctx.felCommit (c : Ctx) (t : Nat) : Ctx :=
  let ready := fun (x : FelP) => decide (x.due ≤ t) && x.tag.isEmpty
  let c1 := (c.felPend.filter ready).foldl Ctx.felEnter c
  { c1 with felPend := c.felPend.filter (fun x => !ready x) }

end Sys2Proof.Machine
end

