-- ==== Sys2Proof/Machine/Operands.lean ====
section
/-! DEFINITION. The operand forms: immediates, bit-field positions, guard fields, effective addresses and the
other fields that several instructions read alike (R30 and the class chapters' encoding tables). -/

namespace Sys2Proof

/-- The low `w` bits of a value, sign-extended to 64 (R79, R140). -/
def Machine.sextN (w x : Nat) : Word :=
  let y := x % 2 ^ w
  BitVec.ofNat 64 (if 2 * y < 2 ^ w then y else 2 ^ 64 - 2 ^ w + y)


/-- A family I immediate (R83). -/
def IOp.imm (h : Hdr) (o : IOp) : Word :=
  if h.ext then o.imm32.signExtend 64 else o.imm8.signExtend 64

/-- The immediate of `lih`: 32 bits (R84). -/
def IOp.imm32' (h : Hdr) (o : IOp) : BitVec 32 := if h.ext then o.imm32 else o.imm8.signExtend 32

/-- Position and length of a bit-field operation (R84). -/
def IOp.pos (o : IOp) : Nat := o.imm32.toNat % 64
def IOp.len (o : IOp) : Nat := o.imm32.toNat / 256 % 64 + 1

/-- GD and HN (R114). -/
def TOp.gd (o : TOp) : Nat := o.d.toNat % 16
def TOp.hn (o : TOp) : Nat := o.d.toNat / 16

/-- Bit 5 and the low bits of `b` as a register, and as an immediate (R175), which a short form gives in b[4:0] alone. DEDUCED (log 107). -/
def VOp.breg (o : VOp) : Nat := o.b.toNat + (if o.b5 then 32 else 0)
def VOp.imm (o : VOp) : Nat := (if o.b5 then 64 else 0) + (if o.sub.getLsbD 0 then 32 else 0) + o.b.toNat

/-- FO of 0xA to 0xF is illegal in every V operation (R172). -/
def VOp.foOk (o : VOp) : Bool := decide (o.fo.toNat ≤ 9)

/-- The access size in bytes of a `size` code (R44, R139). -/
def sizeBytes (c : BitVec 3) : Nat := if c.toNat < 4 then 2 ^ c.toNat else 2 ^ (c.toNat + 1)

/-- The access size, the effective address from a base, and the post-step in bytes of an M operation
(R139, R140). -/
def MOp.bytes (o : MOp) : Nat := sizeBytes o.size
def MOp.ea (o : MOp) (base : Word) : Word := base + o.off.signExtend 64 * BitVec.ofNat 64 o.bytes
def MOp.stepBytes (o : MOp) : Word := o.step.signExtend 64 * BitVec.ofNat 64 o.bytes

/-- The scalar and the vector that a load's bytes make (R138): sign- or zero-extended, upper bits zero, with
the poison of R150. -/
def bytesS (signed : Bool) (bs : List Byte) (bad : List Bool) : Machine.Val 64 1 :=
  { v := if signed then Machine.sextN (8 * bs.length) (leBytes bs) else BitVec.ofNat 64 (leBytes bs),
    p := bbit (bad.any (fun b => b)) }

/-- The poison of the 32-bit words that hold the bytes of `bad`, first byte first. -/
def wordPoison : Nat → List Bool → BitVec 32
  | _, [] => 0
  | k, b :: bs => (if b then BitVec.ofNat 32 (2 ^ (k / 4)) else 0) ||| wordPoison (k + 1) bs

def bytesV (bs : List Byte) (bad : List Bool) : Machine.Val 1024 32 :=
  { v := BitVec.ofNat 1024 (leBytes bs), p := wordPoison 0 bad }

end Sys2Proof
end

