-- ==== Sys2Proof/Machine/Num.lean ====
section
/-! DEFINITION. Numbers: the floating-point formats (R53, R54), exact values, rounding once to a format (R62,
R63), exact sums and products, and conversions to integers. -/

namespace Sys2Proof.Machine

/-- A floating-point format: exponent and fraction bits, bias; `e4` for E4M3, which has no infinities. -/
structure Fmt where
  eb   : Nat
  mb   : Nat
  bias : Nat
  e4   : Bool := false
  deriving DecidableEq, Repr

/-- The floating-point formats by their codes (R53, R59). -/
def fmtOf (code : Nat) : Option Fmt :=
  match code with
  | 1 => some ⟨8, 23, 127, false⟩
  | 2 => some ⟨5, 10, 15, false⟩
  | 3 => some ⟨8, 7, 127, false⟩
  | 4 => some ⟨4, 3, 7, true⟩
  | 5 => some ⟨5, 2, 15, false⟩
  | _ => none

def fp32 : Fmt := ⟨8, 23, 127, false⟩

/-- The element width in bits of a format code (R59); BPI elements are bytes. -/
def codeWidth (code : Nat) : Nat :=
  match code with
  | 1 => 32
  | 2 => 16
  | 3 => 16
  | 4 => 8
  | 5 => 8
  | 6 => 8
  | 7 => 16
  | 8 => 32
  | 9 => 64
  | _ => 8

def isIntCode (code : Nat) : Bool := decide (6 ≤ code ∧ code ≤ 9)

/-- The width of a floating-point format. -/
def Fmt.width (f : Fmt) : Nat := 1 + f.eb + f.mb

/-- The events of R73, in table order. -/
inductive Ev where
  | invalid | divZero | overflow | underflow | inexact
  deriving DecidableEq, Repr

def Ev.code : Ev → Nat
  | .invalid => 0
  | .divZero => 1
  | .overflow => 2
  | .underflow => 3
  | .inexact => 4

/-- An exact value: a NaN, an infinity, or (-1)^neg x m x 2^e, a little more in magnitude where `more`. -/
inductive Ex where
  | nan
  | inf (neg : Bool)
  | num (neg : Bool) (m : Nat) (e : Int) (more : Bool)
  deriving DecidableEq, Repr

def Ex.zero (neg : Bool) : Ex := .num neg 0 0 false

def Ex.isNan : Ex → Bool
  | .nan => true
  | _ => false
def Ex.isZero : Ex → Bool
  | .num _ m _ more => m == 0 && !more
  | _ => false
def Ex.isInf : Ex → Bool
  | .inf _ => true
  | _ => false
def Ex.neg? : Ex → Bool
  | .nan => false
  | .inf n => n
  | .num n _ _ _ => n
def Ex.negate : Ex → Ex
  | .nan => .nan
  | .inf n => .inf (!n)
  | .num n m e x => .num (!n) m e x

/-- The value of an encoding (R53, R54). -/
def Fmt.dec (f : Fmt) (v : Nat) : Ex :=
  let fr := v % 2 ^ f.mb
  let ex := v / 2 ^ f.mb % 2 ^ f.eb
  let s := v / 2 ^ (f.mb + f.eb) % 2 == 1
  if ex = 2 ^ f.eb - 1 && (!f.e4 || fr = 2 ^ f.mb - 1) then
    (if fr = 0 && !f.e4 then .inf s else .nan)
  else if ex = 0 then .num s fr (1 - (f.bias : Int) - f.mb) false
  else .num s (2 ^ f.mb + fr) ((ex : Int) - f.bias - f.mb) false

def Fmt.sign (f : Fmt) (neg : Bool) : Nat := if neg then 2 ^ (f.eb + f.mb) else 0

/-- The canonical NaN (R54). -/
def Fmt.nan (f : Fmt) : Nat :=
  if f.e4 then 0x7F else (2 ^ f.eb - 1) * 2 ^ f.mb + 2 ^ (f.mb - 1)

/-- Infinity; E4M3 has none and gives its NaN. -/
def Fmt.infinity (f : Fmt) (neg : Bool) : Nat :=
  if f.e4 then 0x7F else f.sign neg + (2 ^ f.eb - 1) * 2 ^ f.mb

/-- The largest finite value. -/
def Fmt.maxFinite (f : Fmt) (neg : Bool) : Nat :=
  f.sign neg + (if f.e4 then 0x7E else (2 ^ f.eb - 1) * 2 ^ f.mb - 1)

/-- Rounding modes: 0 `rne`, 1 `rtz`, 2 `rup`, 3 `rdn` (R62). Whether a magnitude is rounded up, from its
kept part, the part cut off relative to half of its unit, and its sign. -/
def roundUp (rm : Nat) (neg : Bool) (odd : Bool) (inexact : Bool) (cmpHalf : Ordering) : Bool :=
  match rm with
  | 0 =>
    match cmpHalf with
    | .gt => true
    | .eq => odd
    | .lt => false
  | 1 => false
  | 2 => inexact && !neg
  | _ => inexact && neg

/-- m / 2^drop rounded, and whether bits were lost. -/
def roundNat (rm : Nat) (neg : Bool) (m drop : Nat) (more : Bool) : Nat × Bool :=
  let q := m / 2 ^ drop
  let r := m % 2 ^ drop
  let inexact := r != 0 || more
  let half : Ordering :=
    if drop = 0 then .lt
    else if r < 2 ^ (drop - 1) then .lt
    else if r = 2 ^ (drop - 1) then (if more then .gt else .eq) else .gt
  (if roundUp rm neg (q % 2 == 1) inexact half then q + 1 else q, inexact)

/-- A magnitude scaled so that at least `k` bits stand below its leading bit. -/
def widen (m : Nat) (e : Int) (k : Nat) : Nat × Int :=
  let l := m.log2
  if l < k then (m * 2 ^ (k - l), e - (k - l : Nat)) else (m, e)

/-- Beyond the range (R63). -/
def Fmt.over (f : Fmt) (rm : Nat) (neg sat : Bool) : Nat :=
  if sat then f.maxFinite neg
  else
    match rm with
    | 0 => f.infinity neg
    | 1 => f.maxFinite neg
    | 2 => if neg then f.maxFinite neg else f.infinity neg
    | _ => if neg then f.infinity neg else f.maxFinite neg

/-- An exact value rounded once to a format, with the event it raises by itself (R62, R63, R73). A value that
is tiny after rounding with an unbounded exponent is rounded from the exact value in the subnormal range
(log 13, DEDUCED). A finite value too large for E4M3 that becomes its NaN is a NaN made from operands that hold none: invalid, the
first kind in table order (R73; log 88, DEDUCED). -/
def Fmt.round (f : Fmt) (rm : Nat) (sat : Bool) : Ex → Nat × Option Ev
  | .nan => (f.nan, none)
  | .inf neg =>
    if sat then (f.maxFinite neg, none)
    else if f.e4 then (f.nan, some .invalid)
    else (f.infinity neg, none)
  | .num neg m0 e0 more =>
    if m0 = 0 && !more then (f.sign neg, none)
    else
      let w := widen (if m0 = 0 then 1 else m0) e0 (f.mb + 2)
      let m := w.1
      let e := w.2
      let l := m.log2
      let r := roundNat rm neg m (l - f.mb) more
      let ex : Int := e + l + (if r.1 = 2 ^ (f.mb + 1) then 1 else 0)
      let emin : Int := 1 - f.bias
      if ex < emin then
        let q : Int := emin - f.mb
        let d := (q - e).toNat
        let t := roundNat rm neg m d more
        (f.sign neg + t.1, if t.2 then some .underflow else none)
      else
        let fr := if r.1 = 2 ^ (f.mb + 1) then 0 else r.1 - 2 ^ f.mb
        let be := (ex + f.bias).toNat
        if (if f.e4 then decide (16 ≤ be) || (be == 15 && fr == 7) else decide (2 ^ f.eb - 1 ≤ be)) then
          (f.over rm neg sat, some (if f.e4 && f.over rm neg sat == f.nan then .invalid else .overflow))
        else (f.sign neg + be * 2 ^ f.mb + fr, if r.2 then some .inexact else none)

/-! ### Exact arithmetic -/

/-- A sum of two exact numbers without `more`. An exact zero sum is +0, −0 toward −∞, and keeps the sign of two
zeros that agree. -/
def exAddNum (rm : Nat) (n1 : Bool) (m1 : Nat) (e1 : Int) (n2 : Bool) (m2 : Nat) (e2 : Int) : Ex :=
  let e := min e1 e2
  let a := m1 * 2 ^ (e1 - e).toNat
  let b := m2 * 2 ^ (e2 - e).toNat
  if n1 = n2 then .num n1 (a + b) e false
  else if a = b then .zero (rm == 3)
  else if b < a then .num n1 (a - b) e false
  else .num n2 (b - a) e false

/-- The exact sum, and whether it is invalid: ∞ − ∞. -/
def Ex.add (rm : Nat) (x y : Ex) : Ex × Bool :=
  match x, y with
  | .nan, _ => (.nan, false)
  | _, .nan => (.nan, false)
  | .inf a, .inf b => if a = b then (.inf a, false) else (.nan, true)
  | .inf a, _ => (.inf a, false)
  | _, .inf b => (.inf b, false)
  | .num n1 m1 e1 _, .num n2 m2 e2 _ => (exAddNum rm n1 m1 e1 n2 m2 e2, false)

/-- The exact product, and whether it is invalid: 0 × ∞. -/
def Ex.mul (x y : Ex) : Ex × Bool :=
  match x, y with
  | .nan, _ => (.nan, false)
  | _, .nan => (.nan, false)
  | .inf a, .inf b => (.inf (a != b), false)
  | .inf a, .num b m _ _ => if m = 0 then (.nan, true) else (.inf (a != b), false)
  | .num a m _ _, .inf b => if m = 0 then (.nan, true) else (.inf (a != b), false)
  | .num n1 m1 e1 _, .num n2 m2 e2 _ => (.num (n1 != n2) (m1 * m2) (e1 + e2) false, false)

/-- The event of an operation: invalid first, else that of the rounding (R73). -/
def withInvalid (inv : Bool) (r : Nat × Option Ev) : Nat × Option Ev :=
  (r.1, if inv then some .invalid else r.2)

def Fmt.add (f : Fmt) (rm : Nat) (sat : Bool) (x y : Nat) : Nat × Option Ev :=
  let r := (f.dec x).add rm (f.dec y)
  withInvalid r.2 (f.round rm sat r.1)

def Fmt.mul (f : Fmt) (rm : Nat) (sat : Bool) (x y : Nat) : Nat × Option Ev :=
  let r := (f.dec x).mul (f.dec y)
  withInvalid r.2 (f.round rm sat r.1)

/-- ±(x × y) + z with one rounding. -/
def Fmt.fma (f : Fmt) (rm : Nat) (sat negP negZ : Bool) (x y z : Nat) : Nat × Option Ev :=
  let p := (f.dec x).mul (f.dec y)
  let p1 := if negP then p.1.negate else p.1
  let z1 := if negZ then (f.dec z).negate else f.dec z
  let r := p1.add rm z1
  withInvalid ((p.2 && !z1.isNan) || r.2) (f.round rm sat r.1)

/-- An exact number against another: numbers compared by value, ±0 equal. No NaN. -/
def exLe (x y : Ex) : Bool :=
  match x, y with
  | .nan, _ => false
  | _, .nan => false
  | .inf a, .inf b => a || !b
  | .inf a, _ => a
  | _, .inf b => !b
  | .num n1 m1 e1 _, .num n2 m2 e2 _ =>
    let e := min e1 e2
    let a : Int := (m1 * 2 ^ (e1 - e).toNat : Nat)
    let b : Int := (m2 * 2 ^ (e2 - e).toNat : Nat)
    decide ((if n1 then -a else a) ≤ (if n2 then -b else b))
def exEq (x y : Ex) : Bool := exLe x y && exLe y x
def exLt (x y : Ex) : Bool := exLe x y && !exLe y x

/-! ### Integers -/

/-- An exact value rounded to an integer by a mode; `none` for a NaN or an infinity. -/
def Ex.toInt (rm : Nat) : Ex → Option (Int × Bool)
  | .num neg m e more =>
    let r := if 0 ≤ e then (m * 2 ^ e.toNat, more) else roundNat rm neg m (-e).toNat more
    some (if neg then -(r.1 : Int) else r.1, r.2)
  | _ => none

def intMin (w : Nat) : Int := -(2 ^ (w - 1) : Nat)
def intMax (w : Nat) : Int := (2 ^ (w - 1) : Nat) - 1

/-- A value as a `w`-bit two's complement encoding. -/
def intEnc (w : Nat) (i : Int) : Nat := (i % (2 ^ w : Nat)).toNat
/-- The value of an encoding. -/
def intDec (w v : Nat) : Int :=
  let x := v % 2 ^ w
  if x < 2 ^ (w - 1) then x else (x : Int) - (2 ^ w : Nat)

def clampI (lo hi i : Int) : Int := if i < lo then lo else if hi < i then hi else i

/-- An integer as an exact value. -/
def exOfInt (i : Int) : Ex := .num (decide (i < 0)) i.natAbs 0 false

/-- Conversion of an exact value to a `w`-bit integer (R63, R73). -/
def toIntFmt (w rm : Nat) (sat : Bool) (x : Ex) : Nat × Option Ev :=
  match x.toInt rm with
  | some (i, inexact) =>
    if intMin w ≤ i ∧ i ≤ intMax w then (intEnc w i, if inexact then some .inexact else none)
    else (intEnc w (if sat then clampI (intMin w) (intMax w) i else intMin w), some .invalid)
  | none =>
    (if sat then (match x with
      | .inf neg => intEnc w (if neg then intMin w else intMax w)
      | _ => 0)
     else intEnc w (intMin w), some .invalid)

/-! ### Bit planes (R58) -/

/-- What a reader of `p` planes sees of the element `n`. -/
def bpiVal (p : Nat) (n : Int) : Int :=
  let u : Int := (2 ^ (8 - p) : Nat)
  n / u * u + (if p < 8 then ((2 ^ (7 - p) : Nat) : Int) else 0)

/-- Round to the nearest value of the BPIp set in a mode, clamped to its ends (R63). -/
def toBpi (p rm : Nat) (x : Ex) : Int :=
  let u : Int := (2 ^ (8 - p) : Nat)
  let h : Int := if p < 8 then ((2 ^ (7 - p) : Nat) : Int) else 0
  let lo : Int := -128 + h
  let hi : Int := if p < 8 then 128 - h else 127
  match x with
  | .nan => 0
  | .inf neg => if neg then lo else hi
  | .num .. =>
    let y := ((x.add rm (exOfInt (-h))).1)
    let z := match y with
      | .num n m e more => Ex.num n m (e - (8 - p : Nat)) more
      | w => w
    match z.toInt rm with
    | some (k, _) => clampI lo hi (k * u + h)
    | none => 0

end Sys2Proof.Machine
end

