-- ==== Sys2Proof/Machine/Call.lean ====
section
/-! DEFINITION. The fields of a matrix call (R66, R202), the registers of a routine and what its words do to them (R222), and the
bytes that it reads and writes (R202, R219). -/

namespace Sys2Proof

/-- A bit and a field of a microword's operand (R222). -/
def UopArg.b (u : UopArg) (i : Nat) : Bool := bit u.arg i
def UopArg.f (u : UopArg) (lo n : Nat) : Nat := (bits u.arg lo n).toNat

end Sys2Proof

namespace Sys2Proof.Machine

/-! ### The fields of a call (R202, R66) -/

def Routine.m (r : Routine) (k : Nat) : Word := r.mp.getD k 0
def Routine.lda (r : Routine) : Nat := (bits (r.m 2) 0 32).toNat
def Routine.ldb (r : Routine) : Nat := (bits (r.m 2) 32 32).toNat
def Routine.t0 (r : Routine) : Nat := (bits (r.m 3) 0 16).toNat
def Routine.mt (r : Routine) : Nat := (bits (r.m 3) 16 8).toNat
def Routine.nt (r : Routine) : Nat := (bits (r.m 3) 24 8).toNat
def Routine.kTot (r : Routine) : Nat := (bits (r.m 4) 0 32).toNat
def Routine.flag (r : Routine) (i : Nat) : Bool := bit (r.m 7) i
def Routine.daF (r : Routine) : Nat := (bits (r.m 7) 8 4).toNat
def Routine.dbF (r : Routine) : Nat := (bits (r.m 7) 12 4).toNat
/-- Stored depths: 0 means 8. -/
def Routine.dA (r : Routine) : Nat := if r.daF = 0 then 8 else r.daF
def Routine.dB (r : Routine) : Nat := if r.dbF = 0 then 8 else r.dbF
def Routine.ma (r : Routine) : Nat := (bits r.fmt 8 4).toNat
def Routine.mb (r : Routine) : Nat := (bits r.fmt 12 4).toNat
def Routine.md (r : Routine) : Nat := (bits r.fmt 16 4).toNat
def Routine.bpa (r : Routine) : Nat := (bits r.fmt 20 4).toNat
def Routine.bpb (r : Routine) : Nat := (bits r.fmt 24 4).toNat
def Routine.rm (r : Routine) : Nat := (bits r.fmt 30 2).toNat

/-- The tiles of a core's accumulator storage (R202). -/
def Core.tiles (d : Core) : Nat := 16 * d.accg.toNat

/-- The pairs of R198: 1 FP8, 2 BF16, 3 BPI, 0 none. -/
def pairOf (ma mb : Nat) : Nat :=
  if (ma = 4 ∨ ma = 5) ∧ (mb = 4 ∨ mb = 5) then 1
  else if ma = 3 ∧ mb = 3 then 2
  else if ma = 10 ∧ mb = 10 then 3
  else 0

/-- What K must be a multiple of (R220): 64, 32 or 512. -/
def kUnit (pair : Nat) : Nat := match pair with | 2 => 32 | 3 => 512 | _ => 64

/-- The size of an element drained in format `md`, in bytes. -/
def mdSize (md : Nat) : Nat := codeWidth md / 8

/-! ### The registers of a routine (R222) -/

/-- Addresses are 64 bits wide. -/
def addr64 (a : Nat) : Nat := a % 2 ^ 64

/-- A pointer with a displacement, modulo 2^64. -/
def shift64 (a d : Nat) : Nat := addr64 (a + d)

/-- The place of tile T within the call: i, j and the tile's number (R202). -/
def Routine.tileNo (r : Routine) : Nat := r.t - r.tb
def Routine.tileI (r : Routine) : Nat := r.tileNo / max 1 r.nt
def Routine.tileJ (r : Routine) : Nat := r.tileNo % max 1 r.nt

/-- The address of the scale byte of row `m` (R219, R222). -/
def Routine.scaleAt (r : Routine) (m : Nat) : Nat :=
  if r.std then (r.m 6).toNat + (32 * r.tileI + m) * r.nt + r.tileJ else r.ps + m

/-- Pointers after a step (R222). -/
def Routine.stepA (r : Routine) (aa : Bool) : Routine :=
  if !aa then r
  else if r.ma = 10 then
    (if r.ka + 1 < r.plA then { r with ka := r.ka + 1 } else { r with ka := 0, pa := shift64 r.pa (64 * r.dA) })
  else { r with pa := shift64 r.pa (if r.kmA then 64 / mdSize r.ma * r.lda else 64) }
def Routine.stepB (r : Routine) (ab : Bool) : Routine :=
  if !ab then r
  else if r.mb = 10 then
    (if r.kb + 1 < r.plB then { r with kb := r.kb + 1 } else { r with kb := 0, pb := shift64 r.pb (64 * r.dB) })
  else { r with pb := shift64 r.pb (if r.kmB then 64 / mdSize r.mb * r.ldb else 64) }

/-- The four modes of `ADVA`. -/
def Routine.advA (r : Routine) (mode : Nat) (imm : BitVec 32) : Routine :=
  let d := if r.kmA then 32 * mdSize r.ma else 32 * r.lda
  match mode with
  | 0 => { r with pa := shift64 r.pa (imm.signExtend 64).toNat, ka := 0 }
  | 1 => { r with pa := r.ra, ka := 0 }
  | 2 => { r with ra := shift64 r.ra d, pa := shift64 r.ra d, ka := 0 }
  | _ => { r with ra := r.ora, pa := r.ora, ka := 0 }
def Routine.advB (r : Routine) (mode : Nat) (imm : BitVec 32) : Routine :=
  let d := if r.kmB then 32 * mdSize r.mb else 32 * r.ldb
  match mode with
  | 0 => { r with pb := shift64 r.pb (imm.signExtend 64).toNat, kb := 0 }
  | 1 => { r with pb := r.rb, kb := 0 }
  | 2 => { r with rb := shift64 r.rb d, pb := shift64 r.rb d, kb := 0 }
  | _ => { r with rb := r.orb, pb := r.orb, kb := 0 }

/-- A completed drain of tile T (R222): PD by PDM, and with Q the scale bytes of the next tile lie behind this one's. DESIGN CHOICE
(log 112): the row names the scale bytes of one tile, and does not say whether PS moves. -/
def Routine.drained (r : Routine) (u : UopArg) : Routine :=
  let r1 := { r with drow := 0, ps := if u.b 57 then shift64 r.ps 32 else r.ps }
  match u.f 55 2 with
  | 1 => { r1 with pd := shift64 r1.pd (32 * mdSize r1.md) }
  | 2 => { r1 with rd := shift64 r1.rd (32 * r1.ldb), pd := shift64 r1.rd (32 * r1.ldb) }
  | _ => r1

/-- The count of a `LOOPU` (R222). -/
def Routine.loopCount (r : Routine) (u : UopArg) : Nat :=
  let n := if u.b 57 then (r.m (u.f 48 3)).toNat / 2 ^ u.f 40 6 % 2 ^ 24 else u.f 0 24
  if n = 0 then 2 ^ 24 else n

/-- The next word, when a word's LE is honoured (R222, R223). -/
def Routine.advance (r : Routine) (le : Bool) : Option Routine :=
  let r1 : Option Routine :=
    if !le then some { r with uw := r.uw + 1 }
    else
      match r.loops with
      | [] => none
      | (a, n) :: l => if n ≤ 1 then some { r with loops := l, uw := r.uw + 1 } else some { r with loops := (a, n - 1) :: l, uw := a }
  match r1 with
  | none => none
  | some x => if x.prog.length ≤ x.uw then none else some x

/-- The micro-operation that a microword holds (R222); words that are never installed act as none. -/
def uopOf (w : Word) : Option Instr :=
  let u : UopArg := ⟨bit w 58, bits w 0 58⟩
  match (bits w 59 5).toNat with
  | 0 => some (.uopNop u)
  | 1 => some (.uopStep u)
  | 2 => some (.uopAdva u)
  | 3 => some (.uopAdvb u)
  | 4 => some (.uopLoopu u)
  | 5 => some (.uopAcc u)
  | 6 => some (.uopClr u)
  | 7 => some (.uopDrn u)
  | 8 => some (.uopProv u)
  | 9 => some (.uopWin u)
  | 10 => some (.uopBpip u)
  | 11 => some (.uopTrn u)
  | 12 => some (.uopScl u)
  | 13 => some (.uopArr u)
  | 14 => some (.uopEnd u)
  | _ => none

/-- A routine at its start (R222). -/
def Routine.begin (r : Routine) : Routine :=
  let a := (r.m 0).toNat
  let b := (r.m 1).toNat
  { r with
    begun := true, uw := 0, loops := [], pa := a, ra := a, ora := a, pb := b, rb := b, orb := b, pd := b, rd := b,
    qa := (r.m 5).toNat, qb := (r.m 6).toNat, ps := (r.m 6).toNat, t := r.t0, tb := r.t0, plA := r.bpa, plB := r.bpb,
    prov := r.prov &&& 0x0200000000000000, row := 0, kstep := 0, ka := 0, kb := 0, drow := 0 }

/-! ### The bytes of a routine -/

/-- `rows` rows of `len` bytes, `stride` apart, as ranges. -/
def rowSpans (base rows stride len : Nat) : List (Nat × Nat) :=
  (upTo 0 rows).map (fun m => (base + m * stride, base + m * stride + len))

/-- The bytes of one operand of a GEMM (R57, R219): 32 rows for each of `tiles` tiles, over K; of a BPI block the planes that are
read. -/
def Routine.operandSpans (r : Routine) (base stride tiles code dep planes : Nat) (kMajor : Bool) : List (Nat × Nat) :=
  if code = 10 then
    (upTo 0 (r.kTot / 512)).flatMap (fun b => rowSpans (base + 64 * dep * b) (32 * tiles) stride (64 * min planes dep))
  else if kMajor then rowSpans base r.kTot stride (32 * tiles * mdSize code)
  else rowSpans base (32 * tiles) stride (r.kTot * mdSize code)

/-- The bytes of the scale streams of a GEMM (R219): one stream has 32 bytes a tile for each step. -/
def Routine.scaleSpans (r : Routine) : List (Nat × Nat) :=
  let steps := r.kTot / kUnit (pairOf r.ma r.mb)
  let one := fun (k tiles : Nat) => let a := (r.m k).toNat % 2 ^ 48; (a, a + steps * 32 * tiles)
  (if r.flag 1 then [one 5 r.mt] else []) ++ (if r.flag 2 then [one 6 r.nt] else [])

/-- The ranges of bytes that a standard routine reads and writes, as its parameters give them (R202, R219). -/
def Routine.stdSpans (r : Routine) : List (Nat × Nat) :=
  let a := (r.m 0).toNat % 2 ^ 48
  let b := (r.m 1).toNat % 2 ^ 48
  let q := (r.m 6).toNat % 2 ^ 48
  let rows := 32 * r.mt
  match r.idx with
  | 4 => rowSpans b rows r.ldb (32 * r.nt * mdSize r.md)
  | 5 => (q, q + rows * r.nt) :: rowSpans b rows r.ldb (32 * r.nt * mdSize r.md)
  | 6 => rowSpans a rows r.lda (128 * r.nt)
  | 7 => rowSpans a rows r.lda r.kTot ++ rowSpans b rows r.ldb (r.kTot / 512 * (64 * r.dA))
  | i => r.operandSpans a r.lda r.mt r.ma r.dA r.bpa (2 ≤ i) ++ r.operandSpans b r.ldb r.nt r.mb r.dB r.bpb (i % 2 == 1) ++
      r.scaleSpans

/-- The ranges of one operand of a step at a pointer (R198, R212). -/
def stepSpans (ptr ld code dep planes : Nat) (kMajor : Bool) : List (Nat × Nat) :=
  if code = 10 then rowSpans ptr 32 ld (64 * min planes dep)
  else if kMajor then rowSpans ptr (64 / max 1 (mdSize code)) ld (32 * mdSize code)
  else rowSpans ptr 32 ld 64

/-- The ranges that a word of an installed routine reads or writes (R222). -/
def Routine.uopSpans (r : Routine) : Instr → List (Nat × Nat)
  | .uopStep _ =>
    let qa := r.qa + r.kstep * 32 * r.mt + 32 * r.tileI
    let qb := r.qb + r.kstep * 32 * r.nt + 32 * r.tileJ
    stepSpans r.pa r.lda r.ma r.dA r.plA r.kmA ++ stepSpans r.pb r.ldb r.mb r.dB r.plB r.kmB ++
      (if r.scA then [(qa, qa + 32)] else []) ++ (if r.scB then [(qb, qb + 32)] else [])
  | .uopDrn u => (if u.b 57 then [(r.ps, r.ps + 32)] else []) ++ rowSpans r.pd 32 r.ldb (32 * mdSize r.md)
  | _ => []

/-- A routine behind a word that ran (R222), or nothing where it has ended. -/
def Routine.afterUop (r : Routine) : Instr → Option Routine
  | .uopStep u => ({ (r.stepA (u.b 57)).stepB (u.b 56) with kstep := r.kstep + 1 } : Routine).advance u.le
  | .uopAdva u => (r.advA (u.f 55 2) (bits u.arg 0 32)).advance u.le
  | .uopAdvb u => (r.advB (u.f 55 2) (bits u.arg 0 32)).advance u.le
  | .uopLoopu u =>
    if 4 ≤ r.loops.length then none
    else ({ r with loops := (r.uw + 1, r.loopCount u) :: r.loops } : Routine).advance u.le
  | .uopAcc u => ({ r with t := if u.b 57 then r.t + 1 else r.tb + u.f 0 16, kstep := 0 } : Routine).advance u.le
  | .uopDrn u => (r.drained u).advance u.le
  | .uopBpip u =>
    let n := fun (p q : Nat) => if p = 0 then q else p
    ({ r with plA := n (u.f 54 4) r.plA, plB := n (u.f 50 4) r.plB } : Routine).advance u.le
  | .uopTrn u => ({ r with kmA := u.b 57, kmB := u.b 56 } : Routine).advance u.le
  | .uopScl u => ({ r with scA := u.b 57, scB := u.b 56 } : Routine).advance u.le
  | .uopNop u | .uopClr u | .uopProv u | .uopWin u | .uopArr u => r.advance u.le
  | _ => none

/-- Some range that an installed routine reaches passes a test, its words run one after another as its parameters lead them. -/
def Routine.reaches (f : Nat × Nat → Bool) : Nat → Routine → Bool
  | 0, _ => false
  | k + 1, r =>
    match uopOf (r.prog.getD r.uw 0) with
    | none => false
    | some i =>
      (r.uopSpans i).any f ||
        (match r.afterUop i with
          | some r1 => r1.reaches f k
          | none => false)

/-- Some range of bytes that a call reads or writes, as its parameters and its words give them, passes a test (R161): four nested loops
of 2^24 turns over its words are its bound. DEDUCED (log 84). -/
def Routine.touches (r : Routine) (f : Nat × Nat → Bool) : Bool :=
  if r.op ≠ 0 then false
  else if r.std then r.stdSpans.any f
  else r.begin.reaches f ((r.prog.length + 1) * 2 ^ 96)

end Sys2Proof.Machine
end

