-- ==== Sys2Proof/Machine/Scalar.lean ====
section
/-! DEFINITION. The S slot: scalar and address instructions (R75 to R87) and the guard operations (R114 to
R116). Each meaning gives its result to the shared operations of `Ops`. -/

namespace Sys2Proof.Machine

/-! ### Values -/

/-- Leading zeros, trailing zeros, ones and the first set bit of the low `w` bits (R74). -/
def clzN : Nat → Nat → Nat
  | 0, _ => 0
  | n + 1, x => if x.testBit n then 0 else 1 + clzN n x
def ctzN : Nat → Nat → Nat
  | 0, _ => 0
  | n + 1, x => if x % 2 = 1 then 0 else 1 + ctzN n (x / 2)
def popN : Nat → Nat → Nat
  | 0, _ => 0
  | n + 1, x => x % 2 + popN n (x / 2)
def ffsN (w x : Nat) : Nat := if x % 2 ^ w = 0 then 0 else ctzN w x + 1

/-- The width of a bit count: `sub` 0 to 3 are 64, 32, 16 and 8 bits (R78). -/
def countWidth (sub : BitVec 2) : Nat := 64 / 2 ^ sub.toNat

/-- The width of an extension: `sub` 0 to 2 are 8, 16 and 32 bits (R79). -/
def extWidth (sub : BitVec 2) : Nat := 8 * 2 ^ sub.toNat

def ofBool (b : Bool) : Word := if b then 1 else 0

/-- The upper half of a signed product (R77). -/
def mulhS (x y : Word) : Word := BitVec.ofInt 64 (x.toInt * y.toInt / 2 ^ 64)
def mulhU (x y : Word) : Word := BitVec.ofNat 64 (x.toNat * y.toNat / 2 ^ 64)

/-- Shift amounts are y[5:0] (R77). -/
def amt (y : Word) : Nat := y.toNat % 64

def sMin (x y : Word) : Word := if x.slt y then x else y
def sMax (x y : Word) : Word := if x.slt y then y else x
def uMin (x y : Word) : Word := if x.ult y then x else y
def uMax (x y : Word) : Word := if x.ult y then y else x

def bfxVal (o : IOp) (x : Word) : Word :=
  let f := x.toNat / 2 ^ o.pos % 2 ^ o.len
  if o.imm32.getLsbD 16 then sextN o.len f else BitVec.ofNat 64 f

def bfiVal (o : IOp) (d x : Word) : Word :=
  let m : Word := BitVec.ofNat 64 ((2 ^ o.len - 1) * 2 ^ o.pos)
  (d &&& ~~~m) ||| (BitVec.ofNat 64 (x.toNat % 2 ^ o.len * 2 ^ o.pos) &&& m)

/-- `sel` (R80): poison of any operand, chosen or not, poisons the result (R76). -/
def selVal (a b c : SVal) : SVal :=
  ⟨if c.v != 0 then a.v else b.v, a.p ||| b.p ||| c.p, orF c.f (orF a.f b.f)⟩

/-! ### Shapes -/

/-- `mn d, a, b` (R77). -/
def State.bin (s : State) (h : Hdr) (o : TOp) (lat : Nat) (f : Word → Word → Word) : State :=
  s.regS h o.d.toNat lat (lift2 (val2 f) (s.sSrc o.a.toNat) (s.sSrc o.b.toNat))

/-- `mn d, a`. -/
def State.un (s : State) (h : Hdr) (o : TOp) (f : Word → Word) : State :=
  s.regS h o.d.toNat 1 (lift1 (val1 f) (s.sSrc o.a.toNat))

/-- `mn d, a, imm` (R83). -/
def State.imm (s : State) (h : Hdr) (o : IOp) (lat : Nat) (f : Word → Word → Word) : State :=
  s.regS h o.d.toNat lat (lift1 (val1 (fun x => f x (o.imm h))) (s.sSrc o.a.toNat))

/-! ### Division (R81, R82) -/

/-- bits(v), and the magnitude of a signed value (R82). -/
def bitsN (x : Nat) : Nat := 64 - clzN 64 x
def mag (x : Word) : Nat := x.toInt.natAbs

/-- The latency of one division. -/
def divLat (sg : Bool) (x y : Word) : Nat :=
  let d := if sg then bitsN (mag x) - bitsN (mag y) else bitsN x.toNat - bitsN y.toNat
  18 + (d + 3) / 4

/-- One alternative's division: its value, or the trap of a clean zero divisor. -/
def State.div1 (s : State) (opc : Word) (f : Word → Word → Word) (x y : SVal) : SVal × Option TrapRec :=
  if y.v == 0 && y.p == 0 && y.f.isNone then
    let t := s.trapRec .divZero x.v opc
    (⟨0, x.p, some { t with deferred := true }⟩, some t)
  else (val2 f x y, none)

/-- A division (R82): it waits for the divider, traps on a zero divisor, and occupies the divider. A zero divisor whose trap is
only deferred occupies it as well, and counts in the latency with no quotient bits. DESIGN CHOICE (log 96). -/
def State.divide (s : State) (h : Hdr) (o : TOp) (opc : Word) (sg : Bool) (f : Word → Word → Word) : State :=
  s.guarded h (fun k =>
    if s.latch.ic < s.cur.divBusy then s.stat .wait
    else
      let prs := tagPair (s.sSrc o.a.toNat) (s.sSrc o.b.toNat)
      let res := prs.map (fun z => (z.1, s.div1 opc f z.2.1 z.2.2))
      let lat := (prs.map (fun z => divLat sg z.2.1.v z.2.2.v)).foldl max 18
      let traps := res.filterMap (fun z => z.2.2.map (fun t => (tagAnd k.held z.1, t)))
      match traps.find? (fun t => t.1.isEmpty) with
      | some t => s.stat (.trap t.2)
      | none =>
        let outs := res.map (fun z => (z.1, z.2.1))
        let made := (res.filter (fun z => z.2.2.isNone)).map (fun z => (z.1, []))
        s.withRoom (traps.length + arriveRoom k h made) (!traps.isEmpty) (s.onCur Ctx.reject) (
          let s1 := s.onCur (fun c => { c with divBusy := s.latch.ic + lat })
          let s2 := if o.d = 0 then s1 else s1.addS { mkPend s1 o.d.toNat lat k.alg outs with lock := true }
          (s2.raiseAll traps).arriveAt k h (s.latch.ic + lat) made))

/-! ### The meanings -/

/-- `nop.s`: nothing (R41). -/
def execNopS (_h : Hdr) (_o : TOp) (s : State) : Host.Outcome State Fault Refusal :=
  .next (s)

/-- `add`: x + y (R77). -/
def execAdd (h : Hdr) (o : TOp) (s : State) : Host.Outcome State Fault Refusal :=
  .next (s.bin h o 1 (fun x y => x + y))

/-- `sub`: x − y (R77). -/
def execSub (h : Hdr) (o : TOp) (s : State) : Host.Outcome State Fault Refusal :=
  .next (s.bin h o 1 (fun x y => x - y))

/-- `mul`: the low 64 bits of x × y, latency 3 (R77). -/
def execMul (h : Hdr) (o : TOp) (s : State) : Host.Outcome State Fault Refusal :=
  .next (s.bin h o 3 (fun x y => x * y))

/-- `mulh`: the upper half of the signed product, latency 3 (R77). -/
def execMulh (h : Hdr) (o : TOp) (s : State) : Host.Outcome State Fault Refusal :=
  .next (s.bin h o 3 (mulhS))

/-- `mulhu`: the upper half of the unsigned product, latency 3 (R77). -/
def execMulhu (h : Hdr) (o : TOp) (s : State) : Host.Outcome State Fault Refusal :=
  .next (s.bin h o 3 (mulhU))

/-- `and`: x AND y (R77). -/
def execAnd (h : Hdr) (o : TOp) (s : State) : Host.Outcome State Fault Refusal :=
  .next (s.bin h o 1 (fun x y => x &&& y))

/-- `or`: x OR y (R77). -/
def execOr (h : Hdr) (o : TOp) (s : State) : Host.Outcome State Fault Refusal :=
  .next (s.bin h o 1 (fun x y => x ||| y))

/-- `xor`: x XOR y (R77). -/
def execXor (h : Hdr) (o : TOp) (s : State) : Host.Outcome State Fault Refusal :=
  .next (s.bin h o 1 (fun x y => x ^^^ y))

/-- `andn`: x AND NOT y (R77). -/
def execAndn (h : Hdr) (o : TOp) (s : State) : Host.Outcome State Fault Refusal :=
  .next (s.bin h o 1 (fun x y => x &&& ~~~y))

/-- `shl`: left by y[5:0] (R77). -/
def execShl (h : Hdr) (o : TOp) (s : State) : Host.Outcome State Fault Refusal :=
  .next (s.bin h o 1 (fun x y => x <<< amt y))

/-- `shr`: right by y[5:0], zeros in (R77). -/
def execShr (h : Hdr) (o : TOp) (s : State) : Host.Outcome State Fault Refusal :=
  .next (s.bin h o 1 (fun x y => x >>> amt y))

/-- `sra`: right by y[5:0], the sign in (R77). -/
def execSra (h : Hdr) (o : TOp) (s : State) : Host.Outcome State Fault Refusal :=
  .next (s.bin h o 1 (fun x y => x.sshiftRight (amt y)))

/-- `rotl`: rotated left by y[5:0] (R77). -/
def execRotl (h : Hdr) (o : TOp) (s : State) : Host.Outcome State Fault Refusal :=
  .next (s.bin h o 1 (fun x y => x.rotateLeft (amt y)))

/-- `min`: the smaller, signed (R77). -/
def execMin (h : Hdr) (o : TOp) (s : State) : Host.Outcome State Fault Refusal :=
  .next (s.bin h o 1 (sMin))

/-- `minu`: the smaller, unsigned (R77). -/
def execMinu (h : Hdr) (o : TOp) (s : State) : Host.Outcome State Fault Refusal :=
  .next (s.bin h o 1 (uMin))

/-- `max`: the larger, signed (R77). -/
def execMax (h : Hdr) (o : TOp) (s : State) : Host.Outcome State Fault Refusal :=
  .next (s.bin h o 1 (sMax))

/-- `maxu`: the larger, unsigned (R77). -/
def execMaxu (h : Hdr) (o : TOp) (s : State) : Host.Outcome State Fault Refusal :=
  .next (s.bin h o 1 (uMax))

/-- `seq`: 1 if x = y (R77). -/
def execSeq (h : Hdr) (o : TOp) (s : State) : Host.Outcome State Fault Refusal :=
  .next (s.bin h o 1 (fun x y => ofBool (x == y)))

/-- `sne`: 1 if x ≠ y (R77). -/
def execSne (h : Hdr) (o : TOp) (s : State) : Host.Outcome State Fault Refusal :=
  .next (s.bin h o 1 (fun x y => ofBool (x != y)))

/-- `slt`: 1 if x < y, signed (R77). -/
def execSlt (h : Hdr) (o : TOp) (s : State) : Host.Outcome State Fault Refusal :=
  .next (s.bin h o 1 (fun x y => ofBool (x.slt y)))

/-- `sltu`: 1 if x < y, unsigned (R77). -/
def execSltu (h : Hdr) (o : TOp) (s : State) : Host.Outcome State Fault Refusal :=
  .next (s.bin h o 1 (fun x y => ofBool (x.ult y)))

/-- `div`: the signed quotient, toward zero (R81). -/
def execDiv (h : Hdr) (o : TOp) (s : State) : Host.Outcome State Fault Refusal :=
  .next (s.divide h o 0x06 true BitVec.sdiv)

/-- `divu`: the unsigned quotient (R81). -/
def execDivu (h : Hdr) (o : TOp) (s : State) : Host.Outcome State Fault Refusal :=
  .next (s.divide h o 0x07 false BitVec.udiv)

/-- `rem`: the signed remainder, with the sign of x (R81). -/
def execRem (h : Hdr) (o : TOp) (s : State) : Host.Outcome State Fault Refusal :=
  .next (s.divide h o 0x08 true BitVec.srem)

/-- `remu`: the unsigned remainder (R81). -/
def execRemu (h : Hdr) (o : TOp) (s : State) : Host.Outcome State Fault Refusal :=
  .next (s.divide h o 0x09 false BitVec.umod)

/-- `clz` over the width of `sub` (R78, R74). -/
def execClz (h : Hdr) (o : TOp) (s : State) : Host.Outcome State Fault Refusal :=
  .next (s.un h o (fun x => BitVec.ofNat 64 (clzN (countWidth o.sub) (x.toNat % 2 ^ countWidth o.sub))))

/-- `ctz` over the width of `sub` (R78, R74). -/
def execCtz (h : Hdr) (o : TOp) (s : State) : Host.Outcome State Fault Refusal :=
  .next (s.un h o (fun x => BitVec.ofNat 64 (ctzN (countWidth o.sub) x.toNat)))

/-- `pop` over the width of `sub` (R78, R74). -/
def execPop (h : Hdr) (o : TOp) (s : State) : Host.Outcome State Fault Refusal :=
  .next (s.un h o (fun x => BitVec.ofNat 64 (popN (countWidth o.sub) x.toNat)))

/-- `ffs` over the width of `sub` (R78, R74). -/
def execFfs (h : Hdr) (o : TOp) (s : State) : Host.Outcome State Fault Refusal :=
  .next (s.un h o (fun x => BitVec.ofNat 64 (ffsN (countWidth o.sub) x.toNat)))

/-- `sel`: S[a] where S[c] ≠ 0, else S[b] (R80). -/
def execSel (h : Hdr) (o : TOp) (s : State) : Host.Outcome State Fault Refusal :=
  .next (s.regS h o.d.toNat 1 (lift3 selVal (s.sSrc o.a.toNat) (s.sSrc o.b.toNat) (s.sSrc o.c.toNat)))

/-- `sext` (R79). -/
def execSext (h : Hdr) (o : TOp) (s : State) : Host.Outcome State Fault Refusal :=
  .next (s.un h o (fun x => sextN (extWidth o.sub) x.toNat))

/-- `zext` (R79). -/
def execZext (h : Hdr) (o : TOp) (s : State) : Host.Outcome State Fault Refusal :=
  .next (s.un h o (fun x => BitVec.ofNat 64 (x.toNat % 2 ^ extWidth o.sub)))

/-- `bfx`, `bfx.s` (R84). -/
def execBfx (h : Hdr) (o : IOp) (s : State) : Host.Outcome State Fault Refusal :=
  .next (s.regS h o.d.toNat 1 (lift1 (val1 (bfxVal o)) (s.sSrc o.a.toNat)))

/-- `bfi`: the other bits of S[d] are kept (R84). -/
def execBfi (h : Hdr) (o : IOp) (s : State) : Host.Outcome State Fault Refusal :=
  .next (s.regS h o.d.toNat 1 (lift2 (val2 (bfiVal o)) (s.sSrc o.d.toNat) (s.sSrc o.a.toNat)))

/-- `lea`: A[a] + sext(imm) (R85). -/
def execLea (h : Hdr) (o : IOp) (s : State) : Host.Outcome State Fault Refusal :=
  .next (s.regA h o.d.toNat 1 (lift1 (val1 (fun x => x + o.imm h)) (s.aSrc o.a.toNat)))

/-- `mov` (R77). -/
def execMov (h : Hdr) (o : TOp) (s : State) : Host.Outcome State Fault Refusal :=
  .next (s.un h o (fun x => x))

/-- `amov ad, sa` (R85). -/
def execAmovAS (h : Hdr) (o : TOp) (s : State) : Host.Outcome State Fault Refusal :=
  .next (s.regA h o.d.toNat 1 (s.sSrc o.a.toNat))

/-- `amov sd, aa` (R85). -/
def execAmovSA (h : Hdr) (o : TOp) (s : State) : Host.Outcome State Fault Refusal :=
  .next (s.regS h o.d.toNat 1 (s.aSrc o.a.toNat))

/-- `amov ad, aa` (R85). -/
def execAmovAA (h : Hdr) (o : TOp) (s : State) : Host.Outcome State Fault Refusal :=
  .next (s.regA h o.d.toNat 1 (s.aSrc o.a.toNat))

/-- `li`: sext(imm) (R84). -/
def execLi (h : Hdr) (o : IOp) (s : State) : Host.Outcome State Fault Refusal :=
  .next (s.regS h o.d.toNat 1 (known (o.imm h)))

/-- `lih`: the immediate above S[a][31:0] (R84). -/
def execLih (h : Hdr) (o : IOp) (s : State) : Host.Outcome State Fault Refusal :=
  .next (s.regS h o.d.toNat 1 (lift1 (val1 (fun x => o.imm32' h ++ x.setWidth 32)) (s.sSrc o.a.toNat)))

/-- The condition of a `gcmp` (R114): OPC 0x28 by `sub`, and OPC 0x29. -/
def condOf (sub : BitVec 2) : Cond :=
  match sub.toNat with
  | 0 => .eq
  | 1 => .ne
  | 2 => .lt
  | _ => .ltu
def condOfLe (sub : BitVec 2) : Cond := if sub == 0 then .le else .leu

/-- The trap of a poisoned or faulty source of `gcmp` (R115, R353). -/
def State.gcmpTrap (s : State) (x : Alt 64 1) : Option TrapRec := s.useTrap x.val 0 3 false

/-- `gcmp` (R115): a case for each compatible pair of alternatives; poison raises at the bundle, or is
deferred with the alternative; data still on its way is watched for poison (R116). DEDUCED (log 31). -/
def State.gcmp (s : State) (h : Hdr) (o : TOp) (cd : Cond) : State :=
  s.guarded h (fun k =>
    let xs := s.cur.sAtLate o.a.toNat s.latch.ic
    let ys := s.cur.sAtLate o.b.toNat s.latch.ic
    let cases := (tagPair (xs.map (fun a => (a.tag, a.src))) (ys.map (fun a => (a.tag, a.src)))).map
      (fun z => (z.1, GLeaf.cmp cd z.2.1 z.2.2))
    let traps := (xs ++ ys).filterMap (fun a => (if tagOk (tagAnd k.held a.tag) then s.gcmpTrap a else none).map (fun t =>
      (tagAnd k.held a.tag, t)))
    let watch := (xs ++ ys).filterMap (fun a => (if tagOk (tagAnd k.held a.tag) then a.ref else none).map (fun id =>
      (id, tagAnd k.held a.tag, { s.trapRec .poison 0 3 with deferred := true })))
    match traps.find? (fun t => t.1.isEmpty) with
    | some t => s.stat (.trap t.2)
    | none =>
      s.withRoom traps.length true (s.onCur Ctx.reject) (
        let s1 := s.guardWrite o.gd o.hn k.alg cases
        if s1.latch.stat = .go then
          (s1.onCur (fun c => { c with gwatch := c.gwatch ++ watch })).raiseAll traps
        else s1))

/-- `gand`, `gor`: two guard sources, each perhaps negated (R114, R115). -/
def State.gbin (s : State) (h : Hdr) (o : TOp) (f : Bool → Bool → Bool) : State :=
  s.guarded h (fun k =>
    let src := fun (x : BitVec 6) => s.cur.gSrc (x.toNat % 16) (x.getLsbD 4) s.latch.ic
    s.guardWrite o.gd o.hn k.alg ((tagPair (src o.a) (src o.b)).map (fun z => (z.1, .bit (f z.2.1 z.2.2)))))

/-- `gcmp.eq`, `.ne`, `.lt`, `.ltu` (R114). -/
def execGcmp (h : Hdr) (o : TOp) (s : State) : Host.Outcome State Fault Refusal :=
  .next (s.gcmp h o (condOf o.sub))

/-- `gcmp.le`, `.leu` (R114). -/
def execGcmpLe (h : Hdr) (o : TOp) (s : State) : Host.Outcome State Fault Refusal :=
  .next (s.gcmp h o (condOfLe o.sub))

/-- `gand` (R114). -/
def execGand (h : Hdr) (o : TOp) (s : State) : Host.Outcome State Fault Refusal :=
  .next (s.gbin h o and)

/-- `gor` (R114). -/
def execGor (h : Hdr) (o : TOp) (s : State) : Host.Outcome State Fault Refusal :=
  .next (s.gbin h o or)

/-- `gnot` (R114). -/
def execGnot (h : Hdr) (o : TOp) (s : State) : Host.Outcome State Fault Refusal :=
  .next (s.guarded h (fun k => s.guardWrite o.gd o.hn k.alg ((s.cur.gSrc (o.a.toNat % 16) (o.a.getLsbD 4) s.latch.ic).map (fun z => (z.1, .bit (!z.2))))))

/-- `add` with an immediate (R83). -/
def execAddImm (h : Hdr) (o : IOp) (s : State) : Host.Outcome State Fault Refusal :=
  .next (s.imm h o 1 (fun x y => x + y))

/-- `and` with an immediate (R83). -/
def execAndImm (h : Hdr) (o : IOp) (s : State) : Host.Outcome State Fault Refusal :=
  .next (s.imm h o 1 (fun x y => x &&& y))

/-- `or` with an immediate (R83). -/
def execOrImm (h : Hdr) (o : IOp) (s : State) : Host.Outcome State Fault Refusal :=
  .next (s.imm h o 1 (fun x y => x ||| y))

/-- `xor` with an immediate (R83). -/
def execXorImm (h : Hdr) (o : IOp) (s : State) : Host.Outcome State Fault Refusal :=
  .next (s.imm h o 1 (fun x y => x ^^^ y))

/-- `shl` with an immediate (R83). -/
def execShlImm (h : Hdr) (o : IOp) (s : State) : Host.Outcome State Fault Refusal :=
  .next (s.imm h o 1 (fun x y => x <<< amt y))

/-- `shr` with an immediate (R83). -/
def execShrImm (h : Hdr) (o : IOp) (s : State) : Host.Outcome State Fault Refusal :=
  .next (s.imm h o 1 (fun x y => x >>> amt y))

/-- `sra` with an immediate (R83). -/
def execSraImm (h : Hdr) (o : IOp) (s : State) : Host.Outcome State Fault Refusal :=
  .next (s.imm h o 1 (fun x y => x.sshiftRight (amt y)))

/-- `rotl` with an immediate (R83). -/
def execRotlImm (h : Hdr) (o : IOp) (s : State) : Host.Outcome State Fault Refusal :=
  .next (s.imm h o 1 (fun x y => x.rotateLeft (amt y)))

/-- `mul` with an immediate (R83). -/
def execMulImm (h : Hdr) (o : IOp) (s : State) : Host.Outcome State Fault Refusal :=
  .next (s.imm h o 3 (fun x y => x * y))

/-- `min` with an immediate (R83). -/
def execMinImm (h : Hdr) (o : IOp) (s : State) : Host.Outcome State Fault Refusal :=
  .next (s.imm h o 1 (sMin))

/-- `max` with an immediate (R83). -/
def execMaxImm (h : Hdr) (o : IOp) (s : State) : Host.Outcome State Fault Refusal :=
  .next (s.imm h o 1 (sMax))

/-- `slt` with an immediate (R83). -/
def execSltImm (h : Hdr) (o : IOp) (s : State) : Host.Outcome State Fault Refusal :=
  .next (s.imm h o 1 (fun x y => ofBool (x.slt y)))

/-- `sltu` with an immediate (R83). -/
def execSltuImm (h : Hdr) (o : IOp) (s : State) : Host.Outcome State Fault Refusal :=
  .next (s.imm h o 1 (fun x y => ofBool (x.ult y)))

/-- `seq` with an immediate (R83). -/
def execSeqImm (h : Hdr) (o : IOp) (s : State) : Host.Outcome State Fault Refusal :=
  .next (s.imm h o 1 (fun x y => ofBool (x == y)))

/-- `sne` with an immediate (R83). -/
def execSneImm (h : Hdr) (o : IOp) (s : State) : Host.Outcome State Fault Refusal :=
  .next (s.imm h o 1 (fun x y => ofBool (x != y)))

end Sys2Proof.Machine
end

