-- ==== Sys2Proof/Machine/Access.lean ====
section
/-! DEFINITION. Memory accesses of a context: the translation table (R135), the checks of R137, forwarding
from the larder (R129), fences in force (R161), what an access records (R147, R149, R313, R359), and sending
an access or making it at a port (R144, R145). -/

namespace Sys2Proof.Machine

/-! ### The translation table -/

def TEntry.kind (e : TEntry) : Nat := (bits e.w0 0 3).toNat
def TEntry.ad (e : TEntry) : Nat := (bits e.w0 3 2).toNat
def TEntry.rem (e : TEntry) : Bool := bit e.w0 5
def TEntry.mv (e : TEntry) : Bool := bit e.w0 6
def TEntry.x (e : TEntry) : Bool := bit e.w0 7
def TEntry.w (e : TEntry) : Bool := bit e.w0 8
def TEntry.p (e : TEntry) : Bool := bit e.w0 9
def TEntry.lsz (e : TEntry) : Nat := (bits e.w0 10 6).toNat
def TEntry.vbase (e : TEntry) : Nat := (bits e.w0 16 32).toNat * 0x10000
def TEntry.node (e : TEntry) : Nat := (bits e.w1 48 16).toNat
def TEntry.tbase (e : TEntry) : Nat := (bits e.w1 0 48).toNat

/-- The entry matches a 48-bit address (R17, R135). -/
def TEntry.hits (e : TEntry) (ea : Nat) : Bool :=
  e.kind != 0 && decide (e.vbase ≤ ea ∧ ea < e.vbase + 2 ^ e.lsz)

/-- The matching entry with the lowest index (R17). -/
def tLookup (tab : TMap TEntry) (ea : Nat) : Option TEntry :=
  if 2 ^ 48 ≤ ea then none else (tab.find? (fun e => e.2.hits ea)).map (fun e => e.2)

/-- Where an access goes: the place, the home address, the offset in a scratchpad, its core, and the entry's
movable attribute and alias default. -/
structure Tgt where
  place : Nat := 3
  home  : Nat := 0
  off   : Nat := 0
  core  : Nat := 0
  mv    : Bool := false
  ad    : Nat := 0
  deriving DecidableEq, Repr

/-- The home of a scratch offset; an offset beyond the pool stands for the last bytes of the pool, which are
never in range (R15, R146). -/
def scratchAt (core off : Nat) : Nat :=
  if off < scratchSpan then scratchHome core off else scratchHome core (scratchSpan - 128 + off % 128)

/-- The target of an address through an entry, for an access of core `core` (R135, R136). -/
def TEntry.tgt (e : TEntry) (core ea : Nat) : Tgt :=
  let off := e.tbase + (ea - e.vbase)
  let sc := fun (pl c : Nat) => Tgt.mk pl (scratchAt c off) off c e.mv e.ad
  match e.kind with
  | 1 => sc 0 core
  | 2 =>
    let c := core / 4 * 4 + e.node % 4
    sc (if c = core then 0 else 1) c
  | 3 => sc 2 (e.node % 128)
  | 4 => Tgt.mk 3 off 0 0 e.mv e.ad
  | 5 => Tgt.mk 4 (nodeHome e.node off) 0 0 e.mv e.ad
  | _ => Tgt.mk 5 (nodeHome e.node off) 0 0 e.mv e.ad

/-- Steps 2 to 6 of R137: the target, or the outcome. `fixed` for `ld`, `ldu` and `vld`. -/
def accessCheck (tab : TMap TEntry) (core : Nat) (ea : Word) (n : Nat) (fixed wr : Bool) :
    Sum TrapCode Tgt :=
  if ea.toNat % n ≠ 0 then .inl .misaligned
  else
    match tLookup tab ea.toNat with
    | none => .inl .untranslated
    | some e =>
      if !e.p then .inl .pageFault
      else if fixed && decide (3 ≤ e.kind) then .inl .untimedPlace
      else if wr && !e.w then .inl .noWrite
      else .inr (e.tgt core ea.toNat)

/-- R137 whole, for the operation being run: step 1 is the base's poison. -/
def State.access (s : State) (base : SVal) (ea : Word) (n : Nat) (fixed wr : Bool) : Sum TrapRec Tgt :=
  match s.useTrap base ea 2 false with
  | some t => .inl t
  | none =>
    match accessCheck s.cur.table.core (coreOf s.latch.n) ea n fixed wr with
    | .inl c => .inl { s.trapRec c ea 0 with wr := wr }
    | .inr t => .inr t

/-! ### Outstanding operations and fences -/

/-- The bit of a kind (0 L to 4 M) in a kind set (R30, R158). -/
def kindBit (ks : BitVec 5) (kind : Nat) : Bool := decide (kind ≤ 4) && ks.getLsbD (4 - kind)

/-- The home class of a place, for the scopes of R160: own, cluster, chip, domain. -/
def homeClass (place : Nat) : Nat := if place ≤ 1 then place else if place ≤ 3 then 2 else 3

/-- An operation of the context has not performed. -/
def Ctx.pendingOp (c : Ctx) (id : Nat) : Bool :=
  c.outs.any (fun o => o.id == id && !o.perf) || c.larder.any (fun e => e.id == id && !e.dead)

/-- What a later operation of a kind waits for: the unperformed members of the fences in force (R161). -/
def Ctx.fenced (c : Ctx) (kind : Nat) : List Nat :=
  (c.fences.filter (fun f => kindBit f.ak kind)).flatMap (fun f => f.members.filter c.pendingOp)

/-- An operation has performed for its context (R154, R161). DEDUCED (log 40). -/
def Ctx.performed (c : Ctx) (id : Nat) : Ctx :=
  { c with outs := c.outs.filter (fun o => o.id != id) }

/-- An access enters the outbound queue, and is outstanding (R157). -/
def State.send (s : State) (a : Acc) (kind : Nat) : State :=
  { s.onCtx a.n (fun c => { c with outs := c.outs ++ [⟨a.id, a.seq, kind, homeClass a.place, false, kind == 0 || a.ret, 0⟩] })
    with outq := s.outq ++ [a] }

/-! ### What an access records -/

/-- The first byte of an access that is out of range, by its scratch offset (R146). -/
def State.firstOor (s : State) (core off n : Nat) : Option Nat :=
  let z := scratchBytes (s.core core)
  if off + n ≤ z then none else some (max off z)

/-- `SOOR` and `SOORX` record the first out-of-range access (R147). -/
def State.recordOor (s : State) (n : Nat) (wr : Bool) (place core off len ba : Nat) : State :=
  if 2 < place then s
  else
    match s.firstOor core off len with
    | none => s
    | some f => s.onCtx n (fun c =>
        if c.soor.getLsbD 63 then c
        else { c with
          hw := 0x004 :: c.hw,
          soor := bbit true ++ bbit wr ++ BitVec.ofNat 2 place ++ BitVec.ofNat 7 core ++ (0 : BitVec 6) ++
            BitVec.ofNat 47 (ba / 2),
          soorx := BitVec.ofNat 64 (f % 2 ^ 24) })

/-- A core freezes for the 16 cycles after an error's (R149). A freeze that goes on keeps its beginning (R20). -/
def State.freezeEcc (s : State) (core : Nat) : State :=
  s.onCore core (fun c => { c with
    eccFrom := if c.eccUntil ≠ 0 ∧ s.cycle ≤ c.eccUntil then c.eccFrom else s.cycle, eccUntil := s.cycle + 16 })

/-- An access of bytes of a pool finds its correctable errors: the owner freezes, and a peer issuer with it,
and the words are rewritten (R149). -/
def State.correct (s : State) (home n : Nat) (issuer : Option Nat) : State :=
  let gs := granules home n
  if isScratch home && s.mem.flips.any (fun f => gs.contains f) then
    let s1 := { s with mem := { s.mem with flips := s.mem.flips.filter (fun f => !gs.contains f) } }
    let s2 := s1.freezeEcc (scratchCore home)
    match issuer with
    | some c => s2.freezeEcc c
    | none => s2
  else s

/-- The 64-byte lines of a load or held store of a carry round's member (R313). -/
def State.recordLine (s : State) (st : Bool) (home n : Nat) : State :=
  let ls := upTo (home / 64) ((home + n - 1) / 64 - home / 64 + 1)
  s.onCur (fun c =>
    if c.carry.active then
      { c with carry := if st then { c.carry with stores := ls.foldl sIns c.carry.stores }
                        else { c.carry with loads := ls.foldl sIns c.carry.loads } }
    else c)

/-- The range of a watchpoint register meets an access (R360). -/
def wptHit (w : Word) (kindB : Nat) (ea : Word) (n : Nat) : Bool :=
  let lsz := (bits w 54 6).toNat
  let lo := (bits w 0 48).toNat / 2 ^ lsz * 2 ^ lsz
  bit w 63 && bit w kindB && decide (ea.toNat < lo + 2 ^ lsz ∧ lo < ea.toNat + n)

/-- A stop asked for; the smallest WHY stands, and of one WHY the first (R359). -/
def Ctx.askStop (c : Ctx) (why idx : Nat) : Ctx :=
  match c.stopReq with
  | some (w, _) => if why < w then { c with stopReq := some (why, idx) } else c
  | none => { c with stopReq := some (why, idx) }

/-- A watchpoint asks for a stop before the next bundle (R359). `kindB`: bit 62 loads, 61 stores, 60
atomics. -/
def State.watch (s : State) (kindB : Nat) (ea : Word) (n : Nat) : State :=
  s.onCur (fun c =>
    if !c.dbg.getLsbD 63 then c
    else if wptHit (mget 0xC0000000000000 c.wpt 0) kindB ea n then c.askStop 3 0
    else if wptHit (mget 0xC0000000000000 c.wpt 1) kindB ea n then c.askStop 3 1
    else c)

/-- What one access of the operation being run records at issue. -/
def State.touch (s : State) (kindB : Nat) (ea : Word) (n : Nat) (t : Tgt) : State :=
  let s1 := s.watch kindB ea n
  if kindB = 62 then
    let s2 := s1.recordLine false t.home n
    if t.place ≤ 1 then s2.correct t.home n (if t.place = 1 then some (coreOf s.latch.n) else none) else s2
  else s1

/-! ### Forwarding from the larder -/

/-- A larder tag as the algebra of alternatives sees it: predicted guards as their prediction (R113, R122). -/
def Ctx.algTag (c : Ctx) : Tag → Option Tag
  | [] => some []
  | l :: t =>
    match (c.open? l.id).bind (fun o => o.pred) with
    | some b => if b == l.pos then c.algTag t else none
    | none => (c.algTag t).map (fun u => l :: u)

def overlaps (a n b m : Nat) : Bool := decide (a < b + m ∧ b < a + n)

/-- The held stores of a class that overlap bytes, youngest first, with the stores released in this cycle
(R129, R145). -/
def Ctx.heldStores (c : Ctx) (cls home n : Nat) : List (Tag × Acc) :=
  let pick := fun (t : Tag) (a : Acc) =>
    if a.cls == cls && overlaps home n a.home a.size then (c.algTag t).map (fun u => (u, a)) else none
  (c.freed.filterMap (pick []) ++ c.larder.filterMap (fun e =>
    match e.op with
    | .store a => if e.dead then none else pick e.tag a
    | _ => none)).reverse

/-- What a load is served with: bytes of a held store, or memory. -/
inductive Served where
  | bytes (bs : List Byte) (bad : List Bool) (mark : Option TrapRec)
  | mem
  deriving DecidableEq, Repr

/-- R129 for one alternative of a load, under `t`: the youngest store that holds the bytes whole, older ones and
memory under the contrary tags; `none` while a store that is reached overlaps in part. -/
def serveGo (home n : Nat) (t : Tag) : List (Tag × Acc) → Option (List (Tag × Served))
  | [] => some [(t, .mem)]
  | (u, a) :: l =>
    let tu := tagAnd t u
    if !tagOk tu then serveGo home n t l
    else if a.home ≤ home ∧ home + n ≤ a.home + a.size then
      let here := (tu, Served.bytes ((a.data.drop (home - a.home)).take n)
        ((a.bad.drop (home - a.home)).take n) a.mark)
      (tagNeg u).foldl (fun acc v =>
        let tv := tagAnd t v
        if !tagOk tv then acc
        else
          match acc, serveGo home n tv l with
          | some x, some y => some (x ++ y)
          | _, _ => none) (some [here])
    else none

def State.serve (s : State) (cls : Nat) (t : Tag) (tg : Tgt) (n : Nat) : Option (List (Tag × Served)) :=
  if tg.place ≤ 2 && (s.firstOor tg.core tg.off n).isSome then some [(t, .mem)]
  else serveGo tg.home n t (s.cur.heldStores cls tg.home n)

/-- Results of parts that may each have to wait. -/
def optAll {α : Type} : List (Option (List α)) → Option (List α)
  | [] => some []
  | none :: _ => none
  | some x :: l => (optAll l).map (fun y => x ++ y)

/-! ### Making an access -/

/-- The rank of a write at a port (R145): writes of other cores by core and context, then context B's release
and L operation, then context A's. -/
def portRank (n core : Nat) (release : Bool) : Nat :=
  if coreOf n ≠ core then 10000 + n
  else if n % 2 = 1 then (if release then 20000 else 30000)
  else if release then 40000 else 50000

/-- A write or atomic made at a port in this cycle. -/
def State.atPort (s : State) (rank : Nat) (a : Acc) (bad : List Bool) : State :=
  { s with portW := s.portW ++ [⟨rank, a, bad, true⟩] }

/-- A store or atomic performs: at the port in this cycle for own and peer scratch, else through the outbound
queue (R144, R157). -/
def State.launchAcc (s : State) (a : Acc) (release : Bool) : State :=
  if a.place ≤ 1 then
    (if a.ret then s.onCtx a.n (fun c => { c with outs := c.outs ++ [⟨a.id, a.seq, 2, 0, true, true, 0⟩] }) else s).atPort
      (portRank a.n (scratchCore a.home) release) a []
  else s.send a (if a.kind = .store then 1 else 2)

/-- The post-step of a base (R140): each alternative moves, and keeps the write it comes from (R86). -/
def State.postStep (s : State) (k : Cond2) (r : Nat) (d : Word) : State :=
  if d = 0 then s
  else
    let as := s.cur.aAt r s.latch.ic
    s.addS { mkPend s (aReg r) 1 k.alg ([] : List (Tag × SVal)) with
      alts := as.map (fun a => { a with val := { a.val with v := a.val.v + d } }) }

/-- A post-step that leaves out the alternatives of some tags. -/
def State.postStepBut (s : State) (skip : List Tag) (k : Cond2) (r : Nat) (d : Word) : State :=
  if skip.isEmpty then s.postStep k r d
  else
    let as := s.cur.aAt r s.latch.ic
    if d = 0 || as.all (fun a => skip.contains a.tag) then s
    else s.addS { mkPend s (aReg r) 1 k.alg ([] : List (Tag × SVal)) with
      alts := as.map (fun a => if skip.contains a.tag then a else { a with val := { a.val with v := a.val.v + d } }) }

/-- A result whose alternatives are given whole. One for `s0` is discarded, but the core waits for its landing as for any
other (R19, R141): it stands under the code of no register. -/
def State.addAltsS (s : State) (k : Cond2) (r lat : Nat) (as : List (Alt 64 1)) : State :=
  if r = 0 then
    { s.onCur (fun c => { c with sa := c.sa.add { mkPend s noReg lat k.alg ([] : List (Tag × SVal)) with alts := as, rdy := 0 } })
      with uid := s.uid + 1 }
  else s.addS { mkPend s r lat k.alg ([] : List (Tag × SVal)) with alts := as, rdy := 0 }
def State.addAltsV (s : State) (k : Cond2) (r lat : Nat) (as : List (Alt 1024 32)) : State :=
  s.addV { mkPend s r lat k.alg ([] : List (Tag × VVal)) with alts := as, rdy := 0 }

/-- Porch entries free in a core (R142). -/
def Core.porchFree (c : Core) : Nat := 32 - c.porch.length

end Sys2Proof.Machine
end

