-- ==== Sys2Proof/Machine/LoadStore.lean ====
section
/-! DEFINITION. The loads and stores of the L slot (R138 to R143, R151, R153). -/

namespace Sys2Proof.Machine

/-! ### Shared by every access of the L slot -/

/-- One alternative of an access: its tag, the tag of the base's alternative (R86), the value of the base and of what else
it reads, its effective address, and its target or the trap it raises. -/
structure Try (α : Type) where
  tag : Tag
  raw : Tag
  b   : SVal
  gen : Nat
  x   : α
  ea  : Word
  res : Sum TrapRec Tgt

/-- The alternatives of an M operation's base, each checked by R137, with further sources `xs`. -/
def State.tries {α : Type} (s : State) (o : MOp) (n : Nat) (fixed wr : Bool) (xs : List (Tag × α)) :
    List (Try α) :=
  (tagPair (restrict s.latch.under ((s.cur.aAt o.base.toNat s.latch.ic).map (fun a => (a.tag, a)))) xs).map (fun z =>
    let ea := o.ea z.2.1.val.v
    { tag := z.1, raw := z.2.1.tag, b := z.2.1.val, gen := z.2.1.gen, x := z.2.2, ea := ea,
      res := s.access z.2.1.val ea n fixed wr })

/-- The traps among them, under the operation's tags. -/
def triesTraps {α : Type} (k : Cond2) (ts : List (Try α)) : List (Tag × TrapRec) :=
  ts.filterMap (fun z => match z.res with
    | .inl t => some (tagAnd k.held z.tag, t)
    | .inr _ => none)

/-- The traps of an operation: one under the true tag is raised at the bundle; the others are deferred, where
the larder has room for them and for `more` entries, which with `st` are stores (R131, R130). -/
def State.withTraps (s : State) (traps : List (Tag × TrapRec)) (more : Nat) (f : State → State) (st : Bool := false) : State :=
  match traps.find? (fun t => t.1.isEmpty) with
  | some t => s.stat (.trap t.2)
  | none => s.withRoom (traps.length + more) (st || !traps.isEmpty) (s.onCur Ctx.reject) ((f s).raiseAll traps)

/-- The combinations of guard and base that arrive: those that do not trap, each with the accesses that it waits for, whatever part of it
held stores serve (R126, R129, R139). -/
def madeIn {α β : Type} (ts : List (Try α)) (outs : List (Tag × β)) (refs : β → List Nat) : List (Tag × List Nat) :=
  ts.filterMap (fun z => match z.res with
    | .inl _ => none
    | .inr _ => some (z.tag, (outs.filter (fun p => z.tag.all (fun l => p.1.contains l))).flatMap (fun p => refs p.2)))

/-- Whether some alternative reaches own or peer scratch. -/
def triesNear {α : Type} (ts : List (Try α)) : Bool :=
  ts.any (fun z => match z.res with | .inr t => decide (t.place ≤ 1) | .inl _ => false)

/-- Do something for each alternative that reaches a target. -/
def State.forTries {α : Type} (s : State) (f : State → Try α → Tgt → State) : List (Try α) → State
  | [] => s
  | z :: l =>
    match z.res with
    | .inl _ => s.forTries f l
    | .inr t => (f s z t).forTries f l

/-- The fixed latency of a place (R18). -/
def fixedLat (place : Nat) : Nat := if place = 0 then 4 else 12

/-! ### Loads of fixed latency -/

/-- What a load delivers in one alternative. -/
inductive Got where
  | data (bs : List Byte) (bad : List Bool)
  | fault (t : TrapRec)

def Got.s (signed : Bool) : Got → SVal
  | .data bs bad => bytesS signed bs bad
  | .fault t => { f := some { t with deferred := true } }
def Got.v : Got → VVal
  | .data bs bad => bytesV bs bad
  | .fault t => { f := some { t with deferred := true } }

/-- What an alternative is served with now: held bytes, or memory as it stands before this cycle's writes
(R129, R145; log 83, DEDUCED). -/
def State.gotNow (s : State) (tg : Tgt) (n : Nat) : Served → Got
  | .bytes bs bad f =>
    match f with
    | some t => .fault t
    | none => .data bs bad
  | .mem => .data (s.bytesAt tg.home n) (s.badAt tg.home n)

/-- A load of fixed latency is under way until its data is there: what leaves the core waits for it (R157). -/
def State.underWay (s : State) (t : Tgt) : State :=
  { s.onCur (fun c => { c with outs := c.outs ++
      [⟨s.uid, s.uid, 0, homeClass t.place, true, true, s.readyAt (fixedLat t.place)⟩] }) with uid := s.uid + 1 }

/-- A load of own or peer scratch (R140): the alternatives become visible together, at the largest of their
latencies. `put` delivers them. -/
def State.loadFixed (s : State) (h : Hdr) (o : MOp) (put : State → Cond2 → Nat → List (Tag × Got) → State) :
    State :=
  s.guarded h (fun k =>
    let n := o.bytes
    let ts := s.tries o n true false [([], ())]
    let got := optAll (ts.map (fun z => match z.res with
      | .inl t => some [(z.tag, Got.fault t)]
      | .inr tg => (s.serve o.ac.toNat z.tag tg n).map (fun l => l.map (fun p => (p.1, s.gotNow tg n p.2)))))
    let made := madeIn ts (got.getD []) (fun _ => [])
    s.withTraps (triesTraps k ts) (arriveRoom k h made) (fun s =>
      if triesNear ts && !(s.cur.fenced 0).isEmpty then s.stat .wait
      else
        match got with
        | none => s.stat (.stall [])
        | some outs =>
          let lat := (ts.map (fun z => match z.res with | .inr t => fixedLat t.place | .inl _ => 4)).foldl max 4
          let s1 := put s k lat outs
          let s2 := s1.forTries (fun s z t =>
            ((s.touch 62 z.ea n t).recordOor s.latch.n false t.place t.core t.off n s.latch.ba).underWay t) ts
          (s2.postStep k o.base.toNat o.stepBytes).arriveAt k h (s.latch.ic + lat) made))

def putS (r : Nat) (signed : Bool) (s : State) (k : Cond2) (lat : Nat) (outs : List (Tag × Got)) : State :=
  s.deliverS k r lat (outs.map (fun z => (z.1, z.2.s signed)))
def putV (r : Nat) (s : State) (k : Cond2) (lat : Nat) (outs : List (Tag × Got)) : State :=
  s.deliverV k r lat (outs.map (fun z => (z.1, z.2.v)))

/-! ### Timed requests -/

/-- One part of a timed request: an alternative that is known already, or one that an access will bring. -/
inductive Part where
  | got (g : Got)
  | wait (id : Nat)

def Part.altS (signed : Bool) (gen : Nat) (t : Tag) : Part → Alt 64 1
  | .got g => { tag := t, val := g.s signed, gen := gen }
  | .wait id => { tag := t, ref := some id, gen := gen }
def Part.altV (gen : Nat) (t : Tag) : Part → Alt 1024 32
  | .got g => { tag := t, val := g.v, gen := gen }
  | .wait id => { tag := t, ref := some id, gen := gen }

/-- An access of a timed request begins (R141, R142): own and peer scratch answer after 4 and 12 cycles with
the bytes of this cycle; every other place is reached through the outbound queue. -/
def State.beginTimed (s : State) (a : Acc) : State :=
  let s1 := s.onCore (coreOf a.n) (fun c => { c with porch := c.porch ++ [⟨a.id, a.n, a.due, false, false, false, a.tag⟩] })
  if a.place ≤ 1 then
    let s2 := s1.onCtx a.n (fun c => { c with outs := c.outs ++ [⟨a.id, a.seq, 0, homeClass a.place, true, true, 0⟩] })
    let r : Resp :=
      if a.kind = .tchase then ⟨a, toBytes a.ea 8, [], none, s.cycle + fixedLat a.place, true⟩
      else ⟨a, s.bytesAt a.home a.size, s.badAt a.home a.size, none, s.cycle + fixedLat a.place, true⟩
    { s2 with resps := s2.resps ++ [r] }
  else s1.send a 0

/-- The access of one alternative of an M operation. -/
def State.mkAcc {α : Type} (s : State) (h : Hdr) (o : MOp) (k : Cond2) (kind : AccKind) (z : Try α) (t : Tgt)
    (n due : Nat) (akind : Nat) : Acc :=
  { id := s.uid, n := s.latch.n, kind := kind, seq := s.uid, rel := s.uid, ea := z.ea.toNat, ea0 := z.ea.toNat,
    place := t.place, home := t.home, off := t.off, mv := t.mv, size := n, cls := o.ac.toNat, due := due,
    arr := if h.arr then some h.bn.toNat else none, base := some ⟨o.base.toNat, z.raw, z.gen⟩,
    slot := s.latch.slot, ba := s.latch.ba, scy := s.latch.scy, tag := tagAnd k.held z.tag,
    after := s.cur.fenced akind }

/-- The parts of a timed request, each access begun in turn. What a held store leaves to memory is an access under the contrary
of that store's tag, too (R129). -/
def State.parts (s : State) (h : Hdr) (o : MOp) (k : Cond2) (kind : AccKind) (dst : AccDst) (n due : Nat)
    (fwd : Bool) : List (Try Unit) → Option (State × List (Tag × Part))
  | [] => some (s, [])
  | z :: l =>
    match z.res with
    | .inl t => (s.parts h o k kind dst n due fwd l).map (fun p => (p.1, (z.tag, Part.got (.fault t)) :: p.2))
    | .inr tg =>
      match (if fwd then s.serve o.ac.toNat z.tag tg n else some [(z.tag, Served.mem)]) with
      | none => none
      | some sv =>
        let r := sv.foldl (fun (q : State × List (Tag × Part)) (p : Tag × Served) =>
          match p.2 with
          | .bytes bs bad f =>
            (q.1, q.2 ++ [(p.1, Part.got (match f with | some t => .fault t | none => .data bs bad))])
          | .mem =>
            let a := { q.1.mkAcc h o k kind z tg n due 0 with dst := dst, tag := tagAnd k.held p.1 }
            ({ q.1.beginTimed a with uid := q.1.uid + 1 }, q.2 ++ [(p.1, Part.wait a.id)])) (s, [])
        (r.1.parts h o k kind dst n due fwd l).map (fun p => (p.1, r.2 ++ p.2))

/-- The accesses that the parts of a request wait for. -/
def partIds (ps : List (Tag × Part)) : List Nat := ps.filterMap (fun p => match p.2 with | .wait id => some id | .got _ => none)

/-- A porch place for a request that no access serves. -/
def State.porchFill (s : State) (due : Nat) (ps : List (Tag × Part)) : State :=
  if !(partIds ps).isEmpty then s
  else { s.onCore (coreOf s.latch.n) (fun c =>
    { c with porch := c.porch ++ [⟨s.uid, s.latch.n, due, true, false, false, []⟩] }) with uid := s.uid + 1 }

/-- The access that a part of a request waits for. -/
def Part.refs : Part → List Nat
  | .got _ => []
  | .wait id => [id]

/-- The arrival of a timed request of one alternative: when its value becomes visible (R139). -/
def State.arriveTimed (s : State) (k : Cond2) (h : Hdr) (due : Nat) (ps : List (Tag × Part)) : State :=
  s.arriveAt k h due (ps.map (fun p => (p.1, p.2.refs)))

/-- Whether the porch has room for one access per alternative (R142). -/
def State.porchRoom (s : State) (k : Nat) : Bool := decide (k ≤ (s.core (coreOf s.latch.n)).porchFree)

/-- A timed request (R140, R141): an offset of 0 acts as 1; it waits while the porch has no room. -/
def State.loadTimed (s : State) (h : Hdr) (o : MOp) (kind : AccKind) (dst : AccDst) (n : Nat)
    (put : State → Cond2 → Nat → List (Tag × Part) → State) : State :=
  s.guarded h (fun k =>
    let lof := max 1 o.lof.toNat
    let due := s.latch.ic + lof
    let ts := s.tries o n false false [([], ())]
    let parts := s.parts h o k kind dst n due (kind == .load) ts
    let made := madeIn ts ((parts.map (fun z => z.2)).getD []) Part.refs
    s.withTraps (triesTraps k ts) (arriveRoom k h made) (fun s =>
      if triesNear ts && !(s.cur.fenced 0).isEmpty then s.stat .wait
      else
        match parts with
        | none => s.stat (.stall [])
        | some (s1, ps) =>
          if !s.porchRoom (max 1 (partIds ps).length) then s.stat .wait
          else
          let s2 := (put s1 k lof ps).porchFill due ps
          let s3 := s2.forTries (fun s z t =>
            if kind = .tchase then s.watch 62 z.ea n
            else (s.touch 62 z.ea n t).recordOor s.latch.n false (if t.place ≤ 1 then t.place else 3) t.core t.off n
              s.latch.ba) ts
          (s3.postStep k o.base.toNat o.stepBytes).arriveAt k h due made))

def putPartS (r : Nat) (signed : Bool) (s : State) (k : Cond2) (lat : Nat) (ps : List (Tag × Part)) : State :=
  s.addAltsS k r lat (ps.map (fun p => p.2.altS signed s.uid p.1))
def putPartV (r : Nat) (s : State) (k : Cond2) (lat : Nat) (ps : List (Tag × Part)) : State :=
  s.addAltsV k r lat (ps.map (fun p => p.2.altV s.uid p.1))

/-! ### Stores -/

/-- A store must stay behind: its tag is open, the context keeps marks, or the larder is not empty (R127). -/
def Ctx.holdsStore (c : Ctx) (t : Tag) : Bool := !t.isEmpty || c.keepsMarks || !c.larder.isEmpty

/-- A carry member may not store at a place beyond the module (R312). -/
def Ctx.bars (c : Ctx) (place : Nat) : Bool := c.carry.lit.isSome && decide (4 ≤ place)

/-- The base alternatives of a store that does nothing (R312): they get no post-step. -/
def State.barred {α : Type} (s : State) (ts : List (Try α)) : List Tag :=
  ts.filterMap (fun z => match z.res with
    | .inr t => if s.cur.bars t.place then some z.raw else none
    | .inl _ => none)

/-- One alternative of a store: held, or performed now (R140, R127). Poisoned data raises at the bundle, or at
the release (R151). A carry member may not store beyond the module (R312). -/
def State.storeOne (s : State) (a : Acc) (bad : Option TrapRec) : State :=
  if s.cur.bars a.place then s.raiseTag a.tag (s.trapRec .notSpeculable 0 0)
  else if s.cur.holdsStore a.tag then
    let late : Option TrapRec := bad.map (fun t => { t with deferred := true })
    (s.recordLine true a.home a.size).pushHeld { id := 0, tag := a.tag, op := .store a, arr := a.arr, trap := late }
  else { s.launchAcc a false with uid := s.uid + 1 }

/-- The poison of the first `n` bytes of a value (R150). -/
def valBad {w p : Nat} (x : Val w p) (n : Nat) : List Bool := (upTo 0 n).map (fun i => x.p.getLsbD (8 * i * p / w))

/-- A store (R140): one entry for each compatible pair of base and data (R126). -/
def State.storeOp {w p : Nat} (s : State) (h : Hdr) (o : MOp) (data : List (Tag × Val w p))
    (use : Val w p → Word → Option TrapRec) : State :=
  s.guarded h (fun k =>
    let n := o.bytes
    let ts := s.tries o n false true data
    let now := ts.filterMap (fun z => match z.res with
      | .inl t => some (tagAnd k.held z.tag, t)
      | .inr _ => if s.cur.holdsStore (tagAnd k.held z.tag) then none
                  else (use z.x z.ea).map (fun t => (tagAnd k.held z.tag, t)))
    s.withTraps now (ts.filter (fun z => z.res.isRight)).length (fun s =>
      if triesNear ts && !(s.cur.fenced 1).isEmpty then s.stat .wait
      else
        let s1 := s.forTries (fun s z t =>
          let a := { s.mkAcc h o k .store z t n 0 1 with data := toBytes z.x.v.toNat n, bad := valBad z.x n, mark := z.x.f }
          (if s.cur.bars t.place then s else s.touch 61 z.ea n t).storeOne a (use z.x z.ea)) ts
        s1.postStepBut (s.barred ts) k o.base.toNat o.stepBytes) true)

/-- The trap of a scalar, or of the bytes of a vector, stored poisoned (R151, R353). -/
def State.storeTrapS (s : State) (x : SVal) (ea : Word) : Option TrapRec := s.useTrap x ea 1 false
def State.storeTrapV (s : State) (n : Nat) (x : VVal) (ea : Word) : Option TrapRec :=
  match x.f with
  | some t => some t
  | none => if x.p.toNat % 2 ^ (n / 4) = 0 then none else some (s.trapRec .poison ea 1)

/-! ### The meanings -/

/-- `nop.l`: nothing; its slot disarms (R39). -/
def execNopL (_h : Hdr) (_o : MOp) (s : State) : Host.Outcome State Fault Refusal := .next s

/-- `ld`: sign-extending load of own or peer scratch (R138, R140). -/
def execLd (h : Hdr) (o : MOp) (s : State) : Host.Outcome State Fault Refusal :=
  .next (s.loadFixed h o (putS o.d.toNat true))

/-- `ldu`: zero-extending load (R138). -/
def execLdu (h : Hdr) (o : MOp) (s : State) : Host.Outcome State Fault Refusal :=
  .next (s.loadFixed h o (putS o.d.toNat false))

/-- `vld`: vector load, zero above its width (R138). -/
def execVld (h : Hdr) (o : MOp) (s : State) : Host.Outcome State Fault Refusal :=
  .next (s.loadFixed h o (putV o.d.toNat))

/-- `st`: scalar store (R138, R140, R151). -/
def execSt (h : Hdr) (o : MOp) (s : State) : Host.Outcome State Fault Refusal :=
  .next (s.storeOp h o (s.sSrc o.d.toNat) s.storeTrapS)

/-- `vst`: vector store (R138, R140, R151). -/
def execVst (h : Hdr) (o : MOp) (s : State) : Host.Outcome State Fault Refusal :=
  .next (s.storeOp h o (s.vSrc o.d.toNat) (s.storeTrapV o.bytes))

/-- `ldt`: timed load (R138, R141). -/
def execLdt (h : Hdr) (o : MOp) (s : State) : Host.Outcome State Fault Refusal :=
  .next (s.loadTimed h o .load (.s o.d.toNat true) o.bytes (putPartS o.d.toNat true))

/-- `vldt`: timed vector load (R138, R141). -/
def execVldt (h : Hdr) (o : MOp) (s : State) : Host.Outcome State Fault Refusal :=
  .next (s.loadTimed h o .load (.v o.d.toNat) o.bytes (putPartV o.d.toNat))

/-- `tchase`: the final target of an address (R153). -/
def execTchase (h : Hdr) (o : MOp) (s : State) : Host.Outcome State Fault Refusal :=
  .next (s.loadTimed h o .tchase (.s o.d.toNat false) 8 (putPartS o.d.toNat false))

end Sys2Proof.Machine
end

