-- ==== Sys2Proof/Machine/Atomic.lean ====
section
/-! DEFINITION. The atomics of the L slot (R239 to R245). -/

namespace Sys2Proof.Machine

/-- The new value of an atomic at its home, and whether it writes (R240). Operations 0 to 10 are `aadd`, `aand`,
`aor`, `axor`, `amin`, `amax`, `aminu`, `amaxu`, `afadd`, `axchg`, `acas`; `w` is 32 or 64. -/
def atomNew (aop w m x y : Nat) : Nat × Bool :=
  let m := m % 2 ^ w
  let x := x % 2 ^ w
  let y := y % 2 ^ w
  match aop with
  | 0 => ((m + x) % 2 ^ w, true)
  | 1 => (m &&& x, true)
  | 2 => (m ||| x, true)
  | 3 => (m ^^^ x, true)
  | 4 => (if intDec w m ≤ intDec w x then m else x, true)
  | 5 => (if intDec w m ≤ intDec w x then x else m, true)
  | 6 => (min m x, true)
  | 7 => (max m x, true)
  | 8 => ((fp32.add 0 false m x).1, true)
  | 9 => (x, true)
  | _ => if m = x then (y, true) else (m, false)

/-- The combined operand of two merged requests: the operation on the operands (R240, R243). -/
def atomMerge (aop w x y : Nat) : Nat := (atomNew aop w x y 0).1

/-- Whether the larder holds a store or atomic that overlaps bytes (R245). -/
def Ctx.larderOverlaps (c : Ctx) (home n : Nat) : Bool :=
  c.larder.any (fun e => !e.dead && (match e.op with
    | .store a => overlaps home n a.home a.size
    | .atomic a => overlaps home n a.home a.size
    | _ => false))

/-- What overlapping held entries ask of an atomic that would perform now (R245, R406): the mark, the wait, or
inside a carry round the larder, or for a returning form the trap. -/
def State.behind (s : State) (ret : Bool) (f : State) : State :=
  if s.cur.carry.active then (if ret then s.stat (.trap (s.trapRec .notSpeculable 0 0)) else f)
  else if s.cur.keepsMarks && !s.cur.marked then s.stat .mark
  else s.stat (.stall [])

/-- The operand of an atomic, and the second one of `acas`, with poison and fault marks (R241). -/
def State.atomSrc (s : State) (aop : Nat) (d : BitVec 6) : List (Tag × SVal × SVal) :=
  if aop = 10 then tagPair (s.sSrc d.toNat) (s.sSrc (d.toNat + 1)) else (s.sSrc d.toNat).map (fun z => (z.1, z.2, {}))

/-- The trap of a poisoned operand (R241, R353). -/
def State.atomTrap (s : State) (x : SVal × SVal) (ea : Word) : Option TrapRec :=
  orF (s.useTrap x.1 ea 5 false) (s.useTrap x.2 ea 5 false)

/-- The access of an atomic. -/
def State.atomAcc (s : State) (h : Hdr) (o : MOp) (k : Cond2) (aop : Nat) (z : Try (SVal × SVal)) (t : Tgt) : Acc :=
  { s.mkAcc h o k .atomic z t o.bytes (s.latch.ic + max 1 o.lof.toNat) 2 with
    aop := aop, x := z.x.1.v, y := z.x.2.v, ret := o.ret, mrg := decide (aop < 8) || (aop == 8 && o.mrg),
    dst := if o.ret then .s o.d.toNat (aop != 8) else .none }

/-- The traps of an atomic: those of R137, then a poisoned operand (R241). -/
def State.atomTraps (s : State) (k : Cond2) (ts : List (Try (SVal × SVal))) : List (Tag × TrapRec) :=
  ts.filterMap (fun z => match z.res with
    | .inl t => some (tagAnd k.held z.tag, t)
    | .inr _ => (s.atomTrap z.x z.ea).map (fun t => (tagAnd k.held z.tag, t)))

/-- One alternative of a non-returning atomic: performed now, or held (R126, R245). -/
def State.atomOne (s : State) (a : Acc) : State :=
  if !a.tag.isEmpty then s.pushHeld { id := 0, tag := a.tag, op := .atomic a, arr := a.arr }
  else if s.cur.larderOverlaps a.home a.size then
    s.behind false (s.pushHeld { id := 0, tag := [], op := .atomic a, arr := a.arr })
  else { s.launchAcc a false with uid := s.uid + 1 }

/-- An alternative of an atomic enters the larder: under an open literal, or behind entries that it overlaps (R126, R245). -/
def State.atomHeld {α : Type} (s : State) (k : Cond2) (n : Nat) (z : Try α) : Bool :=
  match z.res with
  | .inl _ => false
  | .inr t => !(tagAnd k.held z.tag).isEmpty || (s.cur.carry.active && s.cur.larderOverlaps t.home n)

/-- A non-returning atomic (R241). -/
def State.atomSend (s : State) (h : Hdr) (o : MOp) (aop : Nat) : State :=
  s.guarded h (fun k =>
    let ts := s.tries o o.bytes false true (s.atomSrc aop o.d)
    s.withTraps (s.atomTraps k ts) (ts.filter (fun z => s.atomHeld k o.bytes z && (s.atomTrap z.x z.ea).isNone)).length (fun s =>
      if triesNear ts && !(s.cur.fenced 2).isEmpty then s.stat .wait
      else
        let s1 := s.forTries (fun s z t =>
          if (s.atomTrap z.x z.ea).isSome then s
          else (s.touch 60 z.ea o.bytes t).atomOne (s.atomAcc h o k aop z t)) ts
        s1.postStep k o.base.toNat o.stepBytes))

/-- A returning atomic (R241): it waits for its guard and its sources, takes a porch entry and lands. -/
def State.atomReturn (s : State) (h : Hdr) (o : MOp) (aop : Nat) : State :=
  let base := s.aSrc o.base.toNat
  let src := if aop = 10 then [base, s.sSrc o.d.toNat, s.sSrc (o.d.toNat + 1)] else [base, s.sSrc o.d.toNat]
  s.waiting h src (
    let k : Cond2 := {}
    let ts := s.tries o o.bytes false true (s.atomSrc aop o.d)
    s.withTraps (s.atomTraps k ts) 0 (fun s =>
      if triesNear ts && !(s.cur.fenced 2).isEmpty then s.stat .wait
      else if !s.porchRoom 1 then s.stat .wait
      else
        match ts.head? with
        | none => s
        | some z =>
          match z.res with
          | .inl _ => s
          | .inr t =>
            if s.cur.larderOverlaps t.home o.bytes then s.behind true s
            else
              let a := s.atomAcc h o k aop z t
              let s1 := s.touch 60 z.ea o.bytes t
              let s2 := { s1.onCore (coreOf a.n) (fun c =>
                { c with porch := c.porch ++ [⟨a.id, a.n, a.due, false, false, false, []⟩] }) with uid := s.uid + 1 }
              let s3 := s2.launchAcc { a with arr := none } false
              let ps := [(([] : Tag), Part.wait a.id)]
              let s4 := putPartS o.d.toNat (aop != 8) s3 k (max 1 o.lof.toNat) ps
              (s4.postStep k o.base.toNat o.stepBytes).arriveTimed k h a.due ps))

/-- An atomic in the form that RET gives. -/
def State.atomic (s : State) (h : Hdr) (o : MOp) (aop : Nat) : State :=
  if o.ret then s.atomReturn h o aop else s.atomSend h o aop

/-- `aadd` (R240). -/
def execAadd (h : Hdr) (o : MOp) (s : State) : Host.Outcome State Fault Refusal := .next (s.atomic h o 0)
/-- `aand` (R240). -/
def execAand (h : Hdr) (o : MOp) (s : State) : Host.Outcome State Fault Refusal := .next (s.atomic h o 1)
/-- `aor` (R240). -/
def execAor (h : Hdr) (o : MOp) (s : State) : Host.Outcome State Fault Refusal := .next (s.atomic h o 2)
/-- `axor` (R240). -/
def execAxor (h : Hdr) (o : MOp) (s : State) : Host.Outcome State Fault Refusal := .next (s.atomic h o 3)
/-- `amin` (R240). -/
def execAmin (h : Hdr) (o : MOp) (s : State) : Host.Outcome State Fault Refusal := .next (s.atomic h o 4)
/-- `amax` (R240). -/
def execAmax (h : Hdr) (o : MOp) (s : State) : Host.Outcome State Fault Refusal := .next (s.atomic h o 5)
/-- `aminu` (R240). -/
def execAminu (h : Hdr) (o : MOp) (s : State) : Host.Outcome State Fault Refusal := .next (s.atomic h o 6)
/-- `amaxu` (R240). -/
def execAmaxu (h : Hdr) (o : MOp) (s : State) : Host.Outcome State Fault Refusal := .next (s.atomic h o 7)
/-- `afadd` (R240, R244). -/
def execAfadd (h : Hdr) (o : MOp) (s : State) : Host.Outcome State Fault Refusal := .next (s.atomic h o 8)
/-- `axchg` (R240). -/
def execAxchg (h : Hdr) (o : MOp) (s : State) : Host.Outcome State Fault Refusal := .next (s.atomic h o 9)
/-- `acas` (R240). -/
def execAcas (h : Hdr) (o : MOp) (s : State) : Host.Outcome State Fault Refusal := .next (s.atomic h o 10)

end Sys2Proof.Machine
end

