-- ==== Sys2Proof/Machine/Control.lean ====
section
/-! DEFINITION. The C slot: transfers, loops, marks, pre-emption points, ends, fusion, the instruction cache,
and the operations on guards (R89 to R110, R124, R125). -/

namespace Sys2Proof

/-- A displacement in halfwords, from `disp` or `imm32` (R89). -/
def CBOp.dist (h : Hdr) (o : CBOp) : Word :=
  if h.ext then o.imm32.signExtend 64 else o.disp.signExtend 64

/-- The value of a C/I operation: `imm14`, or x[31:0] (R89). -/
def CIOp.val (h : Hdr) (o : CIOp) : Nat := if h.ext then o.imm32.toNat else o.imm14.toNat

end Sys2Proof

namespace Sys2Proof.Machine

/-! ### The instruction cache, and the code object as the prefetcher reads it -/

/-- A key of a cache line: the address space and the line's virtual address (R27). -/
def lineKey (asid : BitVec 16) (va : Nat) : Nat := asid.toNat * 2 ^ 48 + (va - va % 64)

def Ctx.asid (c : Ctx) : BitVec 16 := bits c.ttb 48 16

/-- NEWVA of the mark record of the tile that holds a home address (R292). -/
def Mem.newVa (m : Mem) (hm : Nat) : Nat := m.nat (hm - hm % 65536) 8 % 2 ^ 48

/-- A home of another node that is this node's own, by its own number (R324, log 19, DESIGN CHOICE). DEDUCED (log 45). -/
def State.ownHome (s : State) (hm : Nat) : Nat :=
  if 2 ^ 48 ≤ hm && decide (hm / 2 ^ 48 - 1 = s.mod.node.toNat) then hm % 2 ^ 48 else hm

/-- A context's table copies are in use: a kernel holds it, or a launch is preloaded in its granule (R382). -/
def State.hasTable (s : State) (n : Nat) (c : Ctx) : Bool :=
  c.mode != .off || (n % 2 == 1 && s.mod.kernels.any (fun e => e.2.pre && e.2.preOn.contains (coreOf n)))

/-- Whether a line may be fetched through the context's own table (R27). -/
def Ctx.canFetch (c : Ctx) (va : Nat) : Bool :=
  match tLookup c.table.core va with
  | some e => e.p && e.x
  | none => false

/-- Where a fetch of the byte at an address ends: its home, or the fault that it meets and where (R27). Code in a tile that has moved is
fetched from its new place, at most 3 hops away (R293; log 113, DEDUCED). Of an entry that is neither present nor executable the page
fault comes first, and its code is judged once it is present. DESIGN CHOICE (log 91). -/
def fetchGo (m : Mem) (own : Nat → Nat) (tab : TMap TEntry) (core : Nat) : Nat → Nat → Sum (TrapCode × Nat) Nat
  | fuel, va =>
    match tLookup tab va with
    | none => .inl (.untranslated, va)
    | some e =>
      if !e.p then .inl (.pageFault, va)
      else if !e.x then .inl (.noExecute, va)
      else
        let hm := own (e.tgt core va).home
        if e.mv && m.marked hm then
          match fuel with
          | 0 => .inl (.markChain, va)
          | k + 1 => fetchGo m own tab core k (m.newVa hm + va % 65536)
        else .inr hm
termination_by structural fuel => fuel

def State.fetchWay (s : State) (n va : Nat) : Sum (TrapCode × Nat) Nat :=
  fetchGo s.mem s.ownHome (s.ctx n).table.core (coreOf n) 3 va

/-- The home of a byte of code, where it can be fetched (R27, R135). -/
def State.fetchHome (s : State) (n va : Nat) : Option Nat :=
  match s.fetchWay n va with
  | .inr hm => some hm
  | .inl _ => none

/-- The first bytes of the lines of a range, ascending (R107). -/
def linesOf (a n : Nat) : List Nat :=
  if n = 0 then [] else (upTo 0 ((a + n - 1) / 64 - a / 64 + 1)).map (fun i => (a - a % 64) + 64 * i)

/-- A core's cache holds 256 KiB (R23). -/
def cacheLines : Nat := 4096

/-- A full cache loses an unlocked line, by choice `k` of those it holds (R23; log 90, DESIGN CHOICE). -/
def Core.makeRoom (d : Core) (k : Nat) : Core :=
  if d.lines.length < cacheLines then d
  else
    let free := d.lines.filter (fun l => !d.locks.any (fun x => x.2 == l.1))
    match free[k % free.length]? with
    | some l => { d with lines := d.lines.erase l }
    | none => d

/-- A line is brought into the core's cache as memory stands now (R27). -/
def State.fillLine (s : State) (n va : Nat) : State :=
  let c := s.ctx n
  let k := lineKey c.asid va
  let v0 := va - va % 64
  let full := decide (cacheLines ≤ (s.core (coreOf n)).lines.length)
  if !c.canFetch v0 || (s.core (coreOf n)).lines.any (fun l => l.1 == k) then s
  else
    match s.fetchHome n v0 with
    | none => s
    | some hm =>
      { s.onCore (coreOf n) (fun d =>
          let d1 := d.makeRoom (Config.pick s.picks)
          { d1 with lines := d1.lines ++ [(k, leBytes (s.bytesAt hm 64))] }) with
        picks := if full then s.picks + 1 else s.picks }

/-- `n` bytes of device memory as a number. -/
def State.rd (s : State) (a n : Nat) : Nat := s.mem.nat a n
/-- The code object that a launch record names (R374). -/
def State.recCode (s : State) (r : Nat) : Nat := s.rd (r + 8) 8

/-- The place and length of the first section of a type. -/
def State.section? (s : State) (code ty : Nat) : Option (Nat × Nat) :=
  ((upTo 0 (s.rd (code + 6) 2)).find? (fun i => s.rd (code + 64 + 16 * i) 4 == ty)).map (fun i =>
    (code + s.rd (code + 72 + 16 * i) 4, s.rd (code + 76 + 16 * i) 4))

/-- The address at which a symbol's native code runs: where an executable entry maps it (log 35, DEDUCED). -/
def State.entryPc (s : State) (r sym : Nat) (tab : TMap TEntry) : Nat :=
  let code := s.recCode r
  match s.section? code 2, s.section? code 5 with
  | some (nat, _), some (syms, _) =>
    let dev := nat + 64 + s.rd (syms + 4 + 64 * sym + 8) 4
    (match tab.find? (fun e => e.2.kind == 4 && e.2.x && decide (e.2.tbase ≤ dev ∧ dev < e.2.tbase + 2 ^ e.2.lsz)) with
      | some e => e.2.vbase + (dev - e.2.tbase)
      | none => dev)
  | _, _ => 0

/-- The successors of the function at an address, in list order: those that the code object of the context's kernel lists
(R109, R394). -/
def State.successors (s : State) (n t : Nat) : List Nat :=
  match s.mod.kernels.find? (fun e => e.1 == (s.ctx n).kernel) with
  | none => []
  | some e =>
    let r := e.2.record
    let at' := fun (sym : Nat) => s.entryPc r sym (s.ctx n).table.core
    match s.section? (s.recCode r) 6 with
    | none => []
    | some (a, len) =>
      match (upTo 0 (len / 24)).find? (fun i => at' (s.rd (a + 24 * i) 4) == t) with
      | none => []
      | some i => (upTo 0 (min 4 (s.rd (a + 24 * i + 4) 4))).map (fun j => at' (s.rd (a + 24 * i + 8 + 4 * j) 4))

/-- The call-graph prefetcher fills the first 128 bytes of each successor of a call's target (R109). -/
def State.prefetch (s : State) (n : Nat) : List Nat → State
  | [] => s
  | t :: l => ((linesOf t 128).foldl (fun s va => s.fillLine n va) s).prefetch n l

/-! ### The sequencer -/

/-- The context whose program counter and loop stack the bundle follows: member 0 of a fused machine (R100). -/
def State.seqN (s : State) : Nat := if s.cur.fuseW ≤ 1 then s.latch.n else s.cur.fuse0
def State.seqC (s : State) : Ctx := s.ctx s.seqN
def State.isLead (s : State) : Bool := s.seqN == s.latch.n

/-- The contexts that issue together with context `n` (R100). -/
def State.membersOf (s : State) (n : Nat) : List Nat :=
  let c := s.ctx n
  if c.fuseW ≤ 1 then [n] else (upTo 0 c.fuseW).map (fun k => c.fuse0 + 2 * k)
def State.members (s : State) : List Nat := s.membersOf s.latch.n

/-- A change of several contexts. -/
def State.onCtxs (s : State) (f : Ctx → Ctx) : List Nat → State
  | [] => s
  | n :: l => (s.onCtx n f).onCtxs f l

/-- A taken transfer: fetch continues at `t`, after `cost` fetch cycles (R91, R92). Only member 0's counts in a
fused machine (R100). -/
def State.jump (s : State) (t cost : Nat) : State :=
  if s.isLead then s.onCur (fun c => { c with go := some t, took := true, cost := cost }) else s

/-- The address of a displacement (R91). -/
def State.target (s : State) (d : Word) : Nat := (BitVec.ofNat 64 s.latch.ba + 2 * d).toNat

/-- A trap of an operation of R125: raised at the bundle, or deferred under the literal of a predicted guard (R131). -/
def State.branchTrap (s : State) (k : Cond2) (t : TrapRec) : State := s.withTraps [(k.held, t)] 0 (fun s => s)

/-- A scalar as the branch rules use it: waited for and collapsed by R125, its poison raised (R353). -/
def State.branchOnK (s : State) (h : Hdr) (r : Nat) (f : Cond2 → Word → State) : State :=
  s.branchingK h [s.sSrc r] (fun k =>
    match s.useTrap (one (s.sSrc r)) 0 4 false with
    | some t => s.branchTrap k t
    | none => f k (one (s.sSrc r)).v)

def State.branchOn (s : State) (h : Hdr) (r : Nat) (f : Word → State) : State := s.branchOnK h r (fun _ => f)

/-- A link: the address after the bundle, latency 1 (R91). -/
def State.linkTo (s : State) (r : Nat) : State :=
  s.deliverS {} r 1 [([], { v := BitVec.ofNat 64 s.latch.next })]

/-- `nop`: nothing (R41). -/
def execNop (_h : Hdr) (_o : CROp) (s : State) : Host.Outcome State Fault Refusal := .next s

/-- `br`: fetch continues at the target when the guard passes (R91). -/
def execBr (h : Hdr) (o : CBOp) (s : State) : Host.Outcome State Fault Refusal :=
  .next (s.branching h [] (s.jump (s.target (o.dist h)) 1))

/-- `bri`: the target is S[a] (R91). -/
def execBri (h : Hdr) (o : CROp) (s : State) : Host.Outcome State Fault Refusal :=
  .next (s.branchOn h o.a.toNat (fun x => s.jump x.toNat 3))

/-- A call taken: its link, and the successors of its target in the cache (R91, R109). -/
def State.callTo (s : State) (r t cost : Nat) : State :=
  ((s.linkTo r).jump t cost).prefetch s.latch.n (s.successors s.latch.n t)

/-- `call`: as `br`, with the link in `s63` (R91). -/
def execCall (h : Hdr) (o : CBOp) (s : State) : Host.Outcome State Fault Refusal :=
  .next (s.branching h [] (s.callTo 63 (s.target (o.dist h)) 1))

/-- `calli`: as `bri`, with the link in S[d] (R91). -/
def execCalli (h : Hdr) (o : CROp) (s : State) : Host.Outcome State Fault Refusal :=
  .next (s.branchOn h o.a.toNat (fun x => s.callTo o.d.toNat x.toNat 3))

/-- `ret`: the target is S[a] (R91). -/
def execRet (h : Hdr) (o : CROp) (s : State) : Host.Outcome State Fault Refusal :=
  .next (s.branchOn h o.a.toNat (fun x => s.jump x.toNat 3))

/-! ### Loops -/

/-- A `LOOP_DEPTH` of the operation being run (R93, R95, R96). -/
def State.depthTrap (s : State) : TrapRec := s.trapRec .loopDepth 0 0

/-- An `ILLEGAL_ENCODING` that depends on state (R93, R350, R407). -/
def State.illegalRec (s : State) : TrapRec :=
  s.trapRec .illegalEncoding (s.latch.w0.setWidth 64) (s.latch.x.setWidth 64)
def State.illegal (s : State) : State := s.stat (.trap s.illegalRec)

/-- The push of a level, or the skip of a body whose count is 0 (R93); `len` in halfwords. Both happen when
the group ends. -/
def State.enterLoop (s : State) (k : Cond2) (c : Word) (len : Nat) : State :=
  let start := s.cur.gnext
  let stop := start + 2 * len
  if !s.isLead then s
  else if (match s.cur.loops with | l :: _ => l.stop == start | [] => false) then
    s.branchTrap k s.illegalRec
  else if c = 0 then s.jump stop 1
  else if 6 ≤ s.cur.loops.length + s.cur.push.length then s.branchTrap k s.depthTrap
  else s.onCur (fun c' => { c' with push := { index := 0, count := c, start := start, stop := stop } :: c'.push })

/-- `loop`: an immediate count (R93). -/
def execLoop (h : Hdr) (o : CLOp) (s : State) : Host.Outcome State Fault Refusal :=
  .next (s.branchingK h [] (fun k => s.enterLoop k
    (if h.ext then o.imm32.setWidth 64 else o.n.setWidth 64) o.len.toNat))

/-- `loopv`: the count is S[n] (R93). -/
def execLoopv (h : Hdr) (o : CLOp) (s : State) : Host.Outcome State Fault Refusal :=
  .next (s.branchOnK h o.n.toNat (fun k c => s.enterLoop k c (if h.ext then o.imm32.toNat else o.len.toNat)))

/-- The loop-end step (R94) on a stack, innermost level first: the new stack, where fetch continues, and the
positions that stepped (R362). `b` is the count of bundles issued, for R361. -/
def loopEnd (b : Nat) : List Level → List Level × Option Nat × List Nat
  | [] => ([], none, [])
  | l :: r =>
    let i := l.index + 1
    if i.ult l.count then ({ l with index := i, began := b } :: r, some l.start, [r.length])
    else
      match r with
      | [] => ([], some l.stop, [0])
      | m :: _ =>
        if m.stop = l.stop && !m.carry then
          let z := loopEnd b r
          (z.1, z.2.1, r.length :: z.2.2)
        else (r, some l.stop, [r.length])

/-- A count of the slot counters raised (R362): position k, index i. -/
def Ctx.lscAdd (c : Ctx) (k i : Nat) (d : Word) : Ctx :=
  if k < 6 then { c with lsc := mput c.lsc (32 * k + i) (mget 0 c.lsc (32 * k + i) + d) } else c

/-- Whether a context stands at an iteration boundary or `ppt` that passes as a point (R106, R357). -/
def Ctx.atPoint (c : Ctx) : Bool := c.opens.isEmpty && c.larder.isEmpty && !c.carry.active

/-- The receives of a context, in issue order (R329). -/
def State.recvsOf (s : State) (n : Nat) : List LinkCmd :=
  (s.wing (wingOf n)).link.filter (fun c => c.n == n && c.op != 0)

/-- The flits that a receive counts (R331, R332). -/
def LinkCmd.need (c : LinkCmd) : Nat := if c.op = 2 then 9 * c.flits else c.flits

/-- The flits of a slot that no receive has counted (R328). -/
def State.flitsFree (s : State) (k slot : Nat) : Nat :=
  let d := s.core k
  (mget 0 d.arrivedN slot - mget 0 d.consumed slot).toNat

/-- The slots with a receive short of flits (R333): counted in issue order, `used` flits of each before. -/
def shortGo (free : Nat → Nat) : List LinkCmd → TMap Nat → List Nat
  | [], _ => []
  | c :: l, used =>
    let u := mget 0 used c.slot + (if c.gone then 0 else c.need)
    (if !c.gone && decide (free c.slot < u) then [c.slot] else []) ++ shortGo free l (mput used c.slot u)

/-- SHORT of a context (R333). -/
def State.short (s : State) (n : Nat) : List Nat := shortGo (s.flitsFree (coreOf n)) (s.recvsOf n) []

/-- Every context of a group may be switched out here (R106, R334). -/
def State.groupAtPoint (s : State) (ms : List Nat) : Bool :=
  ms.all (fun m => (s.ctx m).atPoint && (s.short m).isEmpty)

/-- A point passed, or not, by the group of context `n` (R106, R357): the watchdog restarts, and a pending
pre-emption takes the group out. -/
def State.pointOf (s : State) (n : Nat) : State :=
  let ms := s.membersOf n
  if s.groupAtPoint ms then
    s.onCtxs (fun c => { c with wdogC := 0, swOut := (s.ctx n).pend }) ms
  else s

/-- The point of the bundle that has ended, if it held one (R106): judged with what the rest of the bundle has left in the
larder. DEDUCED (log 103). -/
def State.passPoint (s : State) (n : Nat) : State :=
  if (s.ctx n).pointed then (s.onCtx n (fun c => { c with pointed := false })).pointOf n else s

/-- The loop-end step of the sequencer of the bundle (R94), with its counters; its pre-emption point stands at the bundle's end. The
count in `issued` includes the bundle's last issue. -/
def State.loopStep (s : State) (n : Nat) : State × Option Nat :=
  let z := loopEnd (s.ctx n).issued (s.ctx n).loops
  let s1 := s.onCtx n (fun c => { c with loops := z.1, sticky := [], pointed := true })
  (s1.onCtxs (fun c => { z.2.2.foldl (fun c k => c.lscAdd k 20 1) c with sticky := [] }) (s.membersOf n), z.2.1)

/-- `brk k` (R95): pops k levels and continues at the end of the last one popped. The loop stack is member 0's, which alone
pops and raises (R100). R92 lists no cost for a taken `brk` or `next`: as any transfer to an address of the code, 1 fetch
cycle. DESIGN CHOICE (log 81). -/
def execBrk (h : Hdr) (o : CIOp) (s : State) : Host.Outcome State Fault Refusal :=
  let n := o.val h % 8
  .next (s.branchingK h [] (fun k =>
    if !s.isLead then s
    else
      match (s.cur.loops.drop (n - 1)).head? with
      | none => s.branchTrap k s.depthTrap
      | some l => (s.onCur (fun c => { c with loops := c.loops.drop n })).jump l.stop 1))

/-- `next k` (R95): pops k − 1 levels, then runs the loop-end step. -/
def execNext (h : Hdr) (o : CIOp) (s : State) : Host.Outcome State Fault Refusal :=
  let n := o.val h % 8
  .next (s.branchingK h [] (fun k =>
    if !s.isLead then s
    else if s.cur.loops.length < n then s.branchTrap k s.depthTrap
    else
      let s1 := s.onCur (fun c => { c with loops := c.loops.drop (n - 1), issued := c.issued + 1 })
      let z := s1.loopStep s.latch.n
      (z.1.onCur (fun c => { c with issued := c.issued - 1 })).jump (z.2.getD s.latch.next) 1))

/-- `lidx` and `lidx.c` (R96): the index or the count of a level, latency 1; under an open guard an alternative. DEDUCED (log 22). -/
def State.loopIndex (s : State) (h : Hdr) (o : CIOp) (f : Level → Word) : State :=
  s.guarded h (fun k =>
    match (s.seqC.loops.drop (o.val h % 8)).head? with
    | some l => s.deliverS k o.d.toNat 1 [([], { v := f l })]
    | none =>
      let t := s.depthTrap
      s.withTraps [(k.held, t)] 0 (fun s =>
        s.deliverS k o.d.toNat 1 [([], { f := some { t with deferred := true } })]))

def execLidx (h : Hdr) (o : CIOp) (s : State) : Host.Outcome State Fault Refusal :=
  .next (s.loopIndex h o Level.index)

def execLidxC (h : Hdr) (o : CIOp) (s : State) : Host.Outcome State Fault Refusal :=
  .next (s.loopIndex h o Level.count)

/-! ### Marks, points and ends -/

/-- A pending result that a bundle at count `t` does not see yet. -/
def Pend.waits {w p : Nat} (t : Nat) (x : Pend w p) : Bool := decide (t < x.due) || x.late || x.missing
def Later.waits {α : Type} (t : Nat) (x : Later α) : Bool := decide (t < x.due)

/-- Every result due from earlier bundles is visible at count `t` (R104). -/
def Ctx.settled (c : Ctx) (t : Nat) : Bool :=
  !c.sa.pend.any (Pend.waits t) && !c.v.pend.any (Pend.waits t) && !c.gpend.any (Later.waits t) &&
  !c.mpPend.any (Later.waits t) && !c.xsPend.any (Later.waits t) && !c.fmtPend.any (Later.waits t) &&
  !c.qlPend.any (Later.waits t) && !c.felPend.any (fun x => decide (t < x.due)) &&
  !c.npend.any (fun x => decide (t < x.due)) && !c.csrPend.any (fun x => decide (t < x.1))

/-- No guard open or predicted and every due result visible: what `mark` waits for (R104). -/
def Ctx.quiet (c : Ctx) (t : Nat) : Bool := c.opens.isEmpty && c.settled t

/-- What a trap and a stop wait for (R347, R359): as `mark`, but for the acceptance literal of a round, which is an open
guard of R112 to R134 only (R310) and would never resolve. DEDUCED (log 78). -/
def Ctx.quietHere (c : Ctx) (t : Nat) : Bool := c.opens.all (fun o => o.reg == 0) && c.settled t

/-- A held store performs (R104, R128). A store is ordered by its release (R168): its place is a fresh name. -/
def State.performStore (s : State) (n : Nat) (a : Acc) : State :=
  let s1 := s.onCtx n (fun c => { c with freed := c.freed ++ [a] })
  { s1.launchAcc { a with rel := s.uid } true with uid := s.uid + 1 }

/-- Every store held in the larder performs, in program order (R104). -/
def State.performStores (s : State) (n : Nat) : List Held → State
  | [] => s
  | e :: l =>
    match e.op with
    | .store a => (if e.dead then s else s.performStore n a).performStores n l
    | _ => s.performStores n l

def Held.isStore (e : Held) : Bool := match e.op with | .store _ => true | _ => false

/-- The larder loses its stores, and the context its stores' effects: at a mark or a halt. What a deferred trap holds back
stays (R347). -/
def State.emptyStores (s : State) (n : Nat) : State :=
  let l := (s.ctx n).larder
  if (s.ctx n).larderOff then s
  else (s.onCtx n (fun c => { c with larder := c.larder.filter (fun e => !e.isStore && !e.dead) })).performStores n l

/-- A held store of poisoned data: its trap stands in the way of a mark and of the end (R151). -/
def Ctx.spills (c : Ctx) : Bool := !c.larderOff && c.larder.any (fun e => e.isStore && !e.dead && e.trap.isSome)

/-- The stores before the first one of poisoned data, and what follows. -/
def spillSplit : List Held → List Held × List Held
  | [] => ([], [])
  | e :: l =>
    if e.isStore && !e.dead && e.trap.isSome then ([], e :: l)
    else
      let z := spillSplit l
      (e :: z.1, z.2)

/-- The stores before a store of poisoned data perform, and its `POISON` is raised: the entry stays held until `sret`, with
those behind it (R104, R151, R347). -/
def State.spill (s : State) (n : Nat) : State :=
  let z := spillSplit (s.ctx n).larder
  match z.2 with
  | [] => s
  | e :: l =>
    if (s.ctx n).larderOff || (s.ctx n).trapP.isSome then s
    else
      let s1 := s.onCtx n (fun c =>
        let c1 := { c with larder := z.1.filter (fun x => !x.isStore && !x.dead) ++ { e with fired := true } :: l, larderOff := true }
        match e.trap with
        | some t => c1.report { t with deferred := true }
        | none => c1)
      s1.performStores n z.1

def State.spillAll (s : State) : List Nat → State
  | [] => s
  | n :: l => (s.spill n).spillAll l

/-- A comparator or receive slot of the core belongs to a context (R247, R328). -/
def Core.owns (k : Core) (n i : Nat) : Bool :=
  if k.ctxn = 1 then n % 2 == 0 else decide (i < 4) == (n % 2 == 0)

/-- A restart mark (R104): the stores perform, and the shadow is taken with `addr` as the address of the next
bundle. -/
def State.takeMark (s : State) (n addr : Nat) : State :=
  let s1 := s.emptyStores n
  let k := s.core (coreOf n)
  let cs := ((upTo 0 8).filter (k.owns n)).map (fun i => (i, mget 0 k.consumed i))
  let s2 := { s1 with uid := s1.uid + 1 }
  s2.onCtx n (fun c =>
    let z : Shadow := Shadow.mk c.toRegs cs addr s2.uid c.csrPend c.cloop
    { c with shadow := some z })

/-- `mark` (R104): waits until no guard is open and every due result is visible. The mark is taken here, and
again at the end of the bundle, so that the shadow holds what the rest of its bundle does (log 21, DEDUCED). -/
def execMark (h : Hdr) (_o : CROp) (s : State) : Host.Outcome State Fault Refusal :=
  .next (s.branching h [] (
    if !s.cur.quiet s.latch.ic then s.stat (.stall [])
    else if s.cur.spills then s.stat .spill
    else (s.takeMark s.latch.n s.latch.next).onCur (fun c => { c with marking := true })))

/-- `ppt` (R106): with a pre-emption pending it waits for the guards and the larder, and is switched out at the end of its bundle
(`passPoint`). -/
def execPpt (h : Hdr) (_o : CROp) (s : State) : Host.Outcome State Fault Refusal :=
  .next (s.branching h [] (
    if !s.isLead then s
    else if s.cur.pend && !s.cur.carry.active && !s.groupAtPoint s.members then s.stat (.stall [])
    else s.onCur (fun c => { c with pointed := true })))

/-- A context retires (R110): its results still due are dropped. A trap that it has raised stands. -/
def Ctx.retire (c : Ctx) : Ctx :=
  { c with mode := .halted, sa := { c.sa with pend := [] }, v := { c.v with pend := [] }, gpend := [], opens := [],
           mpPend := [], xsPend := [], fmtPend := [], qlPend := [], felPend := [], gwatch := [], gtraps := [],
           npend := [], csrPend := [], arrP := [], larder := [], sticky := [], group := [], quits := false,
           fuseW := 1, reach := .none, pass := false, stopReq := none, hostReq := false, swOut := false, pointed := false, dies := false,
           part := none }

/-- The accesses whose data a register still waits for. -/
def RegFile.refs {w p : Nat} (f : RegFile w p) : List Nat :=
  f.pend.flatMap (fun x => x.alts.filterMap (fun a => a.ref))
def Regs.refs (r : Regs) : List Nat := r.sa.refs ++ r.v.refs

/-- The receives of a context that are discarded with their porch places (R143): those with a name from `q` on. -/
def State.dropRecvs (s : State) (n q : Nat) : State :=
  let w := s.wing (wingOf n)
  let gone := fun (c : LinkCmd) => c.n == n && c.op != 0 && decide (q ≤ c.id)
  let ids := (w.link.filter gone).map (fun c => c.id)
  ((s.setWing (wingOf n) { w with link := w.link.filter (fun c => !gone c) }).onCore (coreOf n) (fun d => { d with
    porch := d.porch.filter (fun e => !ids.contains e.id),
    late := match d.late with
      | some (m, id) => if ids.contains id then none else some (m, id)
      | none => none })).onCtx n (fun c => { c with outs := c.outs.filter (fun o => !ids.contains o.id) })

/-- The porch entries of a context whose requests are discarded: freed where the data is there, else when it
arrives (R142). A freeze that such a request holds ends (R304). `keep` names the requests that stand, with the receives
named below `q`. -/
def State.dropPorch (s : State) (n : Nat) (keep : List Nat) (q : Nat) : State :=
  let s1 := s.dropRecvs n q
  let stay := keep ++ (s1.recvsOf n).map (fun c => c.id)
  s1.onCore (coreOf n) (fun d => { d with
    porch := d.porch.filterMap (fun e =>
      if e.n != n || stay.contains e.id then some e else if e.arrived then none else some { e with dead := true }),
    late := match d.late with
      | some (m, id) => if m = n && !stay.contains id then none else d.late
      | none => none })

/-- The contexts of a group retire: the larders' stores perform first, and the link commands already issued go on (R110). -/
def State.retireAll (s : State) : List Nat → State
  | [] => s
  | n :: l => (((s.emptyStores n).onCtx n Ctx.retire).dropPorch n [] s.uid).retireAll l

/-- `halt` (R110): waits until no guard is open and the larder holds nothing but stores. In the handler of a deferred trap, which
`sret` will not end, what the trap holds back goes on (`State.release`). The stores perform and every member
retires when the bundle ends, after what the rest of the bundle does. DEDUCED (log 82). -/
def execHalt (h : Hdr) (_o : CROp) (s : State) : Host.Outcome State Fault Refusal :=
  .next (s.branching h [] (
    if s.members.any (fun m => !(s.ctx m).opens.isEmpty) then s.stat (.stall [])
    else if s.members.any (fun m => (s.ctx m).larder.any (fun e => !e.dead && ((s.ctx m).larderOff || !e.isStore))) then
      s.stat (.waitAt .halt)
    else if s.members.any (fun m => (s.ctx m).spills) then s.stat .spill
    else s.onCtx s.seqN (fun c => { c with quits := true })))

/-! ### Fusion -/

/-- Member 0 of the group of `w` cores that holds a context (R100). -/
def leadOf (n w : Nat) : Nat := 2 * (coreOf n - coreOf n % w)

/-- `fuse` (R100, R101): waits until the group joins (`FUSE_JOIN` lets it pass), and is then fused. DEDUCED (log 68). The pair's
array goes to the mode that FEN asks for then (R200; log 86, DEDUCED). -/
def State.fuse (s : State) (k : Cond2) (w : Nat) : State :=
  if s.latch.n % 2 = 1 || decide (1 < s.cur.fuseW) then s.branchTrap k (s.trapRec .fuseState 0 0)
  else if s.cur.pass then
    let ar := arrayOf (coreOf s.latch.n)
    (s.setArr ar { s.arr ar with goal := (s.arr ar).fen }).onCur (fun c =>
      { c with fuseW := w, fuse0 := leadOf s.latch.n w, pass := false })
  else s.stat (.waitAt (.fuse w))

def execFuse2 (h : Hdr) (_o : CIOp) (s : State) : Host.Outcome State Fault Refusal :=
  .next (s.branchingK h [] (fun k => s.fuse k 2))
def execFuse4 (h : Hdr) (_o : CIOp) (s : State) : Host.Outcome State Fault Refusal :=
  .next (s.branchingK h [] (fun k => s.fuse k 4))

/-- `decouple` (R102): the group is released when its bundle ends. -/
def execDecouple (h : Hdr) (_o : CROp) (s : State) : Host.Outcome State Fault Refusal :=
  .next (s.branchingK h [] (fun k =>
    if s.cur.fuseW ≤ 1 then s.branchTrap k (s.trapRec .fuseState 0 0)
    else s.onCtx s.seqN (fun c => { c with parting := true })))

/-- `rejoin` (R103): waits until every core of the pair or quad waits at it. -/
def State.rejoin (s : State) (k : Cond2) (w : Nat) : State :=
  if 1 < s.cur.fuseW then s.branchTrap k (s.trapRec .fuseState 0 0)
  else if s.cur.pass then s.onCur (fun c => { c with pass := false })
  else s.stat (.waitAt (.rejoin w))

def execRejoin2 (h : Hdr) (_o : CROp) (s : State) : Host.Outcome State Fault Refusal :=
  .next (s.branchingK h [] (fun k => s.rejoin k 2))
def execRejoin4 (h : Hdr) (_o : CROp) (s : State) : Host.Outcome State Fault Refusal :=
  .next (s.branchingK h [] (fun k => s.rejoin k 4))

/-! ### The instruction cache -/

/-- The number of distinct lines locked in a core (R107). -/
def Core.lockedLines (d : Core) : Nat := (d.locks.map (fun l => l.2)).eraseDups.length

/-- `ilock` over the lines of a range (R107): the state, whether every line so far is locked, and the lines
locked by the context. It stops at the first line beyond 128 KiB. -/
def State.lockGo (s : State) (n : Nat) : List Nat → State × Bool × List Nat
  | [] => (s, true, [])
  | va :: l =>
    let c := s.ctx n
    if (s.fetchHome n va).isNone then
      let z := s.lockGo n l
      (z.1, false, z.2.2)
    else
      let k := lineKey c.asid va
      let d := s.core (coreOf n)
      if !d.locks.any (fun x => x.2 == k) && decide (2048 ≤ d.lockedLines) then (s, false, [])
      else
        let s1 := s.fillLine n va
        let s2 := s1.onCore (coreOf n) (fun d =>
          if d.locks.contains (n, k) then d else { d with locks := d.locks ++ [(n, k)] })
        let z := s2.lockGo n l
        (z.1, z.2.1, va :: z.2.2)

/-- The bytes of [a, a+n) in the lines given: what S[d] of `ilock` counts. DEDUCED (log 109). -/
def bytesIn (a n : Nat) (ls : List Nat) : Nat :=
  (ls.map (fun va => min (va + 64) (a + n) - max va a)).foldl (fun x y => x + y) 0

/-- `ilock` (R107): S[d] receives the number of bytes locked, the status guard whether all are, latency 2. It waits
for its guard and its sources. DEDUCED (log 22). -/
def execIlock (h : Hdr) (o : CROp) (s : State) : Host.Outcome State Fault Refusal :=
  .next (s.waiting h [s.sSrc o.a.toNat, s.sSrc o.b.toNat] (
    let a := one (s.sSrc o.a.toNat)
    let b := one (s.sSrc o.b.toNat)
    let ls := linesOf a.v.toNat (min b.v.toNat (2 ^ 48))
    let z := s.lockGo s.latch.n ls
    let all := z.2.1
    let r : SVal := { v := BitVec.ofNat 64 (bytesIn a.v.toNat b.v.toNat z.2.2), p := a.p ||| b.p, f := orF a.f b.f }
    let s1 := z.1.deliverS {} o.d.toNat 2 [([], r)]
    if h.ext then s1.deliverG (o.imm32.toNat % 16) 2 all else s1))

/-- `iunlock` (R108): the context's locks of the range go. It waits for its guard and its sources. DEDUCED (log 22). -/
def execIunlock (h : Hdr) (o : CROp) (s : State) : Host.Outcome State Fault Refusal :=
  .next (s.waiting h [s.sSrc o.a.toNat, s.sSrc o.b.toNat] (
    let a := (one (s.sSrc o.a.toNat)).v.toNat
    let n := (one (s.sSrc o.b.toNat)).v.toNat
    let as := s.cur.asid
    s.onCore (coreOf s.latch.n) (fun d => { d with locks := d.locks.filter (fun l =>
      let va := l.2 % 2 ^ 48
      !(l.1 == s.latch.n && l.2 / 2 ^ 48 == as.toNat && decide (n ≠ 0 ∧ va < a + n ∧ a < va + 64))) })))

/-- `pfn` (R109): the two lines at the target are filled; nothing faults. Under an open or a predicted guard it does nothing: no row
of R125 and R126 names it. DEDUCED (log 22). -/
def execPfn (h : Hdr) (o : CBOp) (s : State) : Host.Outcome State Fault Refusal :=
  .next (s.guarded h (fun k =>
    if k.held.isEmpty then
      let t := s.target (o.dist h)
      (s.fillLine s.latch.n t).fillLine s.latch.n (t + 64)
    else s))

/-! ### Guards -/

/-- The named guard is open or predicted as the bundle sees it. -/
def Ctx.isOpen (c : Ctx) (r t : Nat) : Bool := match c.gAt r t with | .opn _ => true | .res _ => false

/-- `gres` (R124): waits until a guard is resolved. -/
def State.gres (s : State) (r : Nat) : State := if s.cur.isOpen r s.latch.ic then s.stat (.stall []) else s

def execGres (h : Hdr) (o : CROp) (s : State) : Host.Outcome State Fault Refusal :=
  .next (s.branching h [] (s.gres (o.a.toNat % 16)))

/-- `gres all` (R124): waits until every guard is. -/
def execGresAll (h : Hdr) (_o : CROp) (s : State) : Host.Outcome State Fault Refusal :=
  .next (s.branching h [] (
    if (upTo 1 15).any (fun r => s.cur.isOpen r s.latch.ic) then s.stat (.stall []) else s))

/-- `gcol` (R124): an open guard is collapsed to a sense, `none` for its hint; without marks it acts as
`gres`. DEDUCED (log 41). -/
def State.gcol (s : State) (r : Nat) (b : Option Bool) : State :=
  if !s.cur.keepsMarks then s.gres r
  else
    match s.cur.gAt r s.latch.ic with
    | .res _ => s
    | .opn id =>
      match s.cur.open? id with
      | none => s
      | some o => if o.pred.isSome then s else s.onCur (fun c => c.collapse id (b.getD (c.hinted o)))

def execGcol (h : Hdr) (o : CROp) (s : State) : Host.Outcome State Fault Refusal :=
  .next (s.branching h [] (s.gcol (o.a.toNat % 16) none))
def execGcolT (h : Hdr) (o : CROp) (s : State) : Host.Outcome State Fault Refusal :=
  .next (s.branching h [] (s.gcol (o.a.toNat % 16) (some true)))
def execGcolF (h : Hdr) (o : CROp) (s : State) : Host.Outcome State Fault Refusal :=
  .next (s.branching h [] (s.gcol (o.a.toNat % 16) (some false)))

end Sys2Proof.Machine
end

