-- ==== Sys2Proof/Machine/Sync.lean ====
section
/-! DEFINITION. `fmt` (R69 to R71), the wake comparators (R247 to R250), the barriers (R251 to R258), `sstep`
(R259), `fence` and `drain` (R158 to R164, R406). -/

namespace Sys2Proof.Machine

/-! ### `fmt` -/

/-- The bits of `FMT` that a selector names (R66, R69). -/
def fmtMask (d : Nat) : BitVec 32 :=
  match d with
  | 1 => 0x0000000F
  | 2 => 0x000000F0
  | 3 => 0x00000F00
  | 4 => 0x0000F000
  | 5 => 0x000F0000
  | 6 => 0x00F00000
  | 7 => 0x0F000000
  | 8 => 0xC0000000
  | _ => 0xFFFFFFFF

/-- A value at the place of its field. -/
def fmtPlace (d : Nat) (v : Nat) : BitVec 32 :=
  match d with
  | 0 => BitVec.ofNat 32 v
  | 8 => BitVec.ofNat 32 (v % 4 * 2 ^ 30)
  | _ => BitVec.ofNat 32 (v % 16 * 2 ^ (4 * (d - 1)))

/-- `fmt` (R70, R71): at ic + 4. The legality of the value is checked with the encoding (R70). -/
def execFmt (h : Hdr) (o : CIOp) (s : State) : Host.Outcome State Fault Refusal :=
  .next (s.waiting h [] (s.onCur (fun c =>
    let d := o.d.toNat
    { c with fmtPend := laterIns ⟨0, s.latch.ic + 4, (fmtMask d, fmtPlace d (o.val h)), s.readyAt 4⟩ c.fmtPend })))

/-! ### Wake comparators -/

/-- Every byte of a range translates through one entry of the core's copy: entries cover whole pages of 64 KiB, and the lowest one that
matches an address is used (R17, R135). -/
def State.oneEntry (s : State) (a n : Nat) (e : TEntry) : Bool :=
  (upTo (a / 65536) ((a + n - 1) / 65536 + 1 - a / 65536)).all (fun p => tLookup s.cur.table.core (p * 65536) == some e)

/-- The range that a `wset` arms, or its trap, in the order of R247. (0, 0) disarms. -/
def State.wakeRange (s : State) (w : Nat) (a b : SVal) : Sum TrapRec (Nat × Nat) :=
  let k := coreOf s.latch.n
  if !(s.core k).owns s.latch.n w then .inl (s.trapRec .wakePlace 0 0)
  else
    match s.useTrap b a.v 2 false with
    | some t => .inl t
    | none =>
      if b.v = 0 then .inr (0, 0)
      else
        match s.useTrap a a.v 2 false with
        | some t => .inl t
        | none =>
          match tLookup s.cur.table.core a.v.toNat with
          | none => .inl (s.trapRec .untranslated a.v 0)
          | some e =>
            if !e.p then .inl (s.trapRec .pageFault a.v 0)
            else
              let t := e.tgt k a.v.toNat
              if t.place = 0 && decide (a.v.toNat + b.v.toNat ≤ e.vbase + 2 ^ e.lsz) &&
                  decide (t.off + b.v.toNat ≤ scratchBytes (s.core k)) &&
                  s.oneEntry a.v.toNat b.v.toNat e then
                .inr (t.off, t.off + b.v.toNat)
              else .inl (s.trapRec .wakePlace 0 0)

/-- Arming takes effect for writes from the next cycle (R247). -/
def State.armWake (s : State) (n w lo hi : Nat) : State :=
  s.onCore (coreOf n) (fun d => { d with wakeP := d.wakeP ++ [(w, ⟨decide (lo < hi), n, lo, hi⟩)] })

/-- The combinations of a `wset` in turn: armed, held or trapped. -/
def State.wsetAll (s : State) (k : Cond2) (w : Nat) : List (Tag × SVal × SVal) → State
  | [] => s
  | (t, a, b) :: l =>
    let u := tagAnd k.held t
    (match s.wakeRange w a b with
      | .inl _ => s
      | .inr (lo, hi) =>
        if u.isEmpty then s.armWake s.latch.n w lo hi
        else s.pushHeld { id := 0, tag := u, op := .wset w lo hi }).wsetAll k w l

/-- `wset` (R247, R126). -/
def execWset (h : Hdr) (o : CROp) (s : State) : Host.Outcome State Fault Refusal :=
  .next (s.guarded h (fun k =>
    let w := o.d.toNat
    let cs := tagPair (s.sSrc o.a.toNat) (s.sSrc o.b.toNat)
    let traps := cs.filterMap (fun z =>
      match s.wakeRange w z.2.1 z.2.2 with
      | .inl t => some (tagAnd k.held z.1, t)
      | .inr _ => none)
    let good := cs.filter (fun z => (s.wakeRange w z.2.1 z.2.2).isRight && !(tagAnd k.held z.1).isEmpty)
    s.withTraps traps good.length (fun s => s.wsetAll k w cs)))

/-- The oldest token of the context's wake queue (R248). -/
def State.token (s : State) : Option Nat :=
  let d := s.core (coreOf s.latch.n)
  d.tokens.find? (fun w => (mget {} d.wake w).n == s.latch.n)

/-- A token popped and delivered (R249). -/
def State.takeToken (s : State) (d w : Nat) : State :=
  (s.onCore (coreOf s.latch.n) (fun c => { c with tokens := c.tokens.filter (fun x => x != w) })).deliverS {} d 1
    [([], { v := BitVec.ofNat 64 w })]

/-- `wait` (R249): waits for a token. -/
def execWait (h : Hdr) (o : CROp) (s : State) : Host.Outcome State Fault Refusal :=
  .next (s.branching h [] (
    match s.token with
    | none => s.stat .wait
    | some w => s.takeToken o.d.toNat w))

/-- `wait.nb` (R249): a token, or −1. -/
def execWaitNb (h : Hdr) (o : CROp) (s : State) : Host.Outcome State Fault Refusal :=
  .next (s.branching h [] (
    match s.token with
    | none => s.deliverS {} o.d.toNat 1 [([], { v := 0xFFFFFFFFFFFFFFFF })]
    | some w => s.takeToken o.d.toNat w))

/-! ### Barriers -/

/-- An arrival now, or in the larder under an open literal (R253). -/
def State.arriveNow (s : State) (k : Cond2) (b : Nat) : State :=
  if k.held.isEmpty then s.toBarrier s.latch.n s.latch.slot s.latch.ba b none
  else s.pushHeld { id := 0, tag := k.held, op := .arrive b s.latch.slot s.latch.ba 0 [] }

/-- `arrive` (R253). -/
def execArrive (h : Hdr) (o : CIOp) (s : State) : Host.Outcome State Fault Refusal :=
  .next (s.guarded h (fun k =>
    s.withRoom (if k.held.isEmpty then 0 else 1) false (s.onCur Ctx.reject) (s.arriveNow k (o.val h % 16))))

def State.barrier (s : State) (cl b : Nat) : Barrier := mget {} (s.cluster cl).bars b
def State.onBarrier (s : State) (cl b : Nat) (f : Barrier → Barrier) : State :=
  s.setCluster cl { s.cluster cl with bars := mput (s.cluster cl).bars b (f (s.barrier cl b)) }

/-- The completions of the last two cycles, which bundles of cycle `cyc` do not see (R252). -/
def Barrier.hidden (b : Barrier) (cyc : Nat) : List BarDone := b.done.filter (fun c => decide (cyc < c.at' + 2))

/-- The phase as bundles of cycle `cyc` see it. -/
def Barrier.shown (b : Barrier) (cyc : Nat) : BitVec 16 := b.ph - BitVec.ofNat 16 (b.hidden cyc).length

/-- Reading the phase sets SEEN when it is the current one (R254). -/
def State.seePhase (s : State) (b : Nat) : State :=
  s.onBarrier (clusterOf s.latch.n) b (fun x => { x with seen := x.seen || x.shown s.cycle == x.ph })

/-- `bwait` (R254). -/
def execBwait (h : Hdr) (o : CROp) (s : State) : Host.Outcome State Fault Refusal :=
  .next (
    let src := s.sSrc o.d.toNat
    s.branchingK h [src] (fun k => s.underLit (
      match s.useTrap (one src) 0 7 false with
      | some t => s.branchTrap k t
      | none =>
        let b := o.b.toNat % 16
        let ph := (s.barrier (clusterOf s.latch.n) b).shown s.cycle
        let d := (ph - (one src).v.setWidth 16).toNat
        if d = 0 || decide (2 ^ 15 ≤ d) then s.stat .wait
        else
          let s1 := (s.seePhase b).deliverS {} o.d.toNat 1 [([], { v := ph.setWidth 64 })]
          if h.ext then s1.deliverG (o.imm32.toNat % 16) 2 (decide (2 ≤ d)) else s1)))

/-- The fields that `bphase` delivers (R255). A completion that is not seen yet shows in none of them: its arrivals still count,
and its overrun does not (R252). -/
def Barrier.word (b : Barrier) (cyc : Nat) : Word :=
  let hid := b.hidden cyc
  BitVec.ofNat 64 ((b.shown cyc).toNat + 2 ^ 16 * min (b.cnt + (hid.map BarDone.took).sum) 0xFFFF +
    2 ^ 32 * b.exp.toNat + 2 ^ 48 * (bbit b.str).toNat + 2 ^ 49 * (bbit (b.ov && !hid.any BarDone.ovr)).toNat)

/-- `bphase` (R255): latency 2. It waits for its guard, as it sets SEEN (log 22, DEDUCED). -/
def execBphase (h : Hdr) (o : CROp) (s : State) : Host.Outcome State Fault Refusal :=
  .next (s.waiting h [] (s.underLit (
    let b := o.b.toNat % 16
    let w := (s.barrier (clusterOf s.latch.n) b).word s.cycle
    (s.seePhase b).deliverS {} o.d.toNat 2 [([], { v := w })])))

/-- `bset` and `bset.s` (R256). -/
def State.barSet (s : State) (h : Hdr) (o : CROp) (strict : Bool) : State :=
  let src := s.sSrc o.a.toNat
  s.waiting h [src] (s.underLit (
    match s.useTrap (one src) 0 7 true with
    | some t => s.stat (.trap t)
    | none =>
      let e : BitVec 16 := (one src).v.setWidth 16
      if e = 0 then s.stat (.trap (s.trapRec .barrierArgs 0 0))
      else s.toBarrier s.latch.n 0 s.latch.ba (o.b.toNat % 16) (some (e, strict))))

def execBset (h : Hdr) (o : CROp) (s : State) : Host.Outcome State Fault Refusal := .next (s.barSet h o false)
def execBsetS (h : Hdr) (o : CROp) (s : State) : Host.Outcome State Fault Refusal := .next (s.barSet h o true)

/-! ### Fences, drains and supersteps -/

/-- What a fence that waits for stores or atomics, a drain and a superstep do with the larder first (R162). -/
def State.larderFirst (s : State) (f : State) : State :=
  if s.cur.carry.active then f
  else if s.cur.keepsMarks then (if s.cur.marked then f else s.stat .mark)
  else if s.cur.larder.any (fun e => !e.dead && (match e.op with
      | .store _ => true
      | .atomic _ => true
      | _ => false)) then s.stat (.stall [])
  else f

/-- The kind and home class of a held operation (R159, R160). -/
def HeldOp.kindOf : HeldOp → Option (Nat × Nat)
  | .store a => some (1, homeClass a.place)
  | .atomic a => some (2, homeClass a.place)
  | .copy _ => some (3, 0)
  | .reloc _ => some (3, 0)
  | .link _ => some (3, 0)
  | .routine r => if r.op = 0 then some (4, 0) else none
  | _ => none

/-- The larder entries of the kinds in `bk` within a scope (R161). -/
def Ctx.heldOf (c : Ctx) (bk : BitVec 5) (scope : Nat) : List Nat :=
  (c.larder.filter (fun e => !e.dead && (match e.op.kindOf with
    | some (k, hm) => kindBit bk k && (decide (3 ≤ k) || decide (hm ≤ scope))
    | none => false))).map (fun e => e.id)

/-- The operations under way of the kinds in `bk` within a scope (R161, R160). -/
def Ctx.outsOf (c : Ctx) (bk : BitVec 5) (scope : Nat) : List Nat :=
  (c.outs.filter (fun o => !o.perf && kindBit bk o.kind && (decide (3 ≤ o.kind) || decide (o.home ≤ scope)))).map
    (fun o => o.id)

/-- A fence point enters force (R161). DEDUCED (log 26). -/
def State.addFence (s : State) (h : Hdr) (members heldB : List Nat) (ak : BitVec 5) : State :=
  let f : FencePt := FencePt.mk s.uid members ak (if h.arr then some h.bn.toNat else none) s.latch.slot s.latch.ba heldB
  { s.onCur (fun c => { c with fences := c.fences ++ [f] }) with uid := s.uid + 1 }

/-- The point of a fence at the bundle (R161, R406). In a carry round F is what has left the larder, and the point among the held
entries stands by itself. -/
def State.fencePoint (s : State) (h : Hdr) (bk ak : BitVec 5) (sc : Nat) : State :=
  let c := s.cur
  if c.carry.active then
    (s.addFence h (c.outsOf bk sc) [] ak).addFence { h with arr := false } [] (c.heldOf bk sc) ak
  else s.addFence h (c.outsOf bk sc ++ c.heldOf bk sc) [] ak

/-- `fence` (R161, R162, R406): one that orders nothing costs only its slot. -/
def execFence (h : Hdr) (o : FOp) (s : State) : Host.Outcome State Fault Refusal :=
  .next (s.waiting h [] (
    let go := s.fencePoint h o.bk o.ak o.scope.toNat
    if (kindBit o.bk 1 || kindBit o.bk 2) && o.ak != 0 then s.larderFirst go else go))

/-- `drain` (R163, R162, R406): waits until every earlier store and atomic in its scope has performed. -/
def execDrain (h : Hdr) (o : FOp) (s : State) : Host.Outcome State Fault Refusal :=
  .next (s.waiting h [] (s.larderFirst (
    let c := s.cur
    let sa : BitVec 5 := 0x0C
    let sc := o.scope.toNat
    if !(c.outsOf sa sc).isEmpty || (!c.carry.active && !(c.heldOf sa sc).isEmpty) then s.stat .wait
    else
      let s1 := if c.carry.active then s.addFence { h with arr := false } [] (c.heldOf 0x1F sc) 0x1F else s
      if h.arr then s1.toBarrier s.latch.n s.latch.slot s.latch.ba h.bn.toNat none else s1)))

/-- Something that a `fence chip` of every kind would wait for (R160, R169). -/
def Ctx.fenceOpen (c : Ctx) : Bool := !(c.outsOf 0x1F 2).isEmpty || !(c.heldOf 0x1F 2).isEmpty

/-- `sstep` (R259): waits until the superstep completes (`SUPERSTEP_COMPLETE` lets it pass), and acts as a `fence chip` of every kind
for what has yet to perform then (R169). -/
def execSstep (h : Hdr) (_o : CROp) (s : State) : Host.Outcome State Fault Refusal :=
  .next (s.branching h [] (
    if s.cur.pass then
      let s1 := s.onCur (fun c => { c with pass := false })
      if s1.cur.fenceOpen then s1.fencePoint {} 0x1F 0x1F 2 else s1
    else s.larderFirst (s.stat (.waitAt .sstep))))

end Sys2Proof.Machine
end

