-- ==== Sys2Proof/Machine/Fetch.lean ====
section
/-! DEFINITION. Fetching code: the bytes a context fetches (R27), the assembled bundle at an address, the faults
of its bytes, and what a core's cache keeps. -/

namespace Sys2Proof.Machine

/-- The content of a resident line, as the number its 64 bytes make. -/
def Core.lineOf (d : Core) (k : Nat) : Option Nat := (d.lines.find? (fun l => l.1 == k)).map (fun l => l.2)

/-- A byte of code: from the resident line, else from memory (R27). -/
def State.codeByte (s : State) (n va : Nat) : Byte :=
  match (s.core (coreOf n)).lineOf (lineKey (s.ctx n).asid va) with
  | some v => BitVec.ofNat 8 (v / 256 ^ (va % 64))
  | none =>
    match s.fetchHome n va with
    | some h => s.byteAt h
    | none => 0

def State.codeBytes (s : State) (n va : Nat) : Nat → List Byte
  | 0 => []
  | k + 1 => s.codeByte n va :: s.codeBytes n (va + 1) k

/-- The bundle at an address, as the context's core assembles it (R25 to R27). Bytes that cannot be fetched count as
zero here; `codeFault` finds them. -/
def State.codeAt (s : State) (n va width : Nat) : RawBundle :=
  let h := bhdrOf (word16 (s.codeBytes n va 2))
  bundleOf width (s.codeBytes n va (if h.hk == 1 then 262 else 66))

/-- The fault of one page's bytes (R27, R368). -/
def State.pageBad (s : State) (n va : Nat) : Option (TrapCode × Nat) :=
  match s.fetchWay n va with
  | .inl f => some f
  | .inr _ => none

/-- The first byte of a bundle that cannot be fetched (R27, R368): entries are aligned to 64 KiB, so only the first
byte of each page counts. Where two pages of one bundle fault, the lower one's fault is the bundle's. DESIGN CHOICE (log 92). -/
def State.codeFault (s : State) (n va len : Nat) : Option (TrapCode × Nat) :=
  match s.pageBad n va with
  | some f => some f
  | none =>
    let next := va - va % 65536 + 65536
    if next < va + len then s.pageBad n next else none

/-- Unlocked lines of a fetch may have left the cache before it; which have is a free choice (R27, log 17, DESIGN CHOICE). -/
def State.evict (s : State) (n : Nat) : List Nat → State
  | [] => s
  | va :: l =>
    let k := lineKey (s.ctx n).asid va
    let d := s.core (coreOf n)
    if (d.lineOf k).isSome && !d.locks.any (fun x => x.2 == k) then
      let s1 := { s with frees := s.frees + 1 }
      (if Config.freeBool s.frees then
        s1.onCore (coreOf n) (fun d => { d with lines := d.lines.filter (fun x => x.1 != k) })
      else s1).evict n l
    else s.evict n l

/-- The lines of a range are in the cache. -/
def State.fillLines (s : State) (n : Nat) : List Nat → State
  | [] => s
  | va :: l => (s.fillLine n va).fillLines n l

end Sys2Proof.Machine
end

