-- ==== Sys2Proof/Machine/Fault.lean ====
section
/-! DEFINITION. The chip fault buffer (R351, R352), event words to the host (R401), the schedule cycle (R361) and
the trace sample buffer (R363 to R366). -/

namespace Sys2Proof.Machine

/-! ### Free values -/

/-- A value that the spec leaves open, and the state that has drawn it (log 23, DESIGN CHOICE). -/
def State.free (s : State) : Word := Config.freeWord s.frees
def State.drawn (s : State) : State := { s with frees := s.frees + 1 }

/-! ### Events to the host -/

/-- An event word (R401): the event in [63:56] and a detail that the spec leaves open. It is written to the host
address, which names the host in [63:48], once the module is at `READY` (log 24, DESIGN CHOICE). -/
def State.notify (s : State) (ev : Nat) : State :=
  let w := BitVec.ofNat 64 (ev * 2 ^ 56 + s.free.toNat % 2 ^ 56)
  let s1 := { s.drawn with mod := { s.mod with events := s.mod.events ++ [w] } }
  if s.mod.stage = 6 then
    let a := s.mod.evAddr.toNat
    { s1 with mem := s1.mem.store (nodeHome (a / 2 ^ 48) (a % 2 ^ 48)) (toBytes w.toNat 8) [] }
  else s1

/-! ### The fault buffer -/

/-- The device address of an entry (R351, R352). -/
def State.fbAt (s : State) (i : Nat) : Nat := s.mod.fbBase.toNat + 32 * i

def State.fbValid (s : State) (i : Nat) : Bool := bit (s.mem.word (s.fbAt i)) 63

/-- KIND and ASID of an entry's first word. -/
def fbKey (w : Word) : BitVec 24 := bits w 32 24

/-- The valid entry of the same KIND, ASID and 64 KiB region (R351). -/
def State.fbMatch (s : State) (p : Post) : Option Nat :=
  (upTo 0 256).find? (fun i => s.fbValid i && fbKey (s.mem.word (s.fbAt i)) == fbKey p.w0 &&
    (s.mem.word (s.fbAt i + 8)).toNat / 65536 == p.va.toNat / 65536)

def State.fbFree (s : State) : Option Nat := (upTo 0 256).find? (fun i => !s.fbValid i)

/-- The number of valid entries (R352). -/
def State.fbUsed (s : State) : Nat := ((upTo 0 256).filter s.fbValid).length

/-- The 32 bytes of an entry (R351). -/
def Post.bytes (p : Post) : List Byte :=
  toBytes p.w0.toNat 8 ++ toBytes p.va.toNat 8 ++ toBytes p.ba.toNat 8 ++ toBytes p.row.toNat 8

/-- The agent of a fault waits on an entry, or on its posting. -/
def State.waitOn (s : State) (f : Nat) (i : Option Nat) : State :=
  { s with mod := { s.mod with waits := (s.mod.waits.filter (fun w => w.1 != f)) ++ [(f, i)] } }

/-- An agent still waits for a fault by its name. -/
def State.faultOpen (s : State) (f : Nat) : Bool := s.mod.waits.any (fun w => w.1 == f)
/-- A fault is not posted yet (R352). -/
def State.faultUnposted (s : State) (f : Nat) : Bool := s.mod.waits.contains (f, none)

/-- A fault waits on a valid entry of its region, or takes a free one (R351). -/
def State.postTry (s : State) (p : Post) : Option State :=
  match s.fbMatch p with
  | some i => some (s.waitOn p.fid (some i))
  | none =>
    match s.fbFree with
    | some i => some (({ s with mem := s.mem.store (s.fbAt i) p.bytes [] }.waitOn p.fid (some i)).notify 1)
    | none => none

/-- Posting a fault (R351); with a full buffer it is kept until an entry frees, `FBS`.OVF counts, and the host is
interrupted (R352). -/
def State.post (s : State) (p : Post) : State :=
  match s.postTry p with
  | some s1 => s1
  | none =>
    let o := s.mod.ovf
    let m := { s.mod with
      posts := s.mod.posts ++ [p], ovf := if o = 0xFFFF then o else o + 1, ovfNow := s.mod.ovfNow + 1 }
    ({ s with mod := m }.waitOn
      p.fid none).notify 2

/-- The posts that wait for an entry, in order. -/
def State.postAll (s : State) : List Post → State
  | [] => s
  | p :: l =>
    match s.postTry p with
    | some s1 => s1.postAll l
    | none => { s with mod := { s.mod with posts := s.mod.posts ++ [p] } }.postAll l

/-- Entry `i` is marked done (R351): its V clears, its waiters go on, and kept posts take what is free. -/
def State.fbDone (s : State) (i : Nat) : State :=
  let a := s.fbAt i
  let w := s.mem.word a
  let s1 := { s with
    mem := s.mem.store a (toBytes (w &&& 0x7FFFFFFFFFFFFFFF).toNat 8) [],
    mod := { s.mod with waits := s.mod.waits.filter (fun x => x.2 != some i), posts := [] } }
  s1.postAll s.mod.posts

/-- The first word of an entry (R351). -/
def fbWord (kind : Nat) (asid : BitVec 16) (n agent eng : Nat) (wr : Bool) : Word :=
  BitVec.ofNat 64 (2 ^ 63 + kind * 2 ^ 48 + asid.toNat * 2 ^ 32 + (n % 2) * 2 ^ 31 + coreOf n * 2 ^ 24 +
    agent * 2 ^ 21 + eng * 2 ^ 19 + (bbit wr).toNat * 2 ^ 18)

/-- An agent's fault of a context gets a name, and is posted. `kind`: 0x30 a page fault, 0x31 `MARK_CHAIN`. -/
def State.postFault (s : State) (kind n agent eng : Nat) (wr : Bool) (va ba row : Nat) : State × Nat :=
  let p : Post := Post.mk s.uid (fbWord kind (s.ctx n).asid n agent eng wr) (BitVec.ofNat 64 va)
    (BitVec.ofNat 64 ba) (BitVec.ofNat 64 row)
  ({ s with uid := s.uid + 1 }.post p, s.uid)

/-! ### The schedule cycle -/

/-- `SCY` of a context (R361): the levels held, and the bundles issued in the current iteration. -/
def Ctx.scy (c : Ctx) : Word :=
  BitVec.ofNat 64 (c.loops.length * 2 ^ 32 +
    (c.issued - (match c.loops with | l :: _ => l.began | [] => 0)) % 2 ^ 32)

/-! ### The trace sample buffer -/

def Wing.tSize (w : Wing) : Nat := 2 ^ (bits w.tsb 0 6).toNat
/-- The device address of the buffer: BASE, aligned to the size (R363). -/
def Wing.tBase (w : Wing) : Nat :=
  let b := w.tsb.toNat % 2 ^ 48
  b - b % w.tSize

/-- Where the next record would go: behind the records still being written, else `TSW`. -/
def Wing.tAt (w : Wing) : Nat :=
  match w.recs.getLast? with
  | some r => r.next.toNat % w.tSize
  | none => w.tsw.toNat % w.tSize

/-- The units free at the writer's place (R365). -/
def Wing.tFree (w : Wing) : Nat := ((w.tsl.toNat + w.tSize - w.tAt) % w.tSize) / 32

def xorBytes (bs : List Byte) : Byte := bs.foldl (fun a b => a ^^^ b) 0

/-- The header of a record (R364). -/
def traceHdr (units ty lost : Nat) (n : Nat) (seq : BitVec 8) : List Byte :=
  let b0 : Byte := 0xC3
  let b1 : Byte := 0xA5
  let b2 := BitVec.ofNat 8 (units - 1 + 4 * ty)
  let b4 := BitVec.ofNat 8 lost
  let b5 := BitVec.ofNat 8 (lost / 256)
  let b6 := BitVec.ofNat 8 (coreOf n + 128 * (n % 2))
  [b0, b1, b2, xorBytes [b0, b1, b2, b4, b5, b6, seq] ^^^ 0x5A, b4, b5, b6, seq]

/-- One record is placed at the writer's place, to be written piece by piece. DEDUCED (log 51). -/
def State.tracePut (s : State) (k n ty : Nat) (body : List Byte) : State :=
  let w := s.wing k
  let units := (body.length + 8) / 32
  let r : TraceR := {
    addr := w.tBase + w.tAt, bytes := traceHdr units ty (min w.lost 0xFFFF) n w.tseq ++ body, left := units + 1,
    next := BitVec.ofNat 32 ((w.tAt + 8 + body.length) % w.tSize) }
  s.setWing k { w with recs := w.recs ++ [r], tseq := w.tseq + 1, lost := 0 }

/-- The piece written when `left` are left (R365): its offset in the record and its length. -/
def tracePiece (left : Nat) : Nat × Nat :=
  if left ≥ 3 then (32 * (left - 2), 32) else if left = 2 then (8, 24) else (0, 8)

/-- One piece of the oldest record is written: from its last unit back to unit 0, the header last, and `TSW` moves past it
then (R365). -/
def State.traceWrite (s : State) (k : Nat) : State :=
  let w := s.wing k
  match w.recs with
  | [] => s
  | r :: l =>
    let p := tracePiece r.left
    let s1 := { s with mem := s.mem.store (r.addr + p.1) ((r.bytes.drop p.1).take p.2) [] }
    if r.left ≤ 1 then s1.setWing k { w with recs := l, tsw := r.next }
    else s1.setWing k { w with recs := { r with left := r.left - 1 } :: l }

/-- The writer of a wing in one cycle: how long a piece takes is free (log 51). -/
def State.traceStep (s : State) (k : Nat) : State :=
  if (s.wing k).recs = [] then s
  else if Config.freeBool s.frees then s.drawn.traceWrite k
  else s.drawn

/-- A record of `ty` and its padding where it would pass the end, when all of its units are free; else it counts as
lost (R365). -/
def State.traceRec (s : State) (k n ty : Nat) (body : List Byte) : State :=
  let w := s.wing k
  let units := (body.length + 8) / 32
  let tail := (w.tSize - w.tAt) / 32
  let pad := if tail < units then tail else 0
  if !w.tsc.getLsbD 63 then s
  else if w.tFree < units + pad then s.setWing k { w with lost := w.lost + 1 }
  else
    let s1 := if pad = 0 then s else s.tracePut k n 3 (List.replicate (32 * pad - 8) 0)
    s1.tracePut k n ty body

/-- The 8 bytes of a header hold SYNC and their CHK (R364). -/
def traceHdrOk (h : List Byte) : Bool :=
  let b := fun (i : Nat) => h.getD i 0
  b 0 == 0xC3 && b 1 == 0xA5 && b 3 == xorBytes [b 0, b 1, b 2, b 4, b 5, b 6, b 7] ^^^ 0x5A

/-- The records that a reader finds from offset `o` on, which it does not know to start one: their offsets (R366). -/
def State.traceFind (s : State) (k : Nat) : Nat → Nat → List Nat
  | 0, _ => []
  | f + 1, o =>
    let w := s.wing k
    let h := s.mem.read (w.tBase + o) 8
    let len := 32 * ((h.getD 2 0).toNat % 4 + 1)
    if o = w.tsw.toNat then []
    else if traceHdrOk h && decide (len ≤ (w.tsw.toNat + w.tSize - o) % w.tSize) then
      o :: s.traceFind k f ((o + len) % w.tSize)
    else s.traceFind k f ((o + 32) % w.tSize)

/-- The reader of R366 from a starting offset; at most one turn of the buffer. -/
def State.traceReader (s : State) (k start : Nat) : List Nat :=
  s.traceFind k ((s.wing k).tSize / 32 + 1) (((start + 31) / 32 * 32) % (s.wing k).tSize)

/-- Where the sequencer of a context stands: the next bundle's address. -/
def Ctx.nextPc (c : Ctx) : Nat := match c.group with | b :: _ => b.addr | [] => c.pc

/-- The context whose program counter a context follows (R100). -/
def State.leadN (s : State) (n : Nat) : Nat := if (s.ctx n).fuseW ≤ 1 then n else (s.ctx n).fuse0
def State.leadC (s : State) (n : Nat) : Ctx := s.ctx (s.leadN n)

/-- Bytes 8 to 31 of a record (R364). -/
def State.traceBody (s : State) (n ba why : Nat) (scy : Word) : List Byte :=
  let p := s.codeByte (s.leadN n) ba
  toBytes (ba % 2 ^ 48 + (scy.toNat / 2 ^ 32 % 8) * 2 ^ 48 + why * 2 ^ 53 + p.toNat * 2 ^ 56) 8 ++
    toBytes (scy.toNat % 2 ^ 32 + ((s.ctx n).ic % 2 ^ 32) * 2 ^ 32) 8 ++ toBytes s.mod.ticks.toNat 8

/-- A SAMPLE of a context (R363). -/
def State.traceSample (s : State) (n : Nat) : State :=
  s.traceRec (wingOf n) n 0 (s.traceBody n (s.leadC n).nextPc 0 (s.leadC n).scy)

/-- A STOP record before bundle `ba` (R359, R364). -/
def State.traceStop (s : State) (n ba why : Nat) : State :=
  if (s.wing (wingOf n)).tsc.getLsbD 61 then
    s.traceRec (wingOf n) n 1 (s.traceBody n ba why (s.leadC n).scy)
  else s

/-- A TRAP record with the first 96 bytes of the frame (R364). -/
def State.traceTrap (s : State) (n : Nat) (t : TrapRec) (frame : List Byte) : State :=
  if (s.wing (wingOf n)).tsc.getLsbD 62 then
    s.traceRec (wingOf n) n 2 (s.traceBody n t.ba 0 t.scy ++ frame.take 96)
  else s

end Sys2Proof.Machine
end

