-- ==== Sys2Proof/Machine/Carry.lean ====
section
/-! DEFINITION. Carry-speculative loops (R306 to R317, R406, R407). Each of the four operations acts once, in member
0, for the whole group (R307). -/

namespace Sys2Proof.Machine

/-! ### Rounds -/

/-- The members of the carry loop of a fused machine, member 0 first. -/
def CarryL.members (l : CarryL) (lead : Nat) : List Nat := (upTo 0 l.w).map (fun k => lead + 2 * k)

/-- The carry registers of a mask, as codes of `sa` and `v` (R306). -/
def CarryL.sRegs (l : CarryL) : List Nat := (upTo 0 8).filterMap (fun k => if bit l.mask k then some (40 + k) else none)
def CarryL.vRegs (l : CarryL) : List Nat := (upTo 0 2).filterMap (fun k => if bit l.mask (8 + k) then some (40 + k) else none)

/-- Where the carry-in of a carry register stands (R311): beside the registers, so that resolutions reach it. -/
def ciReg (r : Nat) : Nat := 200 + r

/-- A round starts in one member (R310). -/
def State.joinRound (s : State) (lead k : Nat) : State :=
  let l := (s.ctx lead).cloop
  let act := decide (k < min l.w l.r.toNat)
  let lit := decide (1 ≤ k) && act
  let s1 := s.onCtx (lead + 2 * k) (fun c => { c with
    sa := c.sa.set 39 { v := l.i + BitVec.ofNat 64 k },
    carry := { lit := if lit then some s.uid else none, active := true, inact := !act, g0 := c.g, gp0 := c.gpend,
               op0 := c.opens.map (fun o => o.id) },
    opens := if lit then c.opens ++ [{ id := s.uid, reg := 0 }] else c.opens })
  { s1 with uid := s.uid + 1 }

def State.joinAll (s : State) (lead : Nat) : List Nat → State
  | [] => s
  | k :: l => (s.joinRound lead k).joinAll lead l

/-- A round starts in every member (R310). -/
def State.startRound (s : State) (lead : Nat) : State :=
  let l := (s.ctx lead).cloop
  (s.joinAll lead (upTo 0 l.w)).onCtx lead (fun c => { c with cloop := { c.cloop with phase := 0, taken := 0 } })

/-- The literal of a member resolves false, and its part in the round ends. -/
def Ctx.leaveRound (c : Ctx) : Ctx :=
  { (match c.carry.lit with
    | some id => if (c.open? id).isSome then c.resolve id false else c
    | none => c) with carry := {} }

/-- A trap abandons the round (R315): every literal resolves false, the larders of members 1 to W − 1 are dropped, and
the carry level is popped. -/
def State.abandonRound (s : State) (lead : Nat) : State :=
  let l := (s.ctx lead).cloop
  if !l.on then s
  else
    let ms := l.members lead
    let s1 := s.onCtxs Ctx.leaveRound ms
    let s2 := s1.onCtxs (fun c => { c with larder := [] }) (ms.drop 1)
    s2.onCtx lead (fun c => { c with
      cloop := {},
      loops := match c.loops with | x :: r => if x.carry then r else x :: r | [] => [] })

/-- A mark in every member, to be taken again when the bundle has ended (log 21, DEDUCED). -/
def State.markAll (s : State) (addr : Nat) : List Nat → State
  | [] => s
  | n :: l => ((s.takeMark n addr).onCtx n (fun c => { c with marking := true })).markAll addr l

/-- The first of several traps. -/
def firstTrap : List (Option TrapRec) → Option TrapRec
  | [] => none
  | some t :: _ => some t
  | none :: l => firstTrap l

/-! ### `cgo` -/

/-- `cgo` (R309): the mark is taken first, also where the stack is full; the level is pushed, and the round starts at the end of the bundle, after the mark. -/
def State.cgo (s : State) (h : Hdr) (o : CIOp) (w : Nat) : State :=
  if !s.isLead then s
  else if s.latch.n % 2 = 1 || s.cur.fuseW ≠ w then s.stat (.trap (s.trapRec .fuseState 0 0))
  else if !s.members.all (fun m => (s.ctx m).quiet s.latch.ic) then s.stat (.stall [])
  else
    let start := s.cur.gnext
    let ms := s.members
    if ms.any (fun m => (s.ctx m).spills) then s.stat .spill
    else if 6 ≤ s.cur.loops.length + s.cur.push.length then
      (s.markAll start ms).onCur (fun c => { c with fatalP := slotFirst c.fatalP (some s.depthTrap) })
    else
      let i := one (s.sSrc 39)
      let t := one (s.sSrc o.d.toNat)
      match firstTrap [s.useTrap i 0 4 false, s.useTrap t 0 4 false] with
      | some r => s.stat (.trap r)
      | none =>
        let s1 := s.onCur (fun c =>
          let lv : Level := Level.mk 0 t.v start start true (c.issued + 1)
          let cl : CarryL := CarryL.mk true i.v t.v t.v w (ciVal h o).toNat start 3 0
          { c with loops := lv :: c.loops, cloop := cl })
        s1.markAll start ms

def execCgo2 (h : Hdr) (o : CIOp) (s : State) : Host.Outcome State Fault Refusal := .next (s.cgo h o 2)
def execCgo4 (h : Hdr) (o : CIOp) (s : State) : Host.Outcome State Fault Refusal := .next (s.cgo h o 4)

/-! ### `cguess` -/

/-- Whether the bundle stands in a carry round in the phase given (R407). DEDUCED (log 64). -/
def State.inPhase (s : State) (p : Nat) : Bool :=
  s.seqC.cloop.on && decide (s.seqC.cloop.phase = p) &&
    (match s.seqC.loops with | l :: _ => l.carry | [] => false)

/-- A result due to a carry register is not visible yet (R311). -/
def Ctx.carryWaits (c : Ctx) (l : CarryL) (t : Nat) : Bool :=
  c.sa.pend.any (fun x => l.sRegs.contains x.dst && x.waits t) ||
  c.v.pend.any (fun x => l.vRegs.contains x.dst && x.waits t)

/-- Alternatives of a register as the member sees them under its acceptance literal. -/
def altsUnder {w p : Nat} (k : Tag) (as : List (Alt w p)) : List (Alt w p) :=
  as.filterMap (fun a => if tagOk (tagAnd a.tag k) then some { a with tag := a.tag.filter (fun x => !k.contains x) } else none)

def recordCi {w p : Nat} (k : Tag) (t : Nat) (f : RegFile w p) : List Nat → RegFile w p
  | [] => f
  | r :: l => recordCi k t { f with base := mput f.base (ciReg r) (altsUnder k (f.at r t)) } l

/-- The carry-ins of a member are recorded (R311). -/
def Ctx.recordCarry (l : CarryL) (t : Nat) (c : Ctx) : Ctx :=
  { c with sa := recordCi c.carryTag t c.sa l.sRegs, v := recordCi c.carryTag t c.v l.vRegs }

/-- `cguess` (R311): an exhausted loop is left at the byte after the `cend` bundle; else the carry-ins are
recorded and the body begins. -/
def execCguess (h : Hdr) (o : CBOp) (s : State) : Host.Outcome State Fault Refusal :=
  .next (
    let l := s.seqC.cloop
    let ms := l.members s.seqN
    if !s.isLead then s
    else if !s.inPhase 0 then s.illegal
    else if ms.any (fun m => (s.ctx m).carryWaits l s.latch.ic) then s.stat .wait
    else
      let at' := s.target (o.dist h)
      let stop := at' + (s.codeAt s.latch.n at' l.w).len
      if l.r = 0 then
        let s1 := s.onCtxs Ctx.leaveRound ms
        (s1.onCur (fun c => { c with cloop := {}, loops := c.loops.drop 1 })).jump stop 1
      else
        let s1 := s.onCtxs (Ctx.recordCarry l s.latch.ic) ms
        s1.onCur (fun c => { c with
          cloop := { c.cloop with phase := 1 },
          loops := match c.loops with | x :: r => { x with stop := stop } :: r | [] => [] }))

/-! ### `cchk` -/

/-- One clean value, where the alternatives are one. -/
def altOne {w p : Nat} (as : List (Alt w p)) : Option (BitVec w) :=
  match as with
  | [a] => if a.val.p == 0 && a.val.f.isNone then some a.val.v else none
  | _ => none

/-- The one alternative of a register under the member's literal. -/
def altHead {w p : Nat} (as : List (Alt w p)) : Val w p := match as with | a :: _ => a.val | [] => {}

/-- Carry-in of one member and carry-out of the member before it agree bit for bit, poison never (R314). -/
def carryMatch (l : CarryL) (t : Nat) (c prev : Ctx) : Bool :=
  let ok := fun (x y : Option Nat) => x.isSome && x == y
  l.sRegs.all (fun r => ok ((altOne (altsUnder c.carryTag (c.sa.held (ciReg r)))).map BitVec.toNat)
    ((altOne (altsUnder prev.carryTag (prev.sa.at r t))).map BitVec.toNat)) &&
  l.vRegs.all (fun r => ok ((altOne (altsUnder c.carryTag (c.v.held (ciReg r)))).map BitVec.toNat)
    ((altOne (altsUnder prev.carryTag (prev.v.at r t))).map BitVec.toNat))

/-- The member is hit by stores of the members before it (R313). -/
def Ctx.isHit (c : Ctx) (before : List Nat) : Bool :=
  decide (256 < c.carry.loads.length) || c.carry.loads.any (fun x => before.contains x)

/-- A tag is true apart from the member's literal (R314). -/
def Ctx.trueApart (c : Ctx) (t : Tag) : Bool := t.all (fun l => some l.id == c.carry.lit && l.pos)

/-- The deferred traps of a member whose tags are true apart from its literal (R314), the `POISON` of an overdue landing that a
`gcmp` has read among them (R116). DEDUCED (log 52). -/
def Ctx.trueTraps (c : Ctx) : List TrapRec :=
  c.larder.filterMap (fun e =>
    if e.dead || !c.trueApart e.tag then none
    else match e.op with
      | .raise t => some t
      | _ => e.trap) ++
  c.gtraps.filterMap (fun g => if c.trueApart g.1 then some g.2 else none)

/-- The decision of R314 from member `k` on: the members accepted, or the `NOT_SPECULABLE` of a member. -/
def State.decideRound (s : State) (l : CarryL) (t : Nat) (prev : Nat) (before : List Nat) (k : Nat) :
    List Nat → Nat × Option (Nat × TrapRec)
  | [] => (k, none)
  | n :: ns =>
    let c := s.ctx n
    if c.carry.inact || c.carry.rejected || !carryMatch l t c (s.ctx prev) || c.isHit before then (k, none)
    else
      match c.trueTraps with
      | r :: _ => if r.code = .notSpeculable then (k, some (n, r)) else (k, none)
      | [] => s.decideRound l t n (before ++ c.carry.stores) (k + 1) ns

/-- The literal of a member is decided: its registers follow in two cycles (R117), its larder in the next (R321). -/
def Ctx.settleLit (c : Ctx) (b : Bool) (cyc : Nat) : Ctx :=
  { c with
    larder := match c.carry.lit with
      | some id => c.larder.map (fun e => { e with dead := e.dead || tagDead id b e.tag, tag := tagStrike id e.tag })
      | none => c.larder,
    carry := { c.carry with rejected := c.carry.rejected || !b },
    opens := c.opens.map (fun o => if some o.id == c.carry.lit then { o with decided := some (b, cyc) } else o) }

def State.settleLits (s : State) (taken k : Nat) : List Nat → State
  | [] => s
  | n :: l => (s.onCtx n (fun c => c.settleLit (decide (k < taken)) s.cycle)).settleLits taken (k + 1) l

/-- The carry registers of a context receive the values given, visible at `due` (R314). -/
def Ctx.takeCarry (due seq : Nat) (xs : List (Nat × SVal)) (ys : List (Nat × VVal)) (c : Ctx) : Ctx :=
  { c with
    sa := xs.foldl (fun f x => f.add { dst := x.1, due := due, seq := seq, alts := [{ val := x.2, gen := seq }] }) c.sa,
    v := ys.foldl (fun f x => f.add { dst := x.1, due := due, seq := seq, alts := [{ val := x.2, gen := seq }] }) c.v }

/-- `cchk` (R314). -/
def execCchk (_h : Hdr) (_o : CROp) (s : State) : Host.Outcome State Fault Refusal :=
  .next (
    let l := s.seqC.cloop
    let ms := l.members s.seqN
    let t := s.latch.ic
    if !s.isLead then s
    else if !s.inPhase 1 then s.illegal
    else if ms.any (fun m => !(s.ctx m).settled t || (s.ctx m).opens.any (fun o => o.reg != 0)) then s.stat (.stall [])
    else
      match s.decideRound l t s.latch.n s.cur.carry.stores 1 (ms.drop 1) with
      | (_, some (n, r)) => s.onCtx n (fun c => { c with fatalP := slotFirst c.fatalP (some r) })
      | (a, none) =>
        let last := s.ctx (s.latch.n + 2 * (a - 1))
        let xs := l.sRegs.map (fun r => (r, altHead (altsUnder last.carryTag (last.sa.at r t))))
        let ys := l.vRegs.map (fun r => (r, altHead (altsUnder last.carryTag (last.v.at r t))))
        let s1 := s.settleLits a 1 (ms.drop 1)
        let s2 := s1.onCtxs (Ctx.takeCarry (t + 2) s.uid xs ys) ms
        let s3 := { s2 with uid := s.uid + 1 }
        s3.onCur (fun c => { c with cloop := { c.cloop with phase := 2, taken := a } }))

/-! ### `cend` -/

/-- No released store or atomic of a context is left to perform, and none has performed in this cycle (R314, R316, R321). DEDUCED (log
25). -/
def Ctx.relDone (c : Ctx) (cyc : Nat) : Bool :=
  decide (c.carry.relAt ≤ cyc) && c.outs.all (fun o => o.perf || !c.carry.rels.contains o.id)
/-- Nor is any entry held. -/
def Ctx.flushed (c : Ctx) (cyc : Nat) : Bool := c.larder.all (fun e => e.dead) && c.relDone cyc

/-- `cend` (R316, R317): a pre-emption point; the next round starts when its bundle has ended. -/
def execCend (h : Hdr) (o : CBOp) (s : State) : Host.Outcome State Fault Refusal :=
  .next (
    let l := s.seqC.cloop
    let ms := l.members s.seqN
    if !s.isLead then s
    else if !s.inPhase 2 || s.target (o.dist h) ≠ l.start then s.illegal
    else if ms.any (fun m => !(s.ctx m).flushed s.cycle || !(s.ctx m).quiet s.latch.ic) then s.stat (.stall [])
    else
      let a := BitVec.ofNat 64 l.taken
      let r := l.r - a
      let rej := BitVec.ofNat 64 (min l.w l.r.toNat - l.taken)
      let pos := s.cur.loops.length - 1
      let s1 := s.onCtxs (fun c =>
        { ((c.lscAdd pos 18 a).lscAdd pos 19 rej).lscAdd pos 20 a with carry := {}, larder := [] }) ms
      let s2 := if r = 0 then s1.onCur (fun c => { c with loops := c.loops.drop 1, cloop := {} })
        else s1.onCur (fun c => { c with
          loops := match c.loops with
            | x :: t => { x with index := x.index + a, began := c.issued + 1 } :: t
            | [] => [],
          cloop := { c.cloop with i := l.i + a, r := r, phase := 3, taken := 0 } })
      let next := if r = 0 then s.latch.next else l.start
      let s3 := (s2.markAll next ms).onCur (fun c => { c with pointed := true })
      if r = 0 then s3 else s3.jump l.start 0)

end Sys2Proof.Machine
end

