-- ==== Sys2Proof/Machine/Trap.lean ====
section
/-! DEFINITION. Taking an exception and returning from one (R342 to R350), rollback (R105), and the end of a killed
kernel (R348). -/

namespace Sys2Proof.Machine

/-! ### The frame -/

/-- The fused member number of a context, and whether it is fused. -/
def Ctx.memberOf (c : Ctx) (n : Nat) : Nat := if c.fuseW ≤ 1 then 0 else (n - c.fuse0) / 2

/-- The register that a frame or a handler sees: its one alternative. -/
def Ctx.sNow (c : Ctx) (r : Nat) : Word := (one (tagged (c.sAt r c.ic))).v

/-- The frame of a trap in context `n` (R344). RA is the next bundle, where the trap is raised at a bundle boundary: a deferred
one, or one of an engine, a pipe or a home. -/
def State.frame (s : State) (n : Nat) (t : TrapRec) (dbl : Bool) : List Byte :=
  let c := s.ctx n
  let ra := if t.deferred || t.ra == 0 then (s.leadC n).nextPc else t.ra
  let info := t.code.num + t.slot % 8 * 2 ^ 8 + (bbit t.deferred).toNat * 2 ^ 11 + (bbit dbl).toNat * 2 ^ 12 +
    c.memberOf n % 4 * 2 ^ 13 + (bbit (decide (1 < c.fuseW))).toNat * 2 ^ 15 + (bbit c.lvl).toNat * 2 ^ 16 +
    coreOf n * 2 ^ 24 + n % 2 * 2 ^ 31
  toBytes info 8 ++ toBytes t.ba 8 ++ toBytes ra 8 ++ toBytes t.info0.toNat 8 ++ toBytes t.info1.toNat 8 ++
    toBytes c.ic 8 ++ toBytes t.scy.toNat 8 ++ toBytes 0 8 ++ toBytes (c.sNow 60).toNat 8 ++
    toBytes (c.sNow 61).toNat 8 ++ toBytes (c.sNow 62).toNat 8 ++ toBytes (c.sNow 63).toNat 8 ++ toBytes 0 32

/-! ### Rollback -/

/-- The comparators that a context's bundle of this cycle arms stand armed already (R247). -/
def Core.armOf (d : Core) (n : Nat) : Core :=
  { d with
    wake := (d.wakeP.filter (fun x => x.2.n == n)).foldl (fun m x => mput m x.1 x.2) d.wake,
    wakeP := d.wakeP.filter (fun x => x.2.n != n) }

/-- A context returns to its mark (R105): the shadow is restored, the larder and the results, landings, writes of
special registers, arrivals and fence points of discarded bundles go (R104, R164), and every armed comparator has its token pending (R250). DEDUCED (log 29). -/
def State.rollback (s : State) (n : Nat) : State :=
  match (s.ctx n).shadow with
  | none => s
  | some z =>
    let s1 := s.dropPorch n z.regs.refs z.seq
    let s2 := s1.onCtx n (fun c => { c with
      toRegs := z.regs, cloop := z.cloop, larder := [], larderOff := false,
      fences := c.fences.filter (fun f => decide (f.seq < z.seq)),
      arrP := c.arrP.filter (fun a => decide (a.seq < z.seq)),
      csrPend := c.csrPend.filter (fun x => z.csr.contains x),
      group := [], push := [], go := none, took := false, pc := z.addr, ended := none, marked := false,
      marking := false, pass := false, reach := .none, inv := [], invN := [], parting := false, trapP := none, trapQ := [], quits := false,
      faultP := none, stopReq := none, swOut := false, pointed := false, part := none })
    s2.onCore (coreOf n) (fun d0 =>
      let d := d0.armOf n
      let armed := (upTo 0 8).filter (fun w => (mget {} d.wake w).armed && (mget {} d.wake w).n == n)
      { d with
        consumed := z.consumed.foldl (fun m x => mput m x.1 x.2) d.consumed,
        tokens := d.tokens ++ armed.filter (fun w => !d.tokens.contains w) })

def State.rollAll (s : State) : List Nat → State
  | [] => s
  | n :: l => (s.rollback n).rollAll l

/-- A rollback of a context takes the members of its fused machine with it; a carry round starts again from its guess
routine (R105, R315). DEDUCED (log 28). -/
def State.rollGroup (s : State) (n : Nat) : State :=
  let lead := s.leadN n
  let s1 := s.rollAll (s.membersOf n)
  if (s1.ctx lead).cloop.on then
    let s2 := s1.onCtxs (fun c => { c with carry := {} }) (s.membersOf n)
    if (s2.ctx lead).swOut then s2 else s2.startRound lead
  else s1

/-! ### Fatal traps -/

/-- Some repeats of the first bundle have issued and some have not (R24): no bundle boundary stands here (R348, R359). -/
def Ctx.between (c : Ctx) : Bool := match c.group with | b :: _ => b.left != b.hdr.rep.toNat + 1 | [] => false

/-- A context stands within the repeats of its machine's bundle. -/
def State.midRep (s : State) (n : Nat) : Bool := (s.leadC n).between

/-- The contexts that a kernel has placed and that have not been switched off. -/
def State.ctxsOf (s : State) (k : Nat) : List Nat :=
  (s.ctxs.filter (fun e => e.2.kernel == k && e.2.mode != .off)).map (fun e => e.1)

/-- The copy commands that go on when a kernel is killed: one that has started elements completes them, and no more (R348). -/
def CopyCmd.stop (ns : List Nat) (c : CopyCmd) : Option CopyCmd :=
  if !ns.contains c.n then some c
  else if !c.flight.isEmpty then some { c with halted := true, phase := 1, waitF := none, sw := none, arr := none }
  else none

/-- A relocation command of a killed kernel finishes the tile that it is moving, and no more (R348). -/
def RelocCmd.stop (ns : List Nat) (c : RelocCmd) : Option RelocCmd :=
  if !ns.contains c.n then some c
  else if decide (1 ≤ c.phase ∧ c.phase ≤ 5) then some { c with len := c.tile + 1, sw := none, arr := none }
  else none

/-- A link send of a killed kernel whose flits have left goes on; no other command does. -/
def LinkCmd.stop (ns : List Nat) (c : LinkCmd) : Option LinkCmd :=
  if !ns.contains c.n then some c else if c.gone then some { c with arr := none } else none

/-- A core is frozen on a receive that is dropped with its kernel (R331): its freeze ends. -/
def State.freesLate (s : State) (ns : List Nat) (d : Core) : Bool :=
  match d.late with
  | some (n, id) => s.wings.any (fun e => e.2.link.any (fun c => c.n == n && c.id == id && (c.stop ns).isNone))
  | none => false

/-- The engines drop what a killed kernel has queued (R348). -/
def State.dropCommands (s : State) (ns : List Nat) : State :=
  { s with
    clusters := s.clusters.map (fun e => (e.1, { e.2 with queue := e.2.queue.filterMap (CopyCmd.stop ns) })),
    wings := s.wings.map (fun e => (e.1, { e.2 with
      reloc := e.2.reloc.filterMap (RelocCmd.stop ns), link := e.2.link.filterMap (LinkCmd.stop ns) })),
    cores := s.cores.map (fun e => (e.1, { e.2 with
      queue := e.2.queue.filter (fun r => !ns.contains r.n), late := if s.freesLate ns e.2 then none else e.2.late })) }

/-- A command by its name stands in an engine's or an array's queue. -/
def State.hasCommand (s : State) (id : Nat) : Bool :=
  s.clusters.any (fun e => e.2.queue.any (fun c => c.id == id)) ||
  s.wings.any (fun e => e.2.reloc.any (fun c => c.id == id) || e.2.link.any (fun c => c.id == id)) ||
  s.cores.any (fun e => e.2.queue.any (fun r => r.id == id))

/-- A context stops for good: its larder, its pending results and its dropped commands go (R348). -/
def State.stopAll (s : State) : List Nat → State
  | [] => s
  | n :: l =>
    ((s.onCtx n (fun c => { c.retire with
      trapP := none, trapQ := [], fatalP := none, faultP := none, hold := .none,
      outs := c.outs.filter (fun o => decide (o.kind < 3) || s.hasCommand o.id) })).dropPorch n [] 0).stopAll l

/-- Contexts of a killed kernel stop at their next bundle boundary: one within the repeats of its bundle behind the last (R348). -/
def State.stopAt (s : State) (ns : List Nat) : State :=
  (s.onCtxs (fun c => { c with dies := true }) (ns.filter s.midRep)).stopAll (ns.filter (fun n => !s.midRep n))

/-- A kernel ends with an outcome (R377); the first one stands, but a KILL ends a kernel that would run again (R372, R348). -/
def State.killKernel (s : State) (k out : Nat) (frame : List Byte) : State :=
  let ns := s.ctxsOf k
  let s1 := (s.dropCommands ns).stopAt ns
  match s1.mod.kernels.find? (fun e => e.1 == k) with
  | none => s1
  | some e =>
    let ker := e.2
    let again := ker.dying == some 1 && ker.reruns < ker.retry
    let ker1 := if ker.dying.isSome && !(out == 2 && again) then ker else { ker with dying := some out, frame := frame }
    { s1 with mod := { s1.mod with kernels := mput s1.mod.kernels k ker1 } }

/-- A fatal trap (R348): every context of the kernel stops, and the frame of the kernel's first one is kept. -/
def State.fatal (s : State) (n : Nat) (t : TrapRec) : State :=
  let dbl := t.code.handled && !t.forceFatal && (s.ctx n).inh
  let f := s.frame n t dbl
  (s.traceTrap n t f).killKernel (s.ctx n).kernel 1 f

/-! ### Taking a handled trap -/

/-- Where a context's frame area lies, when it translates through a writable `KIND` 1 entry, or one of `KIND` 2 that names this core and
acts as one (R136, R347). -/
def State.frameHome (s : State) (n : Nat) : Option Tgt :=
  let c := s.ctx n
  match tLookup c.table.core c.tfa.toNat with
  | none => none
  | some e => if e.p && e.w && (e.tgt (coreOf n) c.tfa.toNat).place = 0 then some (e.tgt (coreOf n) c.tfa.toNat) else none

/-- The frame as an own-scratch store of this cycle (R347). -/
def State.storeFrame (s : State) (n : Nat) (t : TrapRec) (g : Tgt) (f : List Byte) : State :=
  let a : Acc := { id := s.uid, n := n, kind := .store, seq := s.uid, ea := (s.ctx n).tfa.toNat,
                   ea0 := (s.ctx n).tfa.toNat, place := 0, home := g.home, off := g.off, size := 128, data := f, ba := t.ba }
  { s with uid := s.uid + 1 }.atPort (portRank n (coreOf n) false) a []

/-- A member enters its handler (R347): the frame, `s60`, LVL, INH and the handler's address. A switch-out waits for the handler's own
points (R358). The rest of its group is not resumed
as that group: a level that an earlier bundle of it was to push, or a skip that it was to take, is dropped. DESIGN CHOICE (log 97). -/
def State.enterOne (s : State) (n : Nat) (t : TrapRec) : State :=
  match s.frameHome n with
  | none => s
  | some g =>
    let f := s.frame n t false
    let s1 := (s.storeFrame n t g f).traceTrap n t f
    s1.onCtx n (fun c => { c with
      sa := c.sa.set 60 { v := c.tfa }, lvl := true, inh := true, sticky := [], group := [], push := [], go := none,
      took := false, ended := none, pc := c.tvec.toNat, trapP := c.trapQ.head?, trapQ := c.trapQ.drop 1,
      larderOff := t.deferred, reach := .none, swOut := false, pointed := false,
      pass := false, fetchAt := s.cycle + 1 })

/-- Every member of a fused machine enters in the same cycle; one that did not trap writes CODE 0 with the same BA
(R347). -/
def State.enterAll (s : State) (t : TrapRec) : List Nat → State
  | [] => s
  | n :: l =>
    let own := match (s.ctx n).trapP with
      | some r => r
      | none => { t with code := .none, slot := 0, deferred := false, info0 := 0, info1 := 0 }
    (s.enterOne n own).enterAll t l

/-- Whether a trap of a context kills its kernel (R342, R347). -/
def State.isFatal (s : State) (n : Nat) (t : TrapRec) : Bool :=
  t.forceFatal || !t.code.handled || (s.ctx n).tvec == 0 || (s.ctx n).inh ||
    !(s.membersOf n).all (fun m => (s.frameHome m).isSome)

/-- Taking an exception in context `n`: the one operation for every trap of R342. -/
def State.takeTrap (s : State) (n : Nat) (t : TrapRec) : State :=
  if s.isFatal n t then s.fatal n t
  else
    let ms := s.membersOf n
    let s1 := s.abandonRound (s.leadN n)
    s1.enterAll t ms

/-! ### `trap` and `sret` -/

/-- `trap` (R349): raised once its issue group has ended, with the next bundle as RA; deferred under an open literal.
DEDUCED (log 67). -/
def execTrap (h : Hdr) (o : CIOp) (s : State) : Host.Outcome State Fault Refusal :=
  .next (s.guarded h (fun k =>
    let t := { s.trapRec .userTrap (BitVec.ofNat 64 (o.val h)) 0 with ra := s.latch.next }
    if k.held.isEmpty then s.onCur (fun c => { c with ended := some t })
    else s.withRoom 1 true (s.onCur Ctx.reject) (s.raiseTag k.held t)))

/-- Return from the handler (R350): `s60` to `s63`, the level and RA come from the frame, and held entries go on. -/
def State.sretFrom (s : State) (hm : Nat) : State :=
  let w := fun (i : Nat) => BitVec.ofNat 64 (leBytes (s.bytesAt (hm + i) 8))
  let p := fun (i : Nat) => bbit ((s.badAt (hm + i) 8).any (fun b => b))
  let put := fun (s : State) (r i : Nat) => s.deliverS {} r 1 [([], { v := w i, p := p i })]
  let s1 := put (put (put (put s 60 64) 61 72) 62 80) 63 88
  let s2 := s1.onCur (fun c => { c with
    lvl := (w 0).getLsbD 16, inh := false, larderOff := false, larder := c.larder.filter (fun e => !e.fired) })
  s2.jump (w 16).toNat 3

/-- `sret` (R350): privileged; outside a handler it raises `ILLEGAL_ENCODING`. -/
def execSret (h : Hdr) (_o : CROp) (s : State) : Host.Outcome State Fault Refusal :=
  .next (s.branchingK h [] (fun k =>
    if !s.cur.inh then s.branchTrap k s.illegalRec
    else
      match tLookup s.cur.table.core s.cur.tfa.toNat with
      | none => s.branchTrap k (s.trapRec .untranslated s.cur.tfa 0)
      | some e =>
        if !e.p then s.branchTrap k (s.trapRec .pageFault s.cur.tfa 0)
        else s.sretFrom (e.tgt (coreOf s.latch.n) s.cur.tfa.toNat).home))

end Sys2Proof.Machine
end

