-- ==== Sys2Proof/Machine/Perform.lean ====
section
/-! DEFINITION. Accesses that perform at a home (R154, R240, R242), the scratchpad ports at the end of a cycle (R145,
R248), answers reaching a core (R143, R86, R303, R304), and the release of the larder (R128). -/

namespace Sys2Proof.Machine

/-! ### At a home -/

/-- The armed comparators that a write of bytes fires (R248): core and number. -/
def State.firedBy (s : State) (hm len : Nat) : List (Nat × Nat) :=
  if isScratch hm then
    let k := scratchCore hm
    let d := s.core k
    let lo := scratchOff hm
    let hi := min (lo + len) (scratchBytes d)
    ((upTo 0 8).filter (fun w =>
      let c := mget {} d.wake w
      c.armed && decide (lo < hi ∧ lo < c.hi ∧ c.lo < hi))).map (fun w => (k, w))
  else []

/-- An atomic applied at its home, once (R240, R242, R245): the state, whether it wrote, the old bytes and their
poison. -/
def State.atomHome (s : State) (a : Acc) : State × Bool × List Byte × List Bool :=
  let old := s.bytesAt a.home a.size
  let bad := s.badAt a.home a.size
  let isBad := bad.any (fun b => b)
  let r := if isBad && a.aop == 10 then (0, false)
    else atomNew a.aop (8 * a.size) (leBytes old) a.x.toNat a.y.toNat
  if !r.2 then (s, false, old, bad)
  else
    let whole := decide (granuleSize a.home ≤ a.size)
    let bs := toBytes r.1 a.size
    if isBad && !(a.aop == 9 && whole) then
      ({ s with mem := s.mem.write a.home (s.inPart a.home bs) }, true, old, bad)
    else (s.storeAt a.home bs [], true, old, bad)

/-- A store or an atomic performs at its home; a correctable error that a core's own access meets at a peer's pool freezes that core
as well (R149). The state, the comparators it fires, what a returning form answers. -/
def State.performAt (s : State) (a : Acc) (bad : List Bool) (oor : Bool := true) : State × List (Nat × Nat) × List Byte × List Bool :=
  let s0 := s.correct a.home a.size (if a.place = 1 ∧ a.dst ≠ .engine then some (coreOf a.n) else none)
  let s1 := if oor then s0.recordOor a.n true a.place (scratchCore a.home) a.off a.size a.ba else s0
  match a.kind with
  | .atomic =>
    let r := s1.atomHome a
    (r.1, if r.2.1 then s1.firedBy a.home a.size else [], r.2.2.1, r.2.2.2)
  | _ => (s1.storeAt a.home a.data bad, s1.firedBy a.home a.data.length, [], [])

/-- One more word rewritten by a sweep, saturating (R290, R296). -/
def CopyCmd.tally (id : Nat) (c : CopyCmd) : CopyCmd :=
  if c.id = id then { c with count := min (c.count + 1) 0xFFFFFFFF } else c

def State.tally (s : State) (n id : Nat) : State :=
  let q := s.cluster (clusterOf n)
  s.setCluster (clusterOf n) { q with queue := q.queue.map (CopyCmd.tally id) }

/-- The send of a flit of this module, told that the flit has been written (R330, R335). -/
def State.flitSent (s : State) (x : Nat) : State :=
  { s with wings := s.wings.map (fun e => (e.1, { e.2 with link := e.2.link.map (fun c =>
      if c.id = x / 512 then { c with sent := c.sent.filter (fun i => i != x % 512) } else c) })) }

/-- What follows for the issuer (R139, R144, R154): a flit of this module carries its name, plus 1, in `ea0`; a store arrives now; place 6 stands for another node, its number in `ea0`; own and peer scratch complete at once, every other place answers; a
compare and swap of a sweep that succeeds counts. -/
def State.completed (s : State) (a : Acc) (bytes : List Byte) (bad : List Bool) : State :=
  if a.dst = .engine then
    (if a.kind = .atomic && !bad.any (fun b => b) && leBytes bytes == a.x.toNat then s.tally a.n a.seq
     else if a.ea0 ≠ 0 then s.flitSent (a.ea0 - 1) else s)
  else if a.place = 6 then
    { s with sent := s.sent ++ [{ node := a.ea0, bytes := if a.kind = .atomic then bytes else [] }] }
  else if 2 ≤ a.place then
    let s1 := { s with resps := s.resps ++ [⟨if a.kind = .store then { a with arr := none } else a, bytes, bad, none, 0, false⟩] }
    match a.kind, a.arr with
    | .store, some b => s1.toBarrier a.n a.slot a.ba b none
    | _, _ => s1
  else if a.ret then { s with resps := s.resps ++ [⟨a, bytes, bad, none, s.cycle + fixedLat a.place, true⟩] }
  else
    match a.arr with
    | some b => s.toBarrier a.n a.slot a.ba b none
    | none => s

/-! ### The ports at the end of a cycle -/

def portIns (x : PortW) : List PortW → List PortW
  | [] => [x]
  | y :: l => if x.rank ≤ y.rank then x :: y :: l else y :: portIns x l

/-- The writes of a cycle in the order of R145; those of one rank in the order in which they were made. -/
def portSort : List PortW → List PortW
  | [] => []
  | x :: l => portIns x (portSort l)

def State.portGo (s : State) (fired : List (Nat × Nat)) : List PortW → State × List (Nat × Nat)
  | [] => (s, fired)
  | x :: l =>
    let r := s.performAt x.acc x.bad x.oor
    (r.1.completed x.acc r.2.2.1 r.2.2.2).portGo (fired ++ r.2.1) l

/-- Tokens of the comparators fired in a cycle, in ascending number (R248). -/
def Core.pushTokens (d : Core) (fired : List Nat) : Core :=
  { d with tokens := d.tokens ++ (upTo 0 8).filter (fun w => fired.contains w && !d.tokens.contains w) }

/-- Comparators armed in this cycle: their pending tokens go (R247). -/
def Core.armNow (d : Core) : Core :=
  { d with
    wake := d.wakeP.foldl (fun m x => mput m x.1 x.2) d.wake,
    tokens := d.tokens.filter (fun w => !d.wakeP.any (fun x => x.1 == w)),
    wakeP := [] }

/-- The writes of this cycle are made, their comparators fire, and new comparators are armed. -/
def State.ports (s : State) : State :=
  let z := { s with portW := [] }.portGo [] (portSort s.portW)
  { z.1 with cores := z.1.cores.map (fun e =>
      (e.1, (e.2.pushTokens (z.2.filterMap (fun f => if f.1 = e.1 then some f.2 else none))).armNow)) }

/-! ### Answers -/

/-- A tag as it stands now that some of its guards are known; `none` once it is contrary. -/
def Ctx.tagNow (c : Ctx) (t : Tag) : Option Tag :=
  if t.any (fun l => c.known.contains (l.id, !l.pos)) then none
  else some (t.filter (fun l => !c.known.contains (l.id, l.pos)))

/-- The same as the alternatives of the registers see it, where a collapse has taken a sense for an open guard (R122). -/
def Ctx.tagLive (c : Ctx) (t : Tag) : Option Tag := (c.tagNow t).bind c.algTag

/-- A conditional add also moves what a post-step of the same base will leave later: that of a bundle that has issued ahead of its turn
(R86, R99). -/
def RegFile.stepsOver (f : RegFile 64 1) (x : Pend 64 1) : RegFile 64 1 :=
  { f with pend := f.pend.map (fun y =>
      if y.dst == x.dst && y.chase.isNone && decide (x.due < y.due) then { y with alts := Pend.apply y.alts x } else y) }

/-- The displacement of a chase is added to the base register (R86), at count `due`, or where that has passed, before the next bundle
reads it: on top of the post-steps that have fallen due. The access of an alternative that has been discarded adds nothing. -/
def State.rebase (s : State) (n : Nat) (b : BaseRef) (d : Word) (due : Nat) : State :=
  match (s.ctx n).tagLive b.tag with
  | none => s
  | some t =>
    { s.onCtx n (fun c =>
        let x : Pend 64 1 := { dst := aReg b.reg, due := max due c.ic, seq := s.uid, chase := some (b.gen, t, d) }
        { c with sa := (c.sa.stepsOver x).add x })
      with uid := s.uid + 1 }

def State.rebaseOpt (s : State) (n : Nat) (b : Option BaseRef) (d : Word) (hops due : Nat) : State :=
  if hops = 0 then s
  else
    match b with
    | some x => s.rebase n x d due
    | none => s


/-- Poisoned data that a `gcmp` waits for raises its trap (R115, R353). -/
def Regs.watchLand (r : Regs) (id : Nat) (v : SVal) : Regs :=
  let hit := r.gwatch.filter (fun w => w.1 == id)
  { r with
    gwatch := r.gwatch.filter (fun w => w.1 != id),
    gtraps := if v.p == 0 && v.f.isNone then r.gtraps
      else r.gtraps ++ hit.map (fun w => (w.2.1, v.f.getD w.2.2)) }

def Ctx.landS (c : Ctx) (id cyc : Nat) (soon : Bool) (v : SVal) : Ctx :=
  c.both (fun r => (({ r with sa := r.sa.land id cyc soon v }).watchLand id v).landGuards id v.v cyc)
def Ctx.landV (c : Ctx) (id cyc : Nat) (soon : Bool) (v : VVal) : Ctx := c.both (fun r => { r with v := r.v.land id cyc soon v })

/-- The alternative that an access is for has been discarded (R143): its guard is known or collapsed to the other sense. -/
def Ctx.tagGone (c : Ctx) (t : Tag) : Bool := (c.tagLive t).isNone

/-- What a fault of an access does to its context (R304, R354): reported, or deferred under an open literal (R131). Where the larder
is full, a member of a carry round is rejected, and member 0 raises `CARRY_FULL` (R315). -/
def Ctx.accFault (c : Ctx) (a : Acc) (t : TrapRec) : Ctx :=
  match c.tagNow a.tag with
  | none => c
  | some u =>
    if u.isEmpty then c.report { t with ra := 0 }
    else if !c.noRoom 1 then
      { c with larder := heldIns { id := a.id, tag := u, seq := a.seq, op := .raise { t with deferred := true } } c.larder }
    else if c.carry.lit.isSome then c.reject
    else c.report { t with code := .carryFull, info0 := 0, info1 := 0, ra := 0 }

/-- A fault that an access met on its way reaches its core. -/
def State.reportAcc (s : State) (a : Acc) (t : TrapRec) : State :=
  if (s.ctx a.n).tagGone a.tag then s else s.onCtx a.n (fun c => c.accFault a t)

/-- A fault whose trap would be deferred stays on its way while the larder is full, outside a carry round (R130). DEDUCED (log
105). -/
def Resp.lacksRoom (r : Resp) (c : Ctx) : Bool :=
  r.fault.isSome && !c.carry.active && c.noRoom 1 && !c.tagGone r.acc.tag && (c.tagNow r.acc.tag).any (fun u => !u.isEmpty)

/-- The porch entry of an access: freed where its request is discarded or overdue, else filled (R142). A freeze on it
lasts to the end of the cycle (R19, R143). -/
def Core.fillPorch (d : Core) (id : Nat) : Core :=
  { d with
    porch := d.porch.filterMap (fun e =>
      if e.id != id then some e else if e.dead || e.overdue then none else some { e with arrived := true }) }

def Core.porchDead (d : Core) (id : Nat) : Bool :=
  match d.porch.find? (fun e => e.id == id) with
  | some e => e.dead
  | none => true

/-- An arrival that waits for an access waits no longer, in the larder as well (R139). -/
def HeldOp.landed (id : Nat) : HeldOp → HeldOp
  | .arrive b slot ba due refs => .arrive b slot ba due (refs.filter (fun i => i != id))
  | x => x
def Ctx.landed (c : Ctx) (id : Nat) : Ctx :=
  { c with
    arrP := c.arrP.map (fun (x : ArrP) => { x with refs := x.refs.filter (fun i => i != id) }),
    larder := c.larder.map (fun e => { e with op := e.op.landed id }) }

/-- An access has performed; one that a carry round's member has released lets the next go in the next cycle (R314, R321). -/
def Ctx.performedIn (c : Ctx) (cyc id : Nat) : Ctx :=
  let c1 := c.performed id
  if c.carry.rels.contains id then { c1 with carry := { c1.carry with relAt := max c1.carry.relAt (cyc + 1) } } else c1

/-- The data of a timed request reaches its core (R143). That of own or peer scratch, which comes in a cycle of its own, is there for
the bundle of that cycle, if the core does not wait for it already (R141). DEDUCED (log 106). -/
def State.landData (s : State) (r : Resp) : State :=
  let a := r.acc
  let k := coreOf a.n
  let dead := (s.core k).porchDead a.id || (s.ctx a.n).tagGone a.tag
  let soon := r.exact && (s.core k).late.isNone
  let s1 := ({ s with resps := s.resps.filter (fun x => x.acc.id != a.id) }.onCore k (fun d => d.fillPorch a.id)).onCtx a.n
    (fun c => (c.performedIn s.cycle a.id).landed a.id)
  if dead then s1
  else
    let sv : SVal := match r.fault with
      | some t => { f := some { t with deferred := true } }
      | none => (match a.dst with | .s _ sg => bytesS sg r.bytes r.bad | _ => {})
    let vv : VVal := match r.fault with
      | some t => { f := some { t with deferred := true } }
      | none => bytesV r.bytes r.bad
    let s2 := match a.dst with
      | .v _ => s1.onCtx a.n (fun c => c.landV a.id s.cycle soon vv)
      | _ => s1.onCtx a.n (fun c => c.landS a.id s.cycle soon sv)
    match r.fault with
    | some t => s2.reportAcc a t
    | none => if a.kind = .tchase then s2 else s2.rebaseOpt a.n a.base a.moved a.hops a.due

/-- A constituent of a merged atomic has performed (R167, R303). -/
def State.ackMerged (s : State) (d : Word) (hops : Nat) : List Acc1 → State
  | [] => s
  | m :: l =>
    let s1 := s.onCtx m.n (fun c => c.performedIn s.cycle m.id)
    let s2 := match m.arr with
      | some b => s1.toBarrier m.n m.slot m.ba b none
      | none => s1
    (s2.rebaseOpt m.n m.base d hops (s.ctx m.n).ic).ackMerged d hops l

/-- A fault that a merged atomic met on its way is each constituent's (R167, R303). -/
def State.faultMerged (s : State) (t : TrapRec) : List Acc1 → State
  | [] => s
  | m :: l => (s.onCtx m.n (fun c => (c.performed m.id).report { t with slot := m.slot, ba := m.ba, ra := 0 })).faultMerged t l

/-- The acknowledgment of a store or atomic reaches its core (R154, R167, R86). -/
def State.landAck (s : State) (r : Resp) : State :=
  let a := r.acc
  let s1 := { s with resps := s.resps.filter (fun x => x.acc.id != a.id) }.onCtx a.n (fun c => c.performedIn s.cycle a.id)
  match r.fault with
  | some t => (s1.onCtx a.n (fun c => c.report { t with ra := 0 })).faultMerged t a.merged
  | none =>
    let s2 := match a.arr with
      | some b => s1.toBarrier a.n a.slot a.ba b none
      | none => s1
    (s2.rebaseOpt a.n a.base a.moved a.hops (s.ctx a.n).ic).ackMerged a.moved a.hops a.merged

/-- A load of a context named before `q` whose data has yet to reach the core (R157). -/
def State.loadsBefore (s : State) (n q : Nat) : Bool :=
  (s.ctx n).outs.any (fun o => o.lands && decide (o.seq < q) && !decide (o.rdy ≠ 0 ∧ o.rdy ≤ (s.core (coreOf n)).act))

/-- Writes of a command that no port has made yet. -/
def State.writing (s : State) (id : Nat) : Bool := s.portW.any (fun x => x.acc.dst == .engine && x.acc.seq == id)

/-! ### Engine queues -/

/-- A command takes its place behind the commands of earlier cycles, and among those of this cycle by core and context
(R201, R226, R284). -/
def qIns {α : Type} (isAfter : α → Bool) (x : α) : List α → List α
  | [] => [x]
  | y :: l => if isAfter y then x :: y :: l else y :: qIns isAfter x l

/-- The context has a command of a kind under way. -/
def State.addOut (s : State) (n id kind : Nat) : State :=
  s.onCtx n (fun c => { c with outs := c.outs ++ [⟨id, id, kind, 0, false, false, 0⟩] })

/-- The queue of a command's engine has room (R226). -/
def State.copyRoom (s : State) (c : CopyCmd) : Bool :=
  decide (((s.cluster (clusterOf c.n)).queue.filter (fun x => x.eng == c.eng && !x.away)).length < 16)

/-- The number of elements of a shape (R230). -/
def shapeCount (ds : List XShape) : Nat := ds.foldl (fun t d => t * d.ext.toNat) 1

/-- A copy command enters the queue of its engine; one without elements retires at once (R226, R230). -/
def State.enqCopy (s : State) (c : CopyCmd) : State :=
  if c.op ≠ 6 && shapeCount c.dims = 0 then
    match c.arr with
    | some b => s.toBarrier c.n 6 c.ba b none
    | none => s
  else
    let q := s.cluster (clusterOf c.n)
    let c1 := { c with since := s.cycle }
    (s.setCluster (clusterOf c.n) { q with
      queue := qIns (fun y => y.since == s.cycle && decide (c.n < y.n)) c1 q.queue }).addOut c.n c.id 3

def State.relocRoom (s : State) (c : RelocCmd) : Bool := decide ((s.wing (wingOf c.n)).reloc.length < 16)
/-- A relocation command enters its queue with a copy of the table as it stands now (R284). -/
def State.enqReloc (s : State) (c : RelocCmd) : State :=
  let w := s.wing (wingOf c.n)
  let c1 := { c with since := s.cycle, table := (s.ctx c.n).table.core }
  (s.setWing (wingOf c.n) { w with
    reloc := qIns (fun y => y.since == s.cycle && decide (c.n < y.n)) c1 w.reloc }).addOut c.n c.id 3

def State.linkRoom (s : State) (c : LinkCmd) : Bool := decide ((s.wing (wingOf c.n)).link.length < 32)
/-- One more late send (`d` 2^32) or late receive (2^48) in `LNKS` (R333), which stops at 0xFFFF. -/
def Ctx.lnksCount (d : BitVec 64) (c : Ctx) : Ctx :=
  let full := if d = 0x100000000 then bits c.lnks 32 16 = 0xFFFF else bits c.lnks 48 16 = 0xFFFF
  if full then c else { c with lnks := c.lnks + d, lnksNow := c.lnksNow + d }

/-- A link command enters the queue of its wing's engine. A send that finds its tick past is counted (R330, R333).
DEDUCED (log 53). -/
def State.enqLink (s : State) (c : LinkCmd) : State :=
  let w := s.wing (wingOf c.n)
  let c1 := { c with since := s.cycle }
  let s1 := (s.setWing (wingOf c.n) { w with
    link := qIns (fun y => y.since == s.cycle && decide (c.n < y.n)) c1 w.link }).addOut c.n c.id 3
  if c.op = 0 && decide (c.tick.toNat ≤ s.mod.ticks.toNat) then
    s1.onCtx c.n (Ctx.lnksCount 0x100000000)
  else s1

/-- The routines of a core that have not left its array. -/
def State.routinesAt (s : State) (k : Nat) : List Routine := (s.core k).queue.filter (fun r => !r.away)

def State.routineRoom (s : State) (r : Routine) : Bool := decide ((s.routinesAt (coreOf r.n)).length < 4)
/-- A routine enters the queue of its core (R201); `ord` is its place among those of both cores of the array. -/
def State.enqRoutine (s : State) (r : Routine) : State :=
  let r1 := { r with since := s.cycle, ord := s.cycle * 1024 + r.n }
  (s.onCore (coreOf r.n) (fun d => { d with
    queue := qIns (fun y => y.since == s.cycle && decide (r.n < y.n)) r1 d.queue })).addOut r.n r.id
      (if r.op = 0 then 4 else 5)

/-! ### The larder -/

/-- What a held operation of a kind waits for when it is released: the fence points before it (R161, R406). -/
def Ctx.fencedAt (c : Ctx) (kind seq : Nat) : List Nat :=
  (c.fences.filter (fun f => kindBit f.ak kind && decide (f.seq < seq))).flatMap
    (fun f => (f.members ++ f.heldB).filter c.pendingOp)

/-- What an activation waits for: every earlier store, atomic and X operation (R388). -/
def Ctx.beforeSpawn (c : Ctx) (seq : Nat) : List Nat :=
  (c.outs.filter (fun o => !o.perf && decide (1 ≤ o.kind ∧ o.kind ≤ 3 ∧ o.home ≤ 2 ∧ o.seq < seq))).map (fun o => o.id) ++
  (c.larder.filter (fun e => !e.dead && decide (e.seq < seq) && (match e.op.kindOf with
    | some (k, h) => decide (1 ≤ k ∧ k ≤ 3 ∧ h ≤ 2)
    | none => false))).map (fun e => e.id)

/-- The digits of an element number, the fastest first (R230). -/
def digits : List XShape → Nat → List Nat
  | [], _ => []
  | d :: ds, q => q % d.ext.toNat :: digits ds (q / d.ext.toNat)

/-- Σ i_k · stride_k. -/
def strideSum (f : XShape → BitVec 64) : List XShape → List Nat → Word
  | d :: ds, i :: is => BitVec.ofNat 64 i * f d + strideSum f ds is
  | _, _ => 0

def XShape.ds (d : XShape) : Word := d.dstr.signExtend 64
def XShape.ss (d : XShape) : Word := d.sstr.signExtend 64

/-- Source and destination addresses of an element (R230), with the index in use. -/
def CopyCmd.srcEa (c : CopyCmd) (is : List Nat) : Nat :=
  let j := match c.index with | some (_, w) => w | none => 0
  let o := c.dims.getLast?.getD {}
  (BitVec.ofNat 64 c.src + (if c.op = 3 then j * o.ss + strideSum XShape.ss c.dims.dropLast is
    else strideSum XShape.ss c.dims is)).toNat
def CopyCmd.dstEa (c : CopyCmd) (is : List Nat) : Nat :=
  let j := match c.index with | some (_, w) => w | none => 0
  let o := c.dims.getLast?.getD {}
  (BitVec.ofNat 64 c.dst + (if c.op = 4 then j * o.ds + strideSum XShape.ds c.dims.dropLast is
    else strideSum XShape.ds c.dims is)).toNat

/-- The ranges that a command touches beside those of its elements: a sweep's words, and a status word. -/
def CopyCmd.spans (c : CopyCmd) : List (Nat × Nat) :=
  (if c.op = 6 then [(c.dst, c.dst + c.len)] else []) ++ c.sw.toList.map (fun a => (a, a + 8))

def RelocCmd.spans (c : RelocCmd) : List (Nat × Nat) := c.sw.toList.map (fun a => (a, a + 8))
def LinkCmd.spans (c : LinkCmd) : List (Nat × Nat) :=
  match c.op with
  | 0 => [(c.src, c.src + 64 * c.flits)]
  | 1 => []
  | _ => [(c.src, c.src + 576 * c.flits), (c.dst, c.dst + 576 * c.flits)]
/-- Some byte of a range lies in own or peer scratch, as the core's copy of a context's table translates it: an entry covers whole
pages of 64 KiB (R17, R135). -/
def State.nearIn (s : State) (n : Nat) (r : Nat × Nat) : Bool :=
  decide (r.1 < r.2) && (upTo (r.1 / 65536) ((r.2 - 1) / 65536 + 1 - r.1 / 65536)).any (fun p =>
    match tLookup (s.ctx n).table.core (p * 65536) with
    | some e => e.p && decide ((e.tgt (coreOf n) (p * 65536)).place ≤ 1)
    | none => false)

/-- Some of the bytes lie in own or peer scratch: an X or M operation that a fence holds back waits at its bundle there, not in
its engine (R161). -/
def State.near (s : State) (n : Nat) (spans : List (Nat × Nat)) : Bool := spans.any (s.nearIn n)

/-- An index of a gather or a scatter as memory holds it when the command issues, through a context's table (R230). -/
def State.indexNow (s : State) (n : Nat) (c : CopyCmd) (io : Nat) : Word :=
  let ea := (BitVec.ofNat 64 (c.idx + 4 * io)).toNat
  match tLookup (s.ctx n).table.core ea with
  | some e => sextN 32 (leBytes (s.bytesAt (e.tgt (coreOf n) ea).home 4))
  | none => 0

/-- What element `q` of a copy, gather, scatter or fill reads and writes (R230). -/
def State.elemSpans (s : State) (n : Nat) (c : CopyCmd) (q : Nat) : List (Nat × Nat) :=
  let is := digits c.dims q
  let io := is.getLast?.getD 0
  let indexed := c.op = 3 || c.op = 4
  let c1 := if indexed then { c with index := some (io, s.indexNow n c io) } else c
  let at' := fun (a len : Nat) => (a, a + len)
  at' (c1.dstEa is) c.elem :: (if c.op = 5 then [] else [at' (c1.srcEa is) c.elem]) ++
    (if indexed then [at' (BitVec.ofNat 64 (c.idx + 4 * io)).toNat 4] else [])

/-- A copy command reads or writes own or peer scratch (R161): some element of it, or its status word. DEDUCED (log 84). -/
def State.copyNear (s : State) (n : Nat) (c : CopyCmd) : Bool :=
  s.near n c.spans || (decide (c.op ≠ 6) && (upTo 0 (shapeCount c.dims)).any (fun q => s.near n (s.elemSpans n c q)))

/-- The entry at the head may perform in this cycle (R128, R161). -/
def State.canRelease (s : State) (n : Nat) (e : Held) : Bool :=
  let c := s.ctx n
  match e.op with
  | .store a => decide (1 < a.place) || (c.fencedAt 1 e.seq).isEmpty
  | .atomic a =>
    (decide (1 < a.place) || (c.fencedAt 2 e.seq).isEmpty) &&
      !c.larder.any (fun x => !x.dead && decide (x.seq < e.seq) && (match x.op with
        | .store b => overlaps a.home a.size b.home b.size
        | _ => false))
  | .copy x => s.copyRoom x && (!s.copyNear n x || (c.fencedAt 3 e.seq).isEmpty)
  | .reloc x => s.relocRoom x && (!s.near n x.spans || (c.fencedAt 3 e.seq).isEmpty)
  | .link x => s.linkRoom x && (!s.near n x.spans || (c.fencedAt 3 e.seq).isEmpty)
  | .routine x => s.routineRoom x && (!x.touches (s.nearIn n) || (c.fencedAt 4 e.seq).isEmpty)
  | _ => true

/-- A deferred trap whose tag is true, or the trap of a held store: reported. Its entry stays, and release stops at it, until
`sret` (R131, R151, R347). It waits while another trap has yet to enter. -/
def State.raiseHeld (s : State) (n id : Nat) (t : TrapRec) : State :=
  if (s.ctx n).trapP.isSome then s
  else s.onCtx n (fun c => Ctx.report { c with
    larder := c.larder.map (fun (e : Held) => if e.id = id then { e with fired := true } else e), larderOff := true } t)

/-- The trap that an entry raises at its release. -/
def Held.raises (e : Held) : Option TrapRec :=
  match e.op with
  | .raise t => some t
  | .store _ => e.trap.map (fun t => { t with deferred := true })
  | _ => none

/-- An access whose tag has become true: the guards of its alternative are known (R117). -/
def Acc.decided (a : Acc) : Acc := { a with tag := [], base := a.base.map (fun b => { b with tag := [] }) }

/-- A held operation performs at its release (R127, R128). -/
def State.performHeld (s : State) (n : Nat) (e : Held) : State :=
  let c := s.ctx n
  match e.op with
  | .store a => s.performStore n { a.decided with after := c.fencedAt 1 e.seq }
  | .atomic a => { s.launchAcc { a.decided with after := c.fencedAt 2 e.seq, rel := s.uid } true with uid := s.uid + 1 }
  | .arrive b slot ba due refs =>
    if refs.isEmpty && decide (due ≤ c.ic) then s.toBarrier n slot ba b none
    else s.onCtx n (fun c => { c with arrP := c.arrP ++ [⟨due, b, slot, ba, refs, e.seq⟩] })
  | .wset w lo hi => s.armWake n w lo hi
  | .spawn a => { s with outq := s.outq ++ [{ a with after := c.beforeSpawn e.seq }] }
  | .copy x => s.enqCopy { x with after := c.fencedAt 3 e.seq }
  | .reloc x => s.enqReloc { x with after := c.fencedAt 3 e.seq }
  | .link x => s.enqLink { x with after := c.fencedAt 3 e.seq }
  | .routine x => s.enqRoutine { x with after := c.fencedAt 4 e.seq }
  | .raise t => s.raiseHeld n e.id t

def Ctx.unhold (c : Ctx) (id : Nat) : Ctx := { c with larder := c.larder.filter (fun x => x.id != id) }

/-- An entry of a carry member performs in this cycle: whoever waits for it goes on in the next (R314, R316). -/
def Ctx.relNow (c : Ctx) (cyc : Nat) (e : Held) : Ctx :=
  let ids := match e.op with
    | .store a => [a.id]
    | .atomic a => [a.id]
    | _ => []
  if c.carry.active then { c with carry := { c.carry with relAt := cyc + 1, rels := c.carry.rels ++ ids } } else c

/-- The larder's head, in program order (R128): dropped entries cost nothing, kept stores are passed over, and one
entry performs. -/
def State.releaseGo (s : State) (n : Nat) (keep : Bool) : List Held → State
  | [] => s
  | e :: l =>
    if e.dead then (s.onCtx n (fun c => c.unhold e.id)).releaseGo n keep l
    else if !e.tag.isEmpty then s
    else if e.isStore && keep then s.releaseGo n keep l
    else if e.raises.isSome then (match e.raises with | some t => s.raiseHeld n e.id t | none => s)
    else if s.canRelease n e then (s.performHeld n e).onCtx n (fun c => (c.unhold e.id).relNow s.cycle e)
    else s

/-- Whether the members before a context in its carry round have performed everything, and it itself what it has released before
(R314, R321). -/
def State.turnOf (s : State) (n : Nat) : Bool :=
  let lead := s.leadN n
  if (s.ctx lead).cloop.on then
    (s.membersOf n).all (fun m => decide (n ≤ m) || (s.ctx m).flushed s.cycle) && (s.ctx n).relDone s.cycle
  else true

/-- The larder release of a context in one cycle. A release that a deferred trap has suspended goes on where the handler waits at
`halt` (R110; log 82, DEDUCED). Between `cchk` and `cend` held stores perform as well (R314). -/
def State.release (s : State) (n : Nat) : State :=
  let c := s.ctx n
  let l := (s.leadC n).cloop
  let after := l.on && decide (2 ≤ l.phase)
  if c.larderOff && (s.leadC n).reach == .halt then
    s.onCtx n (fun c => { c with larderOff := false, larder := c.larder.filter (fun e => !e.fired) })
  else if c.larderOff || (after && !s.turnOf n) then s
  else s.releaseGo n (c.keepsMarks && !after) c.larder

end Sys2Proof.Machine
end

