-- ==== Sys2Proof/Machine/Window.lean ====
section
/-! DEFINITION. The command-processor window as it is read (R371, R398, R401, R402, R404), who may store into it (R337, R401), and the
image area (R398 to R400). -/

namespace Sys2Proof.Machine

/-- A number at a bit position, for register images. -/
def fld (v lo : Nat) : Nat := v * 2 ^ lo

/-- A bit at a position. -/
def flag (b : Bool) (i : Nat) : Nat := if b then 2 ^ i else 0

/-- Sums of fields make a register image. -/
def image (fs : List Nat) : Word := BitVec.ofNat 64 (fs.foldl (fun a b => a + b) 0)

/-- The device's feature mask (R391). -/
def dfeat : Nat := 0x3F

/-- The device hash as its 48 bytes (R371, R392; log 9, DESIGN CHOICE). -/
def dhashBytes : List Byte := toBytes Config.deviceHash.toNat 48

/-! ### The window: reads -/

/-- `BOOT` (R398). -/
def Module.bootWord (m : Module) : Word :=
  image [fld m.stage.toNat 56, fld m.err.toNat 48, fld m.sig.toNat 40, fld m.slot.toNat 32, m.detail.toNat]
/-- `SVC` (R402). -/
def Module.svcWord (m : Module) : Word :=
  image [flag m.svc.busy 63, fld m.svc.act.toNat 56, fld m.svc.res.toNat 48, m.svc.tgt.toNat]

/-- The word at an offset (R371, R398, R401, R402, R404). Write-only words and offsets without a word read 0. -/
def State.windowWord (s : State) (o : Nat) : Word :=
  let m := s.mod
  match o with
  | 0x000 => m.tail.setWidth 64
  | 0x008 => image [fld m.skip.toNat 48, m.head.toNat]
  | 0x010 => m.ring &&& 0x0000FFFFFFFFFFFF
  | 0x130 => BitVec.ofNat 64 dfeat
  | 0x200 => m.bootWord
  | 0x210 => m.evAddr
  | 0x220 => m.svcWord
  | _ =>
    if 0x100 ≤ o ∧ o < 0x130 then BitVec.ofNat 64 (leBytes ((dhashBytes.drop (o - 0x100)).take 8))
    else if 0x300 ≤ o ∧ o < 0x340 then mget 0 m.grants ((o - 0x300) / 8)
    else if 0x400 ≤ o ∧ o < 0x420 then mget 0 m.nonce ((o - 0x400) / 8)
    else if 0x500 ≤ o then s.mem.word (windowBase + o)
    else 0

/-- Bytes of the window. -/
def State.windowBytes (s : State) (o n : Nat) : List Byte :=
  (upTo o n).map (fun a => bits (s.windowWord (a / 8 * 8)) (8 * (a % 8)) 8)

/-- A read of any byte of SKIP's word clears SKIP, but for what this cycle has counted (R4, R6, R371). DEDUCED (log 74). -/
def State.windowRead (s : State) (o n : Nat) : State :=
  if overlaps o n 8 8 then { s with mod := { s.mod with skip := s.mod.skipNow } } else s

/-- A node may store into the window: a host, or one named in a valid grant slot (R337, R401). -/
def Module.mayStore (m : Module) (node : Nat) : Bool :=
  decide (2 ^ 15 ≤ node) || m.grants.any (fun g => g.2.getLsbD 15 && decide (g.2.toNat % 2 ^ 15 = node))

/-- The window answers an access (R398). -/
def Module.windowOpen (m : Module) (o n : Nat) : Bool :=
  m.power && (m.stage == 6 || decide (0x200 ≤ o ∧ o + n ≤ 0x220))

/-! ### The image area -/

def imageBase : Nat := 0x7FFE00000000
def imageSize : Nat := 0x1000000

/-- Whether an address of this node lies in the window. -/
def inWindow (a n : Nat) : Bool := decide (windowBase ≤ a ∧ a + n ≤ windowBase + 0x10000)

def inImage (a n : Nat) : Bool := decide (imageBase ≤ a ∧ a + n ≤ imageBase + imageSize)

/-- The image area answers a node: any before READY, and then hosts and the nodes of valid grant slots (R398, R400). -/
def Module.imageOpen (m : Module) (node : Nat) : Bool := m.stage != 6 || m.mayStore node

/-- Stores to the image area are ignored while an action is in progress after READY (R400). -/
def Module.imageShut (m : Module) : Bool := m.stage == 6 && m.svc.busy

/-- An access to the image area that it answers: a load (0), a store (1), or an atomic (2), and what it returns (R400). DEDUCED
(log 74). -/
def State.imageDo (s : State) (kind a n : Nat) (bs : List Byte) (aop x y : Nat) : State × List Byte :=
  let old := s.mem.read a n
  let put := fun (b : List Byte) => if s.mod.imageShut then s else { s with mem := s.mem.store a b [] }
  if kind = 0 then (s, old)
  else if kind = 1 then (put bs, [])
  else
    let z := atomNew aop (8 * n) (leBytes old) x y
    (if z.2 then put (toBytes z.1 n) else s, old)

/-! ### What the rest of the machine reads there -/

/-- Bytes at a home, the window's among them. -/
def State.homeBytes (s : State) (hm n : Nat) : List Byte :=
  if inWindow hm n then s.windowBytes (hm - windowBase) n else s.bytesAt hm n

/-- What a read at a home does: one of `SKIP` clears it (R4, R371). -/
def State.homeSeen (s : State) (hm n : Nat) : State := if inWindow hm n then s.windowRead (hm - windowBase) n else s

end Sys2Proof.Machine
end

