-- ==== Sys2Proof/Machine/Reach.lean ====
section
/-! DEFINITION. Following moved-to marks (R152, R293), tiles under move as the engines meet them (R170, R288), places of
other nodes (R324), and what an engine access raises (R233, R344). -/

namespace Sys2Proof.Machine

def Mem.recHops (m : Mem) (hm : Nat) : Nat := m.nat (hm - hm % 65536 + 10) 1
def Mem.recGen (m : Mem) (hm : Nat) : Nat := m.nat (hm - hm % 65536 + 8) 2

/-- Where an access ends: the target and address reached with the hops taken, a trap at an address, or a line still
marked after the last hop. -/
inductive Way where
  | ok (t : Tgt) (ea hops : Nat)
  | trap (c : TrapCode) (ea : Nat)
  | chain (t : Tgt) (ea : Nat)
  deriving DecidableEq, Repr

/-- An access through a table that chases at most `fuel` marks, translating again by R137 after each (R293). `own` gives a home
of this node its own number. -/
def wayGo (m : Mem) (own : Nat → Nat) (tab : TMap TEntry) (core n : Nat) (wr : Bool) (hops : Nat) : Nat → Nat → Way
  | fuel, ea =>
    match accessCheck tab core (BitVec.ofNat 64 ea) n false wr with
    | .inl c => .trap c ea
    | .inr t =>
      if t.mv && m.marked (own t.home) then
        match fuel with
        | 0 => .chain t ea
        | k + 1 => wayGo m own tab core n wr (hops + 1) k (m.newVa (own t.home) + ea % 65536)
      else .ok t ea hops
termination_by structural fuel => fuel

/-! ### Other nodes -/

/-- The way of an engine's access through the engines' copy of a context's table (R233). -/
def State.engWay (s : State) (n ea size : Nat) (wr : Bool) : Way :=
  wayGo s.mem s.ownHome (s.ctx n).table.eng (coreOf n) size wr 0 3 ea

/-- Whether another node refuses `n` bytes at one of its addresses (R324, R15): its device memory answers, and so do the 30 granules that
every scratchpad has; beyond 127 granules none does, and what lies outside the map is refused. How large a scratchpad is between these
bounds, and the state of its window, are its own. DESIGN CHOICE (log 85). -/
def nodeRefuses (node a n : Nat) : Bool :=
  if isDevice a then false
  else if isScratch a then
    (if scratchOff a + n ≤ 30 * 0x10000 then false
     else if 127 * 0x10000 < scratchOff a + n then true
     else Config.refuses node a)
  else if inWindow a n || inImage a n then Config.refuses node a
  else true

/-- Whether a home refuses an access of `n` bytes, a store or an atomic with `wr`, that comes to it as a node address (R324, R337, R398,
R400, R401). -/
def State.refused (s : State) (hm n : Nat) (wr : Bool) : Bool :=
  if hm < 2 ^ 48 then false
  else
    let a := hm % 2 ^ 48
    let me := s.mod.node.toNat
    if hm / 2 ^ 48 - 1 = me then
      !(isDevice a || (isScratch a && decide (scratchOff a + n ≤ scratchBytes (s.core (scratchCore a)))) ||
        (inWindow a n && s.mod.windowOpen (a - windowBase) n && (!wr || s.mod.mayStore me)) ||
        (inImage a n && s.mod.imageOpen me))
    else nodeRefuses (hm / 2 ^ 48 - 1) a n

/-- A store into this node's window or image area, as a request of its own (R337, R400). -/
def State.nodeStore (s : State) (a : Nat) (bs : List Byte) : State :=
  { s with todo := s.todo ++ [(.fabricRequest,
      ({ req := { node := BitVec.ofNat 16 s.mod.node.toNat, kind := 1, addr := a, len := bs.length, bytes := bs } } : EvArg))] }

/-- The answer to a request of another node. -/
def State.answer (s : State) (node : Nat) (refused : Bool) (bs : List Byte) (mark : Bool := false) : State :=
  if node = s.mod.node.toNat then s
  else { s with sent := s.sent ++ [{ node := node, refused := refused, bytes := bs, mark := mark }] }

/-! ### Tiles under move -/

def RelocCmd.moving (c : RelocCmd) : Bool := decide (1 ≤ c.phase ∧ c.phase ≤ 5)
def sameTile (a b : Nat) : Bool := decide (a / 65536 = b / 65536)

/-- The move whose source, or whose destination, is the tile of a home. -/
def State.moveFrom (s : State) (hm : Nat) : Option RelocCmd :=
  (s.wings.flatMap (fun e => e.2.reloc)).find? (fun c => c.moving && sameTile c.srcH hm)
def State.moveTo (s : State) (hm : Nat) : Bool :=
  (s.wings.flatMap (fun e => e.2.reloc)).any (fun c => c.moving && sameTile c.dstH hm)

/-- The command's write queue takes a store or an atomic that reaches a tile under move (R170, R288). -/
def State.queueAt (s : State) (a : Acc) : State :=
  { s with
    wings := s.wings.map (fun e => (e.1, { e.2 with reloc := e.2.reloc.map (fun (c : RelocCmd) =>
      if c.moving && sameTile c.srcH (s.ownHome a.home) then { c with stores := c.stores ++ [a] } else c) })) }

/-- An access waits at the home: at a destination tile, and, as a load, behind queued writes to its line (R170, R288). An
engine's write to a tile under move waits as well. -/
def State.moveBlocks (s : State) (hm n : Nat) (wr : Bool) : Bool :=
  isDevice hm && (s.moveTo hm ||
    (match s.moveFrom hm with
      | some c => wr || c.stores.any (fun a =>
          let b := s.ownHome a.home
          decide (b / 64 ≤ (hm + n - 1) / 64 ∧ hm / 64 ≤ (b + a.size - 1) / 64))
      | none => false))

/-! ### What an engine raises -/

/-- A trap of an engine's command, for the frame of R344. -/
def engTrap (code : TrapCode) (slot ba : Nat) (scy : Word) (i0 i1 : Nat) : TrapRec :=
  { code := code, slot := slot, ba := ba, scy := scy, info0 := BitVec.ofNat 64 i0, info1 := BitVec.ofNat 64 i1,
    forceFatal := true }

/-- A fatal trap that an engine, a pipe or a home reports to a context: raised at its next bundle boundary, or at once
in one that has halted (R348). -/
def State.engineTrap (s : State) (n : Nat) (t : TrapRec) : State :=
  s.onCtx n (fun c => if c.mode = .off then c else { c with fatalP := slotFirst c.fatalP (some t) })

/-- Bytes written by an engine (R145, R236): through the port of a scratchpad with a rank, else at the home at once. `oor`:
`SOOR` records them where they are out of range; a routine records them in its own record (R147, R215). -/
def State.engWrite (s : State) (n id rank place home off ba : Nat) (bs : List Byte) (bad : List Bool) (oor : Bool := true) :
    State :=
  let hm := s.ownHome home
  if isScratch hm then
    let a : Acc := { id := id, n := n, kind := .store, seq := id, place := place, home := hm, off := off,
                     size := bs.length, data := bs, dst := .engine, ba := ba }
    { s with portW := s.portW ++ [⟨rank, a, bad, oor⟩] }
  else if inWindow hm bs.length || inImage hm bs.length then s.nodeStore hm bs
  else s.storeAt hm bs bad

/-- The rank of a copy engine's write (R145). -/
def copyRank (cluster eng : Nat) : Nat := 2000 + cluster * 4 + eng

/-- Bytes read by an engine, with R146, R147 and R149. -/
def State.engRead (s : State) (n ba : Nat) (t : Tgt) (size : Nat) : State × List Byte × List Bool :=
  let hm := s.ownHome t.home
  let s1 := ((s.recordOor n false t.place t.core t.off size ba).correct hm size none).homeSeen hm size
  (s1, s.homeBytes hm size, s.badAt hm size)

end Sys2Proof.Machine
end

