-- ==== Sys2Proof/Machine/Copy.lean ====
section
/-! DEFINITION. The copy and gather engines (R226 to R238) and `tsweep` (R296): what the instructions do at issue, and
what the engines do element by element. -/

namespace Sys2Proof

/-- NDIM + 1, the element size in bytes, and ENG of a copy command (R229). -/
def QOp.dims (o : QOp) : Nat := o.x.toNat / 32 + 1
def QOp.elem (o : QOp) : Nat := let z := o.x.toNat / 4 % 8; if z < 4 then 2 ^ z else 64
def QOp.eng (o : QOp) : Nat := o.x.toNat % 4
/-- SW of a relocation command (R285). -/
def QOp.sw (o : QOp) : Bool := bit o.x 8

end Sys2Proof

namespace Sys2Proof.Machine

/-! ### Shapes -/

/-- `xdim` (R228): one field of a shape register, latency 1. -/
def execXdim (h : Hdr) (o : QOp) (s : State) : Host.Outcome State Fault Refusal :=
  .next (
    let src := s.sSrc o.d.toNat
    s.waitingN h (manyAlts [src]).isSome (fun k =>
      match s.useTrap (one src) 0 7 false with
      | some t => s.stat (.trap t)
      | none =>
        let v := (one src).v
        let r := o.xs.toNat
        let old := s.cur.xsAt r s.latch.ic
        let new : XShape := match o.sa.toNat with
          | 0 => { old with ext := v.setWidth 32 }
          | 1 => { old with dstr := v.setWidth 48 }
          | _ => { old with sstr := v.setWidth 48 }
        (s.onCur (fun c => { c with xsPend := laterIns ⟨r, s.latch.ic + 1, new, s.readyAt 1⟩ c.xsPend })).arriveLat k h 1))

/-! ### Issue of copy commands -/

/-- One combination of alternatives of a copy command: the destination, source and index bases and the fill value. -/
structure CopyTry where
  tag : Tag
  d   : Alt 64 1
  a   : Alt 64 1
  i   : Alt 64 1
  v   : SVal

/-- The alternatives of a base that the command reads, or one empty one. -/
def State.copyBase (s : State) (use : Bool) (r : Nat) : List (Tag × Alt 64 1) :=
  if use then restrict s.latch.under ((s.cur.aAt r s.latch.ic).map (fun a => (a.tag, a))) else [([], {})]

def State.copyTries (s : State) (o : QOp) (op : Nat) : List CopyTry :=
  let d := s.copyBase true o.da.toNat
  let a := s.copyBase (op != 5) o.sa.toNat
  let i := s.copyBase (op == 3 || op == 4) (o.d.toNat % 16)
  let v := if op = 5 then s.sSrc o.d.toNat else [([], ({} : SVal))]
  (tagPair (tagPair d a) (tagPair i v)).map (fun z =>
    { tag := z.1, d := z.2.1.1, a := z.2.1.2, i := z.2.2.1, v := z.2.2.2 })

/-- The trap of one combination (R230, R353). -/
def State.copyTrap (s : State) (total : Nat) (z : CopyTry) : Option TrapRec :=
  if 2 ^ 48 ≤ total then some (s.trapRec .copyArgs 0 0)
  else firstTrap [s.useTrap z.d.val z.d.val.v 2 false, s.useTrap z.a.val z.a.val.v 2 false,
    s.useTrap z.i.val z.i.val.v 2 false, s.useTrap z.v 0 7 false]

/-- The command of one combination. -/
def State.copyCmd (s : State) (h : Hdr) (o : QOp) (op : Nat) (ds : List XShape) (tag : Tag) (z : CopyTry) : CopyCmd :=
  { id := s.uid, n := s.latch.n, op := op, eng := o.eng, dst := z.d.val.v.toNat, src := z.a.val.v.toNat,
    idx := z.i.val.v.toNat, fill := z.v.v, dims := ds, elem := o.elem,
    arr := if h.arr then some h.bn.toNat else none, ba := s.latch.ba, scy := s.latch.scy,
    baseD := if op = 4 then none else some ⟨o.da.toNat, z.d.tag, z.d.gen⟩,
    baseS := if op = 3 ∨ op = 5 then none else some ⟨o.sa.toNat, z.a.tag, z.a.gen⟩,
    after := s.cur.fenced 3, tag := tag }

/-- Each combination is queued, or held under its literals (R126, R237). -/
def State.copyAll (s : State) (h : Hdr) (o : QOp) (op : Nat) (ds : List XShape) (k : Cond2) : List CopyTry → State
  | [] => s
  | z :: l =>
    let t := tagAnd k.held z.tag
    let c := s.copyCmd h o op ds t z
    (if t.isEmpty then { s.enqCopy c with uid := s.uid + 1 }
     else s.pushHeld { id := 0, tag := t, op := .copy c }).copyAll h o op ds k l

/-- The post-steps of a copy command (R231): the outermost shape register is `oD`. -/
def State.copySteps (s : State) (o : QOp) (op : Nat) (oD : XShape) (k : Cond2) : State :=
  let x : Word := o.xstep.signExtend 64
  let ext : Word := oD.ext.setWidth 64
  match op with
  | 2 => (s.postStep k o.da.toNat (x * oD.ds)).postStep k o.sa.toNat (x * oD.ss)
  | 3 => (s.postStep k o.da.toNat (x * oD.ds)).postStep k (o.d.toNat % 16) (x * 4 * ext)
  | 4 => (s.postStep k (o.d.toNat % 16) (x * 4 * ext)).postStep k o.sa.toNat (x * oD.ss)
  | _ => s.postStep k o.da.toNat (x * oD.ds)

/-- A copy command (R230, R226): it waits at its bundle while the queue of its engine is full, or while a fence holds it back from
own or peer scratch (R161). -/
def State.copyOp (s : State) (h : Hdr) (o : QOp) (op : Nat) : State :=
  s.guarded h (fun k =>
    let ds := (upTo 0 o.dims).map (fun j => s.cur.xsAt (o.xs.toNat + j) s.latch.ic)
    let total := shapeCount ds
    let ts := s.copyTries o op
    let traps := ts.filterMap (fun z => (s.copyTrap total z).map (fun t => (tagAnd k.held z.tag, t)))
    let good := ts.filter (fun z => (s.copyTrap total z).isNone)
    let now := good.any (fun z => (tagAnd k.held z.tag).isEmpty)
    s.withTraps traps (good.filter (fun z => !(tagAnd k.held z.tag).isEmpty)).length (fun s =>
      if !(s.cur.fenced 3).isEmpty && good.any (fun z => s.copyNear s.latch.n (s.copyCmd h o op ds [] z)) then s.stat .wait
      else if now && !s.copyRoom { id := 0, n := s.latch.n, op := op, eng := o.eng } then s.stat .wait
      else (s.copyAll h o op ds k good).copySteps o op (ds.getLast?.getD {}) k))

/-- `xcopy` (R230). -/
def execXcopy (h : Hdr) (o : QOp) (s : State) : Host.Outcome State Fault Refusal := .next (s.copyOp h o 2)
/-- `xgather` (R230). -/
def execXgather (h : Hdr) (o : QOp) (s : State) : Host.Outcome State Fault Refusal := .next (s.copyOp h o 3)
/-- `xscatter` (R230). -/
def execXscatter (h : Hdr) (o : QOp) (s : State) : Host.Outcome State Fault Refusal := .next (s.copyOp h o 4)
/-- `xfill` (R230). -/
def execXfill (h : Hdr) (o : QOp) (s : State) : Host.Outcome State Fault Refusal := .next (s.copyOp h o 5)

/-- The copy commands of a context that are queued, running or suspended (R232, R234). -/
def State.copiesOf (s : State) (n : Nat) : List CopyCmd :=
  (s.cluster (clusterOf n)).queue.filter (fun c => c.n == n)

/-- `xwait` (R232): in the cycle after the count has fallen to `xs`. -/
def execXwait (h : Hdr) (o : QOp) (s : State) : Host.Outcome State Fault Refusal :=
  .next (s.waitingN h false (fun k =>
    let c := (s.copiesOf s.latch.n).length
    let seen := c + (if s.cur.copyAt = s.cycle then s.cur.copyNow else 0)
    if o.xs.toNat < seen then s.stat .wait
    else (s.deliverS {} o.d.toNat 1 [([], { v := BitVec.ofNat 64 c })]).arriveLat k h 1))

/-! ### `tsweep` at issue -/

/-- The traps of `tsweep`'s registers: poison, `MOVE_ARGS`, and the status word's alignment (R296, R290). DEDUCED (log 48). -/
def State.sweepTrap (s : State) (base len sw : SVal) : Option TrapRec :=
  firstTrap [s.useTrap base base.v 7 false, s.useTrap len 0 7 false, s.useTrap sw sw.v 7 false,
    if base.v.toNat % 8 ≠ 0 ∨ len.v.toNat % 8 ≠ 0 ∨ 2 ^ 48 ≤ len.v.toNat then some (s.trapRec .moveArgs 0 0) else none,
    if sw.v.toNat % 8 ≠ 0 then some (s.trapRec .misaligned sw.v 0) else none]

/-- The command of one combination. -/
def State.sweepCmd (s : State) (h : Hdr) (o : QOp) (tag : Tag) (b : Alt 64 1) (len sw : SVal) : CopyCmd :=
  { id := s.uid, n := s.latch.n, op := 6, eng := o.eng, dst := b.val.v.toNat, elem := 8, len := len.v.toNat,
    sw := if o.sw then some sw.v.toNat else none, arr := if h.arr then some h.bn.toNat else none, ba := s.latch.ba,
    scy := s.latch.scy, baseD := some ⟨o.da.toNat, b.tag, b.gen⟩, after := s.cur.fenced 3, tag := tag }

def State.sweepAll (s : State) (h : Hdr) (o : QOp) (k : Cond2) :
    List (Tag × (Alt 64 1 × SVal) × SVal) → State
  | [] => s
  | (t, (b, len), sw) :: l =>
    let u := tagAnd k.held t
    let c := s.sweepCmd h o u b len sw
    (if u.isEmpty then { s.enqCopy c with uid := s.uid + 1 }
     else s.pushHeld { id := 0, tag := u, op := .copy c }).sweepAll h o k l

/-- `tsweep` (R296): a command of copy engine ENG. -/
def execTsweep (h : Hdr) (o : QOp) (s : State) : Host.Outcome State Fault Refusal :=
  .next (s.guarded h (fun k =>
    let sw := if o.sw then s.aSrc o.xs.toNat else [([], ({} : SVal))]
    let ts := tagPair (tagPair (s.copyBase true o.da.toNat) (s.sSrc o.d.toNat)) sw
    let traps := ts.filterMap (fun z => (s.sweepTrap z.2.1.1.val z.2.1.2 z.2.2).map (fun t => (tagAnd k.held z.1, t)))
    let good := ts.filter (fun z => (s.sweepTrap z.2.1.1.val z.2.1.2 z.2.2).isNone)
    let now := good.any (fun z => (tagAnd k.held z.1).isEmpty)
    s.withTraps traps (good.filter (fun z => !(tagAnd k.held z.1).isEmpty)).length (fun s =>
      if !(s.cur.fenced 3).isEmpty &&
          good.any (fun z => s.copyNear s.latch.n (s.sweepCmd h o [] z.2.1.1 z.2.1.2 z.2.2)) then s.stat .wait
      else if now && !s.copyRoom { id := 0, n := s.latch.n, op := 6, eng := o.eng } then s.stat .wait
      else s.sweepAll h o k good)))

/-! ### The engines -/

def CopyCmd.total (c : CopyCmd) : Nat := if c.op = 6 then c.len / 8 else shapeCount c.dims

def State.copyCmd? (s : State) (cl id : Nat) : Option CopyCmd := (s.cluster cl).queue.find? (fun c => c.id == id)
def State.setCmd (s : State) (cl : Nat) (c : CopyCmd) : State :=
  let q := s.cluster cl
  s.setCluster cl { q with queue := q.queue.map (fun x => if x.id == c.id then c else x) }

/-- The command that an engine runs: the first of its queue (R226). -/
def State.copyHead (s : State) (cl eng : Nat) : Option CopyCmd :=
  (s.cluster cl).queue.find? (fun c => c.eng == eng && !c.away)

/-- What the start of an element meets. -/
inductive Elem where
  | stop (t : TrapRec)
  | page (kind ea : Nat) (wr : Bool)
  | block
  | ok (s : State) (c : CopyCmd)

/-- One access of an element (R233): where it ends and what its chase added, or what stops it. -/
def State.elemWay (s : State) (c : CopyCmd) (ea n : Nat) (wr : Bool) : Sum Elem (Tgt × Nat × Nat) :=
  match s.engWay c.n ea n wr with
  | .trap code a => .inl (if code = .pageFault then .page 0x30 a wr else .stop (engTrap code 6 c.ba c.scy a 0))
  | .chain _ _ => .inl (.page 0x31 ea wr)
  | .ok t a hops =>
    if s.moveBlocks (s.ownHome t.home) n wr then .inl .block
    else if s.refused t.home n wr then .inl (.stop (engTrap .remoteError 6 c.ba c.scy ea 0))
    else .inr (t, a, hops)

/-- What a chase that led from `ea` to `a` adds to a base (R235). -/
def displaced (base : Option BaseRef) (ea a hops : Nat) : Option Word :=
  if hops = 0 || base.isNone then none else some (BitVec.ofNat 64 a - BitVec.ofNat 64 ea)

/-- The rest of a command uses the base that a chase has moved (R235). -/
def CopyCmd.moveD (c : CopyCmd) (d : Option Word) : CopyCmd := { c with dst := (BitVec.ofNat 64 c.dst + d.getD 0).toNat }
def CopyCmd.moveS (c : CopyCmd) (d : Option Word) : CopyCmd := { c with src := (BitVec.ofNat 64 c.src + d.getD 0).toNat }

/-- The register of a base is rewritten when the access that chased has completed (R86, R235). -/
def State.rebaseNow (s : State) (n : Nat) (base : Option BaseRef) (d : Option Word) : State :=
  match d with
  | some x => s.rebaseOpt n base x 1 (s.ctx n).ic
  | none => s

/-- The index of the outermost dimension's digit, read once for each value of it (R230, R233), at the start of the first element that uses it.
DEDUCED (log 46). -/
def State.readIndex (s : State) (c : CopyCmd) (io : Nat) : Elem :=
  if (c.op != 3 && c.op != 4) || (match c.index with | some (j, _) => j == io | none => false) then .ok s c
  else
    let ea := (BitVec.ofNat 64 (c.idx + 4 * io)).toNat
    match s.elemWay c ea 4 false with
    | .inl e => e
    | .inr (t, _, _) =>
      let r := s.engRead c.n c.ba t 4
      if r.2.2.any (fun b => b) then .stop (engTrap .poison 6 c.ba c.scy ea 2)
      else .ok r.1 { c with index := some (io, sextN 32 (leBytes r.2.1)) }

/-- The source of an element (R230, R236): where it is to be read, or the bytes of a fill. -/
def State.openElem (s : State) (c : CopyCmd) (is : List Nat) : Sum Elem (CopyCmd × Option Word × Option SrcAt × List Byte) :=
  if c.op = 5 then
    .inr (c, none, none,
      if c.elem = 64 then (List.replicate 8 (toBytes c.fill.toNat 8)).flatten else toBytes c.fill.toNat c.elem)
  else
    let ea := c.srcEa is
    match s.elemWay c ea c.elem false with
    | .inl e => .inl e
    | .inr (t, a, hops) =>
      let d := displaced c.baseS ea a hops
      .inr (c.moveS d, d, some ⟨t.place, t.home, t.off, t.core⟩, [])

/-- The start of an element of `xcopy`, `xgather`, `xscatter` or `xfill`: both its accesses are checked. -/
def State.copyElem (s : State) (c : CopyCmd) : Elem :=
  let is := digits c.dims c.elemAt
  match s.readIndex c (is.getLast?.getD 0) with
  | .ok s0 c0 =>
    match s0.openElem c0 is with
    | .inl e => e
    | .inr (c1, dS, src, bs) =>
      let ea := c1.dstEa is
      match s0.elemWay c1 ea c1.elem true with
      | .inl e => e
      | .inr (t, a, hops) =>
        let dD := displaced c1.baseD ea a hops
        let f : Flight := { q := c1.elemAt, place := t.place, home := t.home, off := t.off, core := t.core,
                            src := src, bytes := bs, bad := bs.map (fun _ => false), addS := dS, addD := dD }
        .ok s0 { c1.moveD dD with elemAt := c1.elemAt + 1, flight := c1.flight ++ [f] }
  | e => e

/-- A word that points into a marked tile (R296): clean bits, an MV entry, a marked line. -/
def staleWord (m : Mem) (own : Nat → Nat) (tab : TMap TEntry) (core : Nat) (v : Word) : Bool :=
  decide (v.toNat < 2 ^ 48) &&
    (match tLookup tab v.toNat with
      | some e => e.p && e.mv && m.marked (own (e.tgt core v.toNat).home)
      | none => false)

/-- Where a stale word points after at most 15 hops (R296). -/
def freshWay (m : Mem) (own : Nat → Nat) (tab : TMap TEntry) (core : Nat) (v : Word) : Way :=
  wayGo m own tab core 1 false 0 15 v.toNat

/-- The start of an element of a sweep (R296). DEDUCED (log 47). -/
def State.sweepElem (s : State) (c : CopyCmd) : Elem :=
  let ea := (BitVec.ofNat 64 (c.dst + 8 * c.elemAt)).toNat
  let tab := (s.ctx c.n).table.eng
  match s.elemWay c ea 8 false with
  | .inl e => e
  | .inr (t, a, hops) =>
    let r := s.engRead c.n c.ba t 8
    let v := BitVec.ofNat 64 (leBytes r.2.1)
    let d := displaced c.baseD ea a hops
    let z := (r.1.rebaseNow c.n c.baseD d, { c.moveD d with elemAt := c.elemAt + 1 })
    if r.2.2.any (fun b => b) || !staleWord s.mem s.ownHome tab (coreOf c.n) v then .ok z.1 z.2
    else
      match freshWay s.mem s.ownHome tab (coreOf c.n) v with
      | .chain _ _ => .ok z.1 { z.2 with code := 5 }
      | .trap _ _ => .ok z.1 z.2
      | .ok _ w _ =>
        match s.elemWay c a 8 true with
        | .inl e => e
        | .inr _ => .ok z.1 { z.2 with
            flight := c.flight ++ [{ q := c.elemAt, place := t.place, home := t.home, off := t.off, core := t.core,
                                     x := v, y := BitVec.ofNat 64 w }] }

/-- The next element of a command. DEDUCED (log 46). -/
def State.nextElem (s : State) (c : CopyCmd) : Elem := if c.op = 6 then s.sweepElem c else s.copyElem c

/-- The source of a started element is read (R166, R236). -/
def State.readFlight (s : State) (cl : Nat) (c : CopyCmd) (f : Flight) (x : SrcAt) : State :=
  let r := s.engRead c.n c.ba { place := x.place, home := x.home, off := x.off, core := x.core } c.elem
  (r.1.rebaseNow c.n c.baseS f.addS).setCmd cl { c with flight := c.flight.map (fun y =>
    if y.q = f.q then { y with src := none, addS := none, bytes := r.2.1, bad := r.2.2 } else y) }

/-- A started element writes (R236, R296). -/
def State.writeFlight (s : State) (cl : Nat) (c : CopyCmd) (f : Flight) : State :=
  let s1 := (s.rebaseNow c.n c.baseD f.addD).setCmd cl { c with flight := c.flight.filter (fun x => x.q != f.q) }
  let rank := copyRank cl c.eng
  if c.op = 6 then
    let a : Acc := { id := c.id, n := c.n, kind := .atomic, seq := c.id, place := f.place, home := s.ownHome f.home,
                     off := f.off, size := 8, aop := 10, x := f.x, y := f.y, dst := .engine, ba := c.ba }
    if isScratch a.home then s1.atPort rank a []
    else
      let r := s1.performAt a []
      r.1.completed a r.2.2.1 r.2.2.2
  else s1.engWrite c.n c.id rank f.place f.home f.off c.ba f.bytes f.bad

/-- A command of a copy engine starts its next element, or reads or writes one that has started (R166, R226, R230, R233). -/
def State.copyStep (s : State) (cl id k : Nat) : State :=
  match s.copyCmd? cl id with
  | none => s
  | some c =>
    match k with
    | 0 =>
      match s.nextElem { c with phase := 1, waitF := none } with
      | .ok s1 c1 => s1.setCmd cl c1
      | .stop t => (s.setCmd cl { c with phase := 1, halted := true, arr := none, sw := none }).engineTrap c.n t
      | _ => s
    | j + 1 =>
      match c.flight[j]? with
      | some f => (match f.src with | some x => s.readFlight cl c f x | none => s.writeFlight cl c f)
      | none => s

/-- COPY_START (R226): `ev` names the cluster (`core`), the command (`id`) and the choice (`idx`). -/
def execCopyStart (s : State) : Host.Outcome State Fault Refusal :=
  .next (s.copyStep s.ev.core s.ev.id s.ev.idx)

/-- COPY_SUSPEND (R233, R235): the fault of the next element is posted, and the command waits on it. -/
def execCopySuspend (s : State) : Host.Outcome State Fault Refusal :=
  .next (
    let cl := s.ev.core
    match s.copyCmd? cl s.ev.id with
    | none => s
    | some c =>
      match s.nextElem c with
      | .page kind ea wr =>
        let z := s.postFault kind c.n 3 c.eng wr ea c.ba c.elemAt
        z.1.setCmd cl { c with phase := 2, waitF := some z.2 }
      | _ => s)

/-! ### Retirement -/

/-- The address registers of a context that point into marked tiles are rewritten (R296). A rewritten value is a new one: an add
of R86 that is still due falls on it no more. -/
def State.sweepRegs (s : State) (n : Nat) : State :=
  let go := fun (c : Ctx) (a : Alt 64 1) =>
    if staleWord s.mem s.ownHome c.table.eng (coreOf n) a.val.v then
      match freshWay s.mem s.ownHome c.table.eng (coreOf n) a.val.v with
      | .ok _ w _ => { a with val := { a.val with v := BitVec.ofNat 64 w }, gen := s.uid }
      | _ => a
    else a
  { s.onCtx n (fun c =>
      let f := c.sa.commit c.ic
      { c with sa := { f with base := (upTo 64 16).foldl (fun b r =>
          let as := mget [{}] b r
          if as.map (go c) = as then b else mput b r (as.map (go c))) f.base } })
    with uid := s.uid + 1 }

/-- A status word (R290): DONE, CODE and COUNT. -/
def statusWord (code count : Nat) : Nat := 2 ^ 63 + code % 128 * 2 ^ 56 + count % 2 ^ 32

/-- What the store of a status word meets through a table (R291). -/
inductive StatusWay where
  | ok (t : Tgt)
  | stop (c : TrapCode) (ea : Nat)
  | page (kind ea : Nat)
  | block

def State.statusWay (s : State) (tab : TMap TEntry) (n ea : Nat) : StatusWay :=
  match wayGo s.mem s.ownHome tab (coreOf n) 8 true 0 3 ea with
  | .trap code a => if code = .pageFault then .page 0x30 a else .stop code a
  | .chain _ _ => .page 0x31 ea
  | .ok t _ _ =>
    if s.moveBlocks (s.ownHome t.home) 8 true then .block
    else if s.refused t.home 8 true then .stop .remoteError ea
    else .ok t

/-- A copy command leaves its engine (R226): its arrival is made, and `xwait` sees it in the next cycle (R232). -/
def State.copyGone (s : State) (cl : Nat) (c : CopyCmd) : State :=
  let q := s.cluster cl
  let s1 := (s.setCluster cl { q with queue := q.queue.filter (fun x => x.id != c.id) }).onCtx c.n (fun x =>
    { x.performed c.id with copyAt := s.cycle, copyNow := if x.copyAt = s.cycle then x.copyNow + 1 else 1 })
  match c.arr with
  | some b => s1.toBarrier c.n 6 c.ba b none
  | none => s1

/-- COPY_RETIRE (R226, R290, R296): a sweep rewrites the registers and its status word first. -/
def execCopyRetire (s : State) : Host.Outcome State Fault Refusal :=
  .next (
    let cl := s.ev.core
    match s.copyCmd? cl s.ev.id with
    | none => s
    | some c =>
      if c.op ≠ 6 ∨ c.halted then s.copyGone cl c
      else
        match c.sw with
        | none => (s.sweepRegs c.n).copyGone cl c
        | some ea =>
          match s.statusWay (s.ctx c.n).table.eng c.n ea with
          | .ok t =>
            ((s.sweepRegs c.n).engWrite c.n c.id (copyRank cl c.eng) t.place t.home t.off c.ba
              (toBytes (statusWord c.code c.count) 8) []).copyGone cl c
          | .stop code a =>
            (s.copyGone cl { c with arr := none }).engineTrap c.n (engTrap code 6 c.ba c.scy a 0)
          | .page kind a =>
            let z := s.postFault kind c.n 3 c.eng true a c.ba c.elemAt
            z.1.setCmd cl { c with phase := 3, waitF := some z.2 }
          | .block => s)

end Sys2Proof.Machine
end

