-- ==== Sys2Proof/Machine/Reloc.lean ====
section
/-! DEFINITION. Tile relocation (R283 to R301): `tmove`, `tunmark`, `tunmark.f` and `tstat` at issue, the phases of a
move, and retirement. -/

namespace Sys2Proof.Machine

/-! ### Issue -/

/-- Ranges of `n` tiles overlap (R287). -/
def tilesOverlap (a b n : Nat) : Bool := decide (a < b + n * 65536 ∧ b < a + n * 65536)

/-- The traps of `tmove` (R287, R353), in its order. DEDUCED (log 43). -/
def State.moveTrap (s : State) (dst src n sw : SVal) : Option TrapRec :=
  firstTrap [s.useTrap src src.v 7 false, s.useTrap dst dst.v 7 false, s.useTrap n 0 7 false, s.useTrap sw sw.v 7 false,
    if src.v.toNat % 65536 ≠ 0 ∨ dst.v.toNat % 65536 ≠ 0 ∨ n.v.toNat = 0 ∨ 4096 < n.v.toNat then
      some (s.trapRec .moveArgs 0 0) else none,
    if tilesOverlap src.v.toNat dst.v.toNat n.v.toNat then some (s.trapRec .moveArgs 0 0) else none,
    if sw.v.toNat % 8 ≠ 0 then some (s.trapRec .misaligned sw.v 0) else none]

/-- The traps of `tunmark` and `tunmark.f` at issue (R353, R290). -/
def State.unmarkTrap (s : State) (dst sw : SVal) : Option TrapRec :=
  firstTrap [s.useTrap dst dst.v 2 false, s.useTrap sw sw.v 2 false,
    if sw.v.toNat % 8 ≠ 0 then some (s.trapRec .misaligned sw.v 0) else none]

/-- The status base, or none. -/
def State.swSrc (s : State) (o : QOp) : List (Tag × SVal) := if o.sw then s.aSrc o.xs.toNat else [([], {})]

/-- Commands queued, or held under their literals (R126, R299). -/
def State.relocAll (s : State) (k : Cond2) : List (Tag × RelocCmd) → State
  | [] => s
  | (t, c) :: l =>
    let u := tagAnd k.held t
    let c1 := { c with id := s.uid, tag := u, after := s.cur.fenced 3 }
    (if u.isEmpty then { s.enqReloc c1 with uid := s.uid + 1 }
     else s.pushHeld { id := 0, tag := u, op := .reloc c1 }).relocAll k l

/-- A relocation command at issue: `trap` judges a combination, and the queue may be full (R284). -/
def State.relocOp (s : State) (k : Cond2) (cs : List (Tag × Sum TrapRec RelocCmd)) : State :=
  let traps := cs.filterMap (fun z => match z.2 with | .inl t => some (tagAnd k.held z.1, t) | .inr _ => none)
  let good := cs.filterMap (fun z => match z.2 with | .inr c => some (z.1, c) | .inl _ => none)
  let now := good.any (fun z => (tagAnd k.held z.1).isEmpty)
  s.withTraps traps (good.filter (fun z => !(tagAnd k.held z.1).isEmpty)).length (fun s =>
    if !(s.cur.fenced 3).isEmpty && good.any (fun z => s.near s.latch.n z.2.spans) then s.stat .wait
    else if now && !s.relocRoom { id := 0, n := s.latch.n, op := 0 } then s.stat .wait else s.relocAll k good)

/-- The command of an operation, but for its name. -/
def State.relocCmd (s : State) (h : Hdr) (o : QOp) (op src dst len : Nat) (sw : SVal) : RelocCmd :=
  { id := 0, n := s.latch.n, op := op, src := src, dst := dst, len := len,
    sw := if o.sw then some sw.v.toNat else none, arr := if h.arr then some h.bn.toNat else none,
    ba := s.latch.ba, scy := s.latch.scy }

/-- `tmove` (R287). -/
def execTmove (h : Hdr) (o : QOp) (s : State) : Host.Outcome State Fault Refusal :=
  .next (s.guarded h (fun k =>
    let cs := (tagPair (tagPair (s.aSrc o.da.toNat) (s.aSrc o.sa.toNat)) (tagPair (s.sSrc o.d.toNat) (s.swSrc o)))
    s.relocOp k (cs.map (fun z =>
      let d := z.2.1.1
      let a := z.2.1.2
      let n := z.2.2.1
      let sw := z.2.2.2
      (z.1, match s.moveTrap d a n sw with
        | some t => .inl t
        | none => .inr (s.relocCmd h o 0 a.v.toNat d.v.toNat n.v.toNat sw))))))

/-- `tunmark` and `tunmark.f` at issue (R297). -/
def State.unmark (s : State) (h : Hdr) (o : QOp) (op : Nat) : State :=
  s.guarded h (fun k =>
    s.relocOp k ((tagPair (s.aSrc o.da.toNat) (s.swSrc o)).map (fun z =>
      (z.1, match s.unmarkTrap z.2.1 z.2.2 with
        | some t => .inl t
        | none => .inr (s.relocCmd h o op 0 z.2.1.v.toNat 1 z.2.2)))))

/-- `tunmark` (R297): privileged (R285). -/
def execTunmark (h : Hdr) (o : QOp) (s : State) : Host.Outcome State Fault Refusal := .next (s.unmark h o 1)
/-- `tunmark.f` (R297): privileged (R285). -/
def execTunmarkF (h : Hdr) (o : QOp) (s : State) : Host.Outcome State Fault Refusal := .next (s.unmark h o 2)

/-- The access of `tstat`: own and peer scratch answer 0 after their latencies (R295). -/
def State.beginStat (s : State) (a : Acc) : State :=
  let s1 := (s.onCore (coreOf a.n) (fun c => { c with porch := c.porch ++ [⟨a.id, a.n, a.due, false, false, false, []⟩] })).onCtx
    a.n (fun c => { c with outs := c.outs ++ [⟨a.id, a.seq, 5, homeClass a.place, decide (a.place ≤ 1), false, 0⟩] })
  if a.place ≤ 1 then
    let r : Resp := ⟨a, toBytes 0 8, [], none, s.cycle + fixedLat a.place, true⟩
    { s1 with resps := s1.resps ++ [r] }
  else { s1 with outq := s1.outq ++ [a] }

/-- `tstat` (R295): as a timed load of S[d]; it waits for its guard and its base. DEDUCED (log 42). -/
def execTstat (h : Hdr) (o : QOp) (s : State) : Host.Outcome State Fault Refusal :=
  .next (
    let src := s.aSrc o.sa.toNat
    s.waiting h [src] (
      let b := one src
      match s.access b b.v 1 false false with
      | .inl t => s.stat (.trap t)
      | .inr g =>
        if !s.porchRoom 1 then s.stat .wait
        else
          let lof := max 1 o.lof.toNat
          let due := s.latch.ic + lof
          let a : Acc := { id := s.uid, n := s.latch.n, kind := .tstat, seq := s.uid, ea := b.v.toNat, ea0 := b.v.toNat,
                           place := g.place, home := g.home, off := g.off, mv := g.mv, size := 8,
                           dst := .s o.d.toNat false, due := due, slot := s.latch.slot, ba := s.latch.ba,
                           scy := s.latch.scy }
          let s1 := { s.beginStat a with uid := s.uid + 1 }
          let ps := [(([] : Tag), Part.wait a.id)]
          (putPartS o.d.toNat false s1 {} lof ps).arriveTimed {} h due ps))

/-- The phase that `tstat` reads at a home: only a tile of device memory moves; another node's moves are its own, so their phase is free (R295, log 19, DESIGN CHOICE). -/
def State.phaseAt (s : State) (hm : Nat) : Nat :=
  if !isDevice (hm % 2 ^ 48) then 0
  else if !isDevice hm then (Config.freeWord s.frees).toNat % 7
  else if s.moveTo hm then 6
  else
    match s.moveFrom hm with
    | some c => c.phase
    | none => 0

/-- What `tstat` reads at the home `hm` (R295): 0 outside movable entries. -/
def State.tstatWord (s : State) (a : Acc) (hm : Nat) : Nat :=
  if !a.mv then 0
  else
    let mk := s.mem.marked hm
    let ph := s.phaseAt hm
    ph * 2 ^ 60 + (if mk then 2 ^ 63 + min (s.mem.recHops hm) 15 * 2 ^ 56 + s.mem.recGen hm % 256 * 2 ^ 48 + s.mem.newVa hm else 0)

/-! ### The engine -/

def State.relocCmd? (s : State) (w id : Nat) : Option RelocCmd := (s.wing w).reloc.find? (fun c => c.id == id)
def State.setReloc (s : State) (w : Nat) (c : RelocCmd) : State :=
  s.setWing w { s.wing w with reloc := (s.wing w).reloc.map (fun x => if x.id == c.id then c else x) }
def State.dropReloc (s : State) (w : Nat) (c : RelocCmd) : State :=
  (s.setWing w { s.wing w with reloc := (s.wing w).reloc.filter (fun x => x.id != c.id) }).onCtx c.n
    (fun x => x.performed c.id)

/-- The home of the tile that holds an address, or why it is refused: untranslated, or a CODE (R290, R291). -/
inductive TileWay where
  | ok (hm : Nat)
  | code (k : Nat)
  | untranslated
  deriving DecidableEq, Repr

def tileWay (tab : TMap TEntry) (core ea : Nat) (wr : Bool) : TileWay :=
  match tLookup tab ea with
  | none => .untranslated
  | some e =>
    if !e.p then .code 1
    else if e.kind ≠ 4 || !e.mv || (wr && !e.w) then .code 2
    else
      let hm := (e.tgt core ea).home
      .ok (hm - hm % 65536)

/-- The check of a tile before its FREEZE (R291). -/
inductive TileCheck where
  | ok (src dst : Nat)
  | code (k : Nat)
  | untranslated (ea : Nat)
  deriving DecidableEq, Repr

def State.tileCheck (s : State) (c : RelocCmd) : TileCheck :=
  let se := c.src + c.tile * 65536
  let de := c.dst + c.tile * 65536
  match tileWay c.table (coreOf c.n) se false, tileWay c.table (coreOf c.n) de true with
  | .untranslated, _ => .untranslated se
  | _, .untranslated => .untranslated de
  | .code a, .code b => .code (min a b)
  | .code a, _ => .code a
  | _, .code b => .code b
  | .ok a, .ok b =>
    if s.mem.marked a then .code 3
    else if (s.moveFrom a).isSome || s.moveTo a || (s.moveFrom b).isSome || s.moveTo b || s.mem.marked b then .code 4
    else .ok a b

/-- The number under which firmware's own moves run: no context's. -/
def firmwareN : Nat := 192 * 1000

/-- A table uses a tile of device memory only as the place that a tile moves to: it maps the tile at `va` alone, and it maps it there
where it maps the tile that moves, so that a chase ends there (R293); or it maps neither. -/
def tableFits (tab : TMap TEntry) (core old new va : Nat) : Bool :=
  let covers := fun (hm : Nat) (e : TEntry) => e.kind == 4 && decide (e.tbase ≤ hm ∧ hm < e.tbase + 2 ^ e.lsz)
  let there := match tileWay tab core va true with
    | .ok hm => sameTile hm new
    | _ => false
  let only := tab.all (fun t => !covers new t.2 || t.2.vbase + (new - new % 65536 - t.2.tbase) == va)
  if tab.any (fun t => covers old t.2) then there && only else !tab.any (fun t => covers new t.2)

/-- A channel of device memory that is out of service, or that firmware drains (R300, R403). -/
def State.channelGone (s : State) (hm : Nat) : Bool :=
  let draining := if s.mod.svc.busy && s.mod.svc.act == 4 then [s.mod.svc.tgt.toNat] else []
  (draining ++ s.mod.chanOut).any (fun ch => (Config.chanTiles ch).any (sameTile hm))

/-- A tile may take the place of another: it lies on a channel in service that is not the drained one, nothing has been written there and
no move concerns it, and every table uses it as the place of the moved tile alone (R293, R300, R403). -/
def State.mayTake (s : State) (old new va : Nat) : Bool :=
  isDevice new && !s.channelGone new && !s.mem.cells.any (fun x => sameTile x.1 new) && !s.mem.poison.any (fun x => sameTile x new) &&
    !s.mem.marked new && (s.moveFrom new).isNone && !s.moveTo new && !sameTile old new &&
    s.ctxs.all (fun e => !s.hasTable e.1 e.2 || tableFits e.2.table.core (coreOf e.1) old new va)

/-- MOVE_FREEZE (R288, R291): the next tile of the command is checked, and frozen; a move of firmware's own also, once more, against what
programs use (R403). `ev`: the wing (`core`) and the command
(`id`). -/
def execMoveFreeze (s : State) : Host.Outcome State Fault Refusal :=
  .next (
    let w := s.ev.core
    match s.relocCmd? w s.ev.id with
    | none => s
    | some c =>
      if c.op ≠ 0 || c.phase ≠ 0 then s
      else
        match s.tileCheck c with
        | .ok a b =>
          if c.n = firmwareN && !s.mayTake a b c.dst then s.setReloc w { c with phase := 6, code := 2 }
          else s.setReloc w { c with phase := 1, srcH := a, dstH := b }
        | .code k => s.setReloc w { c with phase := 6, code := k }
        | .untranslated ea =>
          (s.dropReloc w c).engineTrap c.n (engTrap .untranslated 6 c.ba c.scy ea 0))

/-- MOVE_DRAIN (R288): the tile drains, and then the atomics accepted before FREEZE have completed. -/
def execMoveDrain (s : State) : Host.Outcome State Fault Refusal :=
  .next (
    match s.relocCmd? s.ev.core s.ev.id with
    | none => s
    | some c => if c.phase = 1 ∨ c.phase = 2 then s.setReloc s.ev.core { c with phase := c.phase + 1 } else s)

/-- The bytes and the poison of a tile copied over another (R288). -/
def Mem.copyTile (m : Mem) (src dst : Nat) : Mem :=
  let inT := fun (t a : Nat) => sameTile t a
  { m with
    cells := (m.cells.filter (fun x => inT src x.1)).foldl (fun l x => cellsPut l (x.1 - src + dst) x.2)
      (m.cells.filter (fun x => !inT dst x.1)),
    poison := (m.poison.filter (fun x => inT src x)).foldl (fun l x => sIns l (x - src + dst))
      (m.poison.filter (fun x => !inT dst x)) }

/-- The lines of a tile. -/
def tileLines (hm : Nat) : List Nat := (upTo 0 1024).map (fun i => hm + 64 * i)

/-- The mark record (R292). DEDUCED (log 50). -/
def markRecord (newVa gen hops oldVa : Nat) : List Byte :=
  toBytes newVa 8 ++ toBytes gen 2 ++ toBytes hops 1 ++ toBytes 0 5 ++ toBytes oldVa 8 ++ toBytes 0 40

def Mem.setMarks (m : Mem) (hm : Nat) : Mem := { m with marks := (tileLines hm).foldl sIns m.marks }
def Mem.clearMarks (m : Mem) (hm : Nat) : Mem := { m with marks := m.marks.filter (fun a => !sameTile hm a) }

/-- A queued write is forwarded to the new home (R288, R303). -/
def State.forward (s : State) (c : RelocCmd) (a : Acc) : State :=
  let a1 := { a with home := s.ownHome a.home - c.srcH + c.dstH }
  let r := s.performAt a1 []
  r.1.completed a1 r.2.2.1 r.2.2.2

/-- MOVE_COPY (R288): the lines are copied; the old home is marked in one step; and the queue is released in arrival order, until
the tile's move retires with the queue empty. -/
def execMoveCopy (s : State) : Host.Outcome State Fault Refusal :=
  .next (
    let w := s.ev.core
    match s.relocCmd? w s.ev.id with
    | none => s
    | some c =>
      if c.phase = 3 then { s with mem := s.mem.copyTile c.srcH c.dstH }.setReloc w { c with phase := 4 }
      else if c.phase = 5 then
        match c.stores with
        | [] => s.setReloc w { c with phase := 0, tile := c.tile + 1 }
        | a :: l => (s.setReloc w { c with stores := l }).forward c a
      else if c.phase ≠ 4 then s
      else
        let off := c.tile * 65536
        let rec' := markRecord (c.dst + off) (s.wing w).moves.toNat 1 (c.src + off)
        let s1 := { s with mem := (s.mem.store c.srcH rec' []).setMarks c.srcH }
        let s2 := s1.setWing w { s1.wing w with moves := (s1.wing w).moves + 1 }
        s2.setReloc w { c with phase := 5 })

/-! ### Marks cleared and flattened -/

/-- The last record of a chain, within `fuel` more hops: its target and the sum of HOPS, or `none` while the place is
still marked (R297). DEDUCED (log 49). -/
def flatten (m : Mem) (tab : TMap TEntry) (core : Nat) : Nat → Nat → Nat → Option (Nat × Nat)
  | fuel, newVa, hops =>
    match tileWay tab core newVa false with
    | .ok hm =>
      if m.marked hm then
        match fuel with
        | 0 => none
        | k + 1 => flatten m tab core k (m.newVa hm) (hops + m.recHops hm)
      else some (newVa, hops)
    | _ => some (newVa, hops)
termination_by structural fuel => fuel

/-- `tunmark` and `tunmark.f` at the home (R297): memory, CODE and COUNT, or an untranslated address. -/
def State.doUnmark (s : State) (c : RelocCmd) : Option (Mem × Nat × Nat) :=
  match tileWay c.table (coreOf c.n) c.dst false with
  | .untranslated => none
  | .code k => some (s.mem, k, 0)
  | .ok hm =>
    if !s.mem.marked hm then some (s.mem, 6, 0)
    else if c.op = 1 then some ((s.mem.store hm (List.replicate 64 0) []).clearMarks hm, 0, 1)
    else
      match flatten s.mem c.table (coreOf c.n) 14 (s.mem.newVa hm) (s.mem.recHops hm) with
      | none => some (s.mem, 5, 0)
      | some (va, hops) =>
        some ((s.mem.write hm (toBytes (va - va % 65536) 8)).write (hm + 10) (toBytes (min hops 255) 1), 0, 1)

/-! ### Retirement -/

/-- The status word, the arrival, and the end of a relocation command (R290, R291); `code` and `count` are its outcome. The
place of the word among the writes at a scratchpad's port is the model's. DESIGN CHOICE (log 108). -/
def State.relocEnd (s : State) (w : Nat) (c : RelocCmd) (count : Nat) : State :=
  let gone := fun (s : State) =>
    match c.arr with
    | some b => (s.dropReloc w c).toBarrier c.n 6 c.ba b none
    | none => s.dropReloc w c
  match c.sw with
  | none => gone s
  | some ea =>
    match s.statusWay c.table c.n ea with
    | .ok t => gone (s.engWrite c.n c.id (copyRank 24 w) t.place t.home t.off c.ba (toBytes (statusWord c.code count) 8) [])
    | .stop code a => (s.dropReloc w c).engineTrap c.n (engTrap code 6 c.ba c.scy a 0)
    | .page kind a =>
      let z := s.postFault kind c.n 5 0 true a c.ba 0
      z.1.setReloc w { c with phase := 6, tile := count, waitF := some z.2 }
    | .block => s

/-- RELOCATION_RETIRE (R290, R297): `tunmark` and `tunmark.f` act here, in one step at the home. -/
def execRelocationRetire (s : State) : Host.Outcome State Fault Refusal :=
  .next (
    let w := s.ev.core
    match s.relocCmd? w s.ev.id with
    | none => s
    | some c =>
      if c.op = 0 || c.phase = 6 then s.relocEnd w c c.tile
      else
        match s.doUnmark c with
        | none => (s.dropReloc w c).engineTrap c.n (engTrap .untranslated 6 c.ba c.scy c.dst 0)
        | some (m, code, count) =>
          ({ s with mem := m }.setReloc w { c with phase := 6, code := code, tile := count }).relocEnd w
            { c with phase := 6, code := code, tile := count } count)

end Sys2Proof.Machine
end

