-- ==== Sys2Proof/Machine/Elem.lean ====
section
/-! DEFINITION. Element operations of the V slots on one value each: arithmetic (R177, R178), shifts (R179),
compares (R180), the transcendentals (R185), conversions (R186 to R190). Elements are encodings of their
format as naturals. -/

namespace Sys2Proof.Machine

/-- The result of one element operation: the encoding and the event (R73). -/
abbrev ERes := Nat × Option Ev

/-! ### Arithmetic -/

/-- An exact integer cut to `w` bits, or clamped signed or unsigned (R178). -/
def intFit (w : Nat) (sat uns : Bool) (i : Int) : Nat :=
  if sat then
    (if uns then (clampI 0 ((2 ^ w : Nat) - 1) i).toNat else intEnc w (clampI (intMin w) (intMax w) i))
  else intEnc w i

def intVal (uns : Bool) (w v : Nat) : Int := if uns then (v % 2 ^ w : Nat) else intDec w v

/-- `vadd` 0, `vsub` 1, `vmul` 2 on integers. -/
def intBin (op w : Nat) (sat uns : Bool) (x y : Nat) : ERes :=
  let a := intVal uns w x
  let b := intVal uns w y
  (intFit w sat uns (match op with | 0 => a + b | 1 => a - b | _ => a * b), none)

def fpBin (op : Nat) (f : Fmt) (rm : Nat) (sat : Bool) (x y : Nat) : ERes :=
  match op with
  | 0 => f.add rm sat x y
  | 1 =>
    let r := (f.dec x).add rm (f.dec y).negate
    withInvalid r.2 (f.round rm sat r.1)
  | _ => f.mul rm sat x y

/-- `vadd`, `vsub`, `vmul` in the element format `code`. -/
def eBin (op code rm : Nat) (sat uns : Bool) (x y : Nat) : ERes :=
  match fmtOf code with
  | some f => fpBin op f rm sat x y
  | none => intBin op (codeWidth code) sat uns x y

/-- `vfma` 0: x·y + z, `vfms` 1: x·y − z, `vnfma` 2: z − x·y. -/
def eFma (op code rm : Nat) (sat : Bool) (x y z : Nat) : ERes :=
  match fmtOf code with
  | some f => f.fma rm sat (op == 2) (op == 1) x y z
  | none =>
    let w := codeWidth code
    let p := intDec w x * intDec w y
    (intFit w sat false (match op with | 0 => p + intDec w z | 1 => p - intDec w z | _ => intDec w z - p), none)

/-- The larger (`mx`) or smaller operand (R177, R178). -/
def eMinMax (mx : Bool) (code : Nat) (uns : Bool) (x y : Nat) : ERes :=
  match fmtOf code, uns with
  | some f, false =>
    let a := f.dec x
    let b := f.dec y
    if a.isNan || b.isNan then (f.nan, none)
    else if exLt a b then (if mx then y else x, none)
    else if exLt b a then (if mx then x else y, none)
    else (if mx == a.neg? then y else x, none)
  | _, _ =>
    let w := codeWidth code
    let le := decide (intVal uns w x ≤ intVal uns w y)
    (if mx == le then y else x, none)

/-- `vabs`, `vneg` (R177, R178). -/
def eSign (neg : Bool) (code : Nat) (sat : Bool) (x : Nat) : ERes :=
  match fmtOf code with
  | some f =>
    let m := x % 2 ^ (f.width - 1)
    let s := neg && decide (x < 2 ^ (f.width - 1))
    let r := f.sign s + m
    (if sat && (f.dec r).isInf then f.maxFinite s else r, none)
  | none =>
    let w := codeWidth code
    let a := intDec w x
    (intFit w sat false (if neg then -a else (a.natAbs : Int)), none)

/-- Shifts: 0 left, 1 right with zeros, 2 right with the sign (R179). -/
def eShift (op w : Nat) (x c : Nat) : ERes :=
  let k := c % w
  (match op with
   | 0 => x * 2 ^ k % 2 ^ w
   | 1 => x / 2 ^ k
   | _ => intEnc w (intDec w x / (2 ^ k : Nat)), none)

/-- The conditions of `vcmp` (R180). -/
def eCmp (cc code : Nat) (x y : Nat) : Bool :=
  let w := codeWidth code
  match fmtOf code with
  | some f =>
    let a := f.dec x
    let b := f.dec y
    match cc with
    | 0 => exEq a b
    | 1 => !exEq a b
    | 2 => exLt a b
    | 3 => exLe a b
    | 4 => decide (x < y)
    | 5 => decide (x ≤ y)
    | _ => a.isNan || b.isNan
  | none =>
    match cc with
    | 0 => x == y
    | 1 => x != y
    | 2 => decide (intDec w x < intDec w y)
    | 3 => decide (intDec w x ≤ intDec w y)
    | 4 => decide (x < y)
    | 5 => decide (x ≤ y)
    | _ => false

/-! ### Transcendentals (R185) -/

/-- floor(√n), for n below 2^(2b). -/
def isqrtGo (n : Nat) : Nat → Nat → Nat
  | 0, r => r
  | b + 1, r => isqrtGo n b (if (r + 2 ^ b) * (r + 2 ^ b) ≤ n then r + 2 ^ b else r)
def isqrt (n : Nat) : Nat := isqrtGo n (n.log2 / 2 + 1) 0

/-- ln 2 with 400 fraction bits, cut off. -/
def ln2 : Nat :=
  0xb17217f7d1cf79abc9e3b39803f2f6af40f343267298b62d8a0d175b8baafa2be7b876206debac98559552fb4afa1b10ed2e

/-- e^y for y in [0, 1) with 400 fraction bits: the series to its end (log 12, DEDUCED). -/
def expGo (y : Nat) : Nat → Nat → Nat → Nat → Nat
  | 0, _, _, acc => acc
  | n + 1, k, t, acc => let t' := t * y / 2 ^ 400 / k; expGo y n (k + 1) t' (acc + t')
def expFix (y : Nat) : Nat := expGo y 100 1 (2 ^ 400) (2 ^ 400)

/-- atanh(z) for z in [0, 1/3] with 400 fraction bits (log 12, DEDUCED). -/
def atanhGo (z2 : Nat) : Nat → Nat → Nat → Nat → Nat
  | 0, _, _, acc => acc
  | n + 1, k, t, acc => let t' := t * z2 / 2 ^ 400; atanhGo z2 n (k + 2) t' (acc + t' / k)
def atanhFix (z : Nat) : Nat := atanhGo (z * z / 2 ^ 400) 130 3 z z

/-- 2^x of an exact number. -/
def exExp2 (neg : Bool) (m : Nat) (e : Int) : Ex :=
  if m = 0 then .num false 1 0 false
  else if 2000 < e + m.log2 then .num false 1 (if neg then -5000 else 5000) true
  else
    let k := (-e).toNat
    let i : Int := (m * 2 ^ e.toNat : Nat)
    let x : Int := if neg then -i else i
    let n := x / (2 ^ k : Nat)
    let r := (x % (2 ^ k : Nat)).toNat
    let n1 := clampI (-5000) 5000 n
    if r = 0 then .num false 1 n1 false
    else .num false (expFix (r * ln2 / 2 ^ k) / 2 ^ 40) (n1 - 360) true

/-- log2 of an exact positive number. -/
def exLog2 (m : Nat) (e : Int) : Ex :=
  let l := m.log2
  let z := (m - 2 ^ l) * 2 ^ 400 / (m + 2 ^ l)
  let ex : Int := e + l
  if m = 2 ^ l then exOfInt ex
  else
    let t : Int := ex * (2 ^ 400 : Nat) + (2 * atanhFix z * 2 ^ 400 / ln2 : Nat)
    .num (decide (t < 0)) (t.natAbs / 2 ^ 40) (-360) true

/-- 1/x, √x and 1/√x of exact positive numbers. -/
def exRcp (neg : Bool) (m : Nat) (e : Int) : Ex :=
  let k := m.log2 + 64
  .num neg (2 ^ k / m) (-e - k) (2 ^ k % m != 0)
def exSqrt (m : Nat) (e : Int) : Ex :=
  let t := 80 + (e % 2).toNat
  let n := m * 2 ^ t
  let s := isqrt n
  .num false s ((e - t) / 2) (s * s != n)
def exRsqrt (m : Nat) (e : Int) : Ex :=
  let m1 := m * 2 ^ (e % 2).toNat
  let e1 := e - (e % 2)
  let k := m1.log2 + 64
  let s := isqrt (2 ^ (2 * k) / m1)
  .num false s (-(e1 / 2) - k) (s * s * m1 != 2 ^ (2 * k))

/-- The operations 0 `vexp2`, 1 `vlog2`, 2 `vrcp`, 3 `vrsqrt`, 4 `vsqrt`: the exact result and the event of the
operation itself. -/
def exTrans (op : Nat) (x : Ex) : Ex × Option Ev :=
  match op, x with
  | _, .nan => (.nan, none)
  | 0, .inf neg => (if neg then .zero false else .inf false, none)
  | 0, .num neg m e _ => (exExp2 neg m e, none)
  | 1, .inf neg => if neg then (.nan, some .invalid) else (.inf false, none)
  | 1, .num neg m e _ =>
    if m = 0 then (.inf true, some .divZero) else if neg then (.nan, some .invalid) else (exLog2 m e, none)
  | 2, .inf neg => (.zero neg, none)
  | 2, .num neg m e _ => if m = 0 then (.inf neg, some .divZero) else (exRcp neg m e, none)
  | 3, .inf neg => if neg then (.nan, some .invalid) else (.zero false, none)
  | 3, .num neg m e _ =>
    if m = 0 then (.inf neg, some .divZero) else if neg then (.nan, some .invalid) else (exRsqrt m e, none)
  | _, .inf neg => if neg then (.nan, some .invalid) else (.inf false, none)
  | _, .num neg m e more =>
    if m = 0 then (.num neg m e more, none) else if neg then (.nan, some .invalid) else (exSqrt m e, none)

/-- Rounded once (R185); an invalid or a divide-by-zero comes before the event of the rounding (R73). -/
def eTrans (op : Nat) (f : Fmt) (rm : Nat) (sat : Bool) (x : Nat) : ERes :=
  let r := exTrans op (f.dec x)
  let q := f.round rm sat r.1
  match r.2, q.2 with
  | some .divZero, some .invalid => (q.1, some .invalid)
  | some ev, _ => (q.1, some ev)
  | none, ev => (q.1, ev)

/-! ### Conversion (R187, R190) -/

/-- The exact value of an element of any format. -/
def exOf (code : Nat) (v : Nat) : Ex :=
  match fmtOf code with
  | some f => f.dec v
  | none => exOfInt (intDec (codeWidth code) v)

/-- An exact value in a format, rounded. -/
def exTo (code rm : Nat) (sat : Bool) (x : Ex) : ERes :=
  match fmtOf code with
  | some f => f.round rm sat x
  | none => toIntFmt (codeWidth code) rm sat x

/-- `vcvt` of one element (R187). -/
def eCvt (src dst rm : Nat) (sat : Bool) (x : Nat) : ERes :=
  if isIntCode src && isIntCode dst then
    (intFit (codeWidth dst) sat false (intDec (codeWidth src) x), none)
  else exTo dst rm sat (exOf src x)

/-- x / 2^(e − 127) exactly (R60). -/
def Ex.scaleDown (x : Ex) (e : Nat) : Ex :=
  match x with
  | .num n m k more => .num n m (k - ((e : Int) - 127)) more
  | y => y

/-- `vqcvt` of one element with the scale byte `e` (R190). -/
def eQcvt (src dst rm e : Nat) (x : Nat) : ERes :=
  if e = 0xFF then ((match fmtOf dst with | some f => f.nan | none => 0), none)
  else
    let r := exTo dst rm true ((exOf src x).scaleDown e)
    if isIntCode src && isIntCode dst then (r.1, none) else r

/-- emax(T) of R61 and R189. -/
def emaxOf (code : Nat) : Int :=
  match code with
  | 1 => 127
  | 2 => 15
  | 3 => 127
  | 4 => 8
  | 5 => 15
  | 6 => 6
  | 7 => 14
  | 8 => 30
  | 9 => 62
  | _ => 6

/-- floor(log2 |x|) of a nonzero number. -/
def Ex.log2 : Ex → Option Int
  | .num _ m e _ => if m = 0 then none else some (e + m.log2)
  | _ => none

/-- The scale of a block for a target (R61). -/
def blockScale (xs : List Ex) (target : Nat) : Nat :=
  if xs.any (fun x => x.isNan || x.isInf) then 0xFF
  else
    match (xs.filterMap Ex.log2) with
    | [] => 127
    | l :: ls => (clampI 0 254 (ls.foldl max l - emaxOf target + 127)).toNat

end Sys2Proof.Machine
end

