-- ==== Sys2Proof/Machine/Vector.lean ====
section
/-! DEFINITION. The V slots (R171 to R193): elements of a vector, poison by word, the operations, and the
first-event log. -/

namespace Sys2Proof.Machine

/-! ### Vectors as elements -/

/-- The width of a V operation in bits (R30). -/
def vWidth (o : VOp) : Nat := 256 * 2 ^ o.w.toNat

/-- `n` elements of width `w` from element `i` (R56). -/
def elemsFrom (v w i : Nat) : Nat → List Nat
  | 0 => []
  | n + 1 => v / 2 ^ (i * w) % 2 ^ w :: elemsFrom v w (i + 1) n
def elems (v : BitVec 1024) (w n : Nat) : List Nat := elemsFrom v.toNat w 0 n

/-- A vector of elements, lowest first; zero above. -/
def joinNat (w : Nat) : List Nat → Nat
  | [] => 0
  | x :: xs => x % 2 ^ w + 2 ^ w * joinNat w xs
def joinElems (w : Nat) (xs : List Nat) : BitVec 1024 := BitVec.ofNat 1024 (joinNat w xs)

/-- Poison of each element (R173). -/
def elemPoison (p : BitVec 32) (w n : Nat) : List Bool :=
  (upTo 0 n).map (fun i =>
    if w = 64 then p.getLsbD (2 * i) || p.getLsbD (2 * i + 1) else p.getLsbD (i * w / 32))

/-- Poison of the words of poisoned elements. -/
def joinPoisonGo (w : Nat) : Nat → List Bool → BitVec 32
  | _, [] => 0
  | i, b :: bs =>
    (if !b then 0
     else if w = 64 then BitVec.ofNat 32 (3 * 2 ^ (2 * i)) else BitVec.ofNat 32 (2 ^ (i * w / 32))) |||
    joinPoisonGo w (i + 1) bs
def joinPoison (w : Nat) (bs : List Bool) : BitVec 32 := joinPoisonGo w 0 bs

/-- A vector value with the events of its lanes. -/
structure VRes where
  val : VVal := {}
  evs : List (Nat × Ev) := []

/-- Results of lanes with their poison; poisoned lanes record nothing (R73). -/
def mkVRes (w : Nat) (rs : List (ERes × Bool)) (f : Option TrapRec) : VRes :=
  { val := { v := joinElems w (rs.map (fun r => r.1.1)), p := joinPoison w (rs.map (fun r => r.2)), f := f },
    evs := ((upTo 0 rs.length).zip rs).filterMap (fun z =>
      if z.2.2 then none else z.2.1.2.map (fun e => (z.1, e))) }

/-- One, two or three sources, element by element. -/
def vMap1 (W w : Nat) (f : Nat → ERes) (a : VVal) : VRes :=
  let n := W / w
  mkVRes w (((elems a.v w n).map f).zip (elemPoison a.p w n)) a.f
def vMap2 (W w : Nat) (f : Nat → Nat → ERes) (a b : VVal) : VRes :=
  let n := W / w
  mkVRes w (((elems a.v w n).zipWith f (elems b.v w n)).zip
    ((elemPoison a.p w n).zipWith or (elemPoison b.p w n))) (orF a.f b.f)
def vMap3 (W w : Nat) (f : Nat → Nat → Nat → ERes) (a b c : VVal) : VRes :=
  let n := W / w
  mkVRes w ((((elems a.v w n).zip (elems b.v w n)).zipWith (fun x z => f x.1 x.2 z) (elems c.v w n)).zip
    (((elemPoison a.p w n).zipWith or (elemPoison b.p w n)).zipWith or (elemPoison c.p w n)))
    (orF a.f (orF b.f c.f))

/-- Element `i` of a list of numbers or flags. -/
def nth {α : Type} (d : α) (xs : List α) (i : Nat) : α := xs.getD i d

/-- Elements taken from positions of the source. -/
def vPick (w : Nat) (src : List (Nat × Bool)) (idx : List (Nat × Bool)) (f : Option TrapRec) : VRes :=
  mkVRes w (idx.map (fun i => let e := nth (0, false) src i.1; ((e.1, none), e.2 || i.2))) f

/-- Elements with their poison. -/
def vParts (W w : Nat) (a : VVal) : List (Nat × Bool) :=
  (elems a.v w (W / w)).zip (elemPoison a.p w (W / w))

/-! ### Trees (R65) -/

/-- The first of two events in the order of R73's table. -/
def firstEv (a b : Option Ev) : Option Ev :=
  match a, b with
  | some x, some y => if x.code ≤ y.code then some x else some y
  | some x, none => some x
  | none, y => y

/-- One pairwise level. -/
def treeLevel (f : Nat → Nat → ERes) : List ERes → List ERes
  | x :: y :: l => let r := f x.1 y.1; (r.1, firstEv (firstEv x.2 y.2) r.2) :: treeLevel f l
  | l => l
def treeGo (f : Nat → Nat → ERes) : Nat → List ERes → List ERes
  | 0, l => l
  | k + 1, l => treeGo f k (treeLevel f l)

/-- A reduction (R184): element 0, zeros elsewhere, poisoned by every element. -/
def vReduce (W w : Nat) (f : Nat → Nat → ERes) (a : VVal) : VRes :=
  let n := W / w
  let r := treeGo f 8 ((elems a.v w n).map (fun x => (x, none)))
  mkVRes w [(nth (0, none) r 0, (elemPoison a.p w n).any (fun b => b))] a.f

/-- One step of the scan, at distance `d`. -/
def scanStep (f : Nat → Nat → ERes) (d : Nat) (xs : List (ERes × Bool)) : List (ERes × Bool) :=
  (upTo 0 xs.length).map (fun i =>
    let x := nth ((0, none), false) xs i
    if i < d then x
    else
      let y := nth ((0, none), false) xs (i - d)
      let r := f y.1.1 x.1.1
      ((r.1, firstEv x.1.2 r.2), y.2 || x.2))
def scanGo (f : Nat → Nat → ERes) (n : Nat) : Nat → Nat → List (ERes × Bool) → List (ERes × Bool)
  | 0, _, xs => xs
  | k + 1, d, xs => if n ≤ d then xs else scanGo f n k (2 * d) (scanStep f d xs)
def vScan (W w : Nat) (f : Nat → Nat → ERes) (a : VVal) : VRes :=
  let xs := (vParts W w a).map (fun e => (((e.1, none) : ERes), e.2))
  mkVRes w (scanGo f xs.length 8 1 xs) a.f

/-! ### Formats and checks -/

/-- The element format in force (R68): FO, or VA of `FMT`. -/
def State.vCode (s : State) (o : VOp) : Nat :=
  if o.fo = 0 then (s.cur.fmtAt s.latch.ic).toNat % 16 else o.fo.toNat
/-- The destination format of a conversion: FO, or VD. -/
def State.vdCode (s : State) (o : VOp) : Nat :=
  if o.fo = 0 then (s.cur.fmtAt s.latch.ic).toNat / 16 % 16 else o.fo.toNat
/-- VA, the source format of a conversion. -/
def State.vaCode (s : State) : Nat := (s.cur.fmtAt s.latch.ic).toNat % 16
/-- The rounding mode (R62). -/
def State.vRm (s : State) (o : VOp) : Nat :=
  if o.rm = 0 then (s.cur.fmtAt s.latch.ic).toNat / 2 ^ 30 else o.rm.toNat - 1

/-- An encoding trap raised when the operation issues (R172, R407): precise at the bundle, whatever the guard
holds. DEDUCED (log 39). -/
def State.illegalNow (s : State) : State :=
  s.stat (.trap (s.trapRec .illegalEncoding (s.latch.w0.setWidth 64) (s.latch.x.setWidth 64)))

/-- The vector slot, 0 or 1. -/
def State.vSlot (s : State) : Nat := if s.latch.slot = 4 then 1 else 0

/-- The events of a result enter `FEL` when it becomes visible (R73). -/
def State.addEvents (s : State) (k : Cond2) (lat : Nat) (outs : List (Tag × VRes)) : State :=
  s.onCur (fun c => { c with felPend := c.felPend ++ outs.flatMap (fun z => z.2.evs.map (fun e =>
    FelP.mk (s.latch.ic + lat) (s.latch.ic, s.vSlot, e.1) e.2.code s.latch.ba (tagAnd k.held z.1))) })

/-- A V operation that writes a vector: its checks, its result, its events, its arrival. -/
def State.vop (s : State) (h : Hdr) (o : VOp) (ok : Bool) (lat : Nat) (outs : List (Tag × VRes)) : State :=
  if !(ok && o.foOk) then s.illegalNow
  else s.guarded h (fun k =>
    s.withArrivals k h lat outs ((s.deliverV k o.d.toNat lat (outs.map (fun z => (z.1, z.2.val)))).addEvents k lat outs))

def State.va (s : State) (o : VOp) : List (Tag × VVal) := s.vSrc o.a.toNat
def State.vb (s : State) (o : VOp) : List (Tag × VVal) := s.vSrc o.breg
def State.vc (s : State) (o : VOp) : List (Tag × VVal) := s.vSrc o.c.toNat

/-- The latency of an operation with an integer or a floating-point format (R176). -/
def State.vLat (s : State) (o : VOp) (i f : Nat) : Nat := if isIntCode (s.vCode o) then i else f

/-- Element-wise shapes over the format in force. -/
def State.v1 (s : State) (h : Hdr) (o : VOp) (ok : Bool) (lat : Nat) (f : Nat → ERes) : State :=
  s.vop h o ok lat (lift1 (vMap1 (vWidth o) (codeWidth (s.vCode o)) f) (s.va o))
def State.v2 (s : State) (h : Hdr) (o : VOp) (lat : Nat) (f : Nat → Nat → ERes) : State :=
  s.vop h o true lat (lift2 (vMap2 (vWidth o) (codeWidth (s.vCode o)) f) (s.va o) (s.vb o))
def State.v3 (s : State) (h : Hdr) (o : VOp) (lat : Nat) (f : Nat → Nat → Nat → ERes) : State :=
  s.vop h o true lat (lift3 (vMap3 (vWidth o) (codeWidth (s.vCode o)) f) (s.va o) (s.vb o) (s.vc o))

/-- Moves of elements across positions of `a`: for each position, the source and its own poison. -/
def State.vMove (s : State) (h : Hdr) (o : VOp) (idx : Nat → List (Nat × Bool)) : State :=
  let w := codeWidth (s.vCode o)
  let W := vWidth o
  s.vop h o true 1 (lift1 (fun (a : VVal) => vPick w (vParts W w a) (idx (W / w)) a.f) (s.va o))

/-- The immediate shifts, and the shifts by `b` (R179). -/
def State.vShift (s : State) (h : Hdr) (o : VOp) (op : Nat) : State :=
  let w := codeWidth (s.vCode o)
  if o.sub.getLsbD 0 then s.v1 h o true 1 (fun x => eShift op w x (o.b.toNat + (if o.b5 then 32 else 0)))
  else s.v2 h o 1 (eShift op w)

/-- `vshuf` (R183). -/
def shufIdx (sub n : Nat) : List (Nat × Bool) :=
  let h := n / 2
  (upTo 0 n).map (fun i => (match sub with
    | 0 => if i % 2 = 0 then i / 2 else n + i / 2
    | 1 => if i % 2 = 0 then h + i / 2 else n + h + i / 2
    | 2 => if i < h then 2 * i else n + 2 * (i - h)
    | _ => if i < h then 2 * i + 1 else n + 2 * (i - h) + 1, false))

/-- `vrot`: element i comes from (i − imm) mod n (R182). -/
def rotIdx (imm n : Nat) : List (Nat × Bool) := (upTo 0 n).map (fun i => ((i + n - imm % n) % n, false))

/-- `vext` of one value (R182). -/
def extVal (w n imm : Nat) (sg : Bool) (a : VVal) : SVal :=
  let x := nth 0 (elems a.v w n) (imm % n)
  ⟨if sg then sextN w x else BitVec.ofNat 64 x, bbit (nth false (elemPoison a.p w n) (imm % n)), a.f⟩

/-- `vins` of one value (R182). -/
def insVal (W w imm : Nat) (d : VVal) (x : SVal) : VRes :=
  let n := W / w
  mkVRes w ((vParts W w d).zip (upTo 0 n) |>.map (fun z =>
    if z.2 = imm % n then ((x.v.toNat % 2 ^ w, none), x.p != 0) else ((z.1.1, none), z.1.2))) (orF d.f x.f)

/-- `vsplat` of one scalar (R182). -/
def splatVal (W w : Nat) (x : SVal) : VRes :=
  mkVRes w ((upTo 0 (W / w)).map (fun _ => ((x.v.toNat % 2 ^ w, none), x.p != 0))) x.f

/-- A conversion by R186: the element function `f`, from width `ws` to `wd`, part `p`. -/
def cvtVal (W ws wd p : Nat) (f : Nat → ERes) (allBad : Bool) (a : VVal) : VRes :=
  let wm := max ws wd
  let n := W / wm
  let src := vParts W ws a
  let rs := (upTo 0 n).map (fun i =>
    let e := nth (0, false) src (if ws < wd then p * n + i else i)
    (f e.1, e.2 || allBad))
  if wd < ws then
    let r := mkVRes wd ((upTo 0 (p * n)).map (fun _ => ((0, none), false)) ++ rs) a.f
    { r with evs := r.evs.filter (fun e => decide (p * n ≤ e.1)) }
  else mkVRes wd rs a.f

/-- The part is below the ratio of the widths (R172, R186). -/
def partOk (ws wd p : Nat) : Bool := decide (p < max ws wd / min ws wd)

/-- `vpack` and `vunpack` move 256 bits (R192): (destination bit, source bit). -/
def planeBits (pack : Bool) (j k : Nat) : List (Nat × Nat) :=
  (upTo 0 128).flatMap (fun m =>
    let e := 128 * k + m
    let x := [(e, 8 * m + (7 - 2 * j)), (512 + e, 8 * m + (6 - 2 * j))]
    if pack then x else x.map (fun z => (z.2, z.1)))

def planeVal (pack : Bool) (j k : Nat) (d a : VVal) : VRes :=
  let bs := planeBits pack j k
  let mask := bs.foldl (fun m z => m ||| 2 ^ z.1) 0
  let new := bs.foldl (fun m z => if a.v.getLsbD z.2 then m ||| 2 ^ z.1 else m) 0
  let m : BitVec 1024 := BitVec.ofNat 1024 mask
  let word := fun (i : Nat) => mask / 2 ^ (32 * i) % 2 ^ 32
  let p := (upTo 0 32).map (fun i =>
    (bs.any (fun z => z.1 / 32 == i && a.p.getLsbD (z.2 / 32))) ||
    (d.p.getLsbD i && word i != 2 ^ 32 - 1))
  { val := ⟨(d.v &&& ~~~m) ||| (BitVec.ofNat 1024 new &&& m), joinPoison 32 p, orF d.f a.f⟩ }

/-- `vmaxe` of one value: the scale byte, and whether an element is poisoned (R189). -/
def maxeVal (W code target : Nat) (a : VVal) : Nat × Bool :=
  let w := codeWidth code
  (blockScale ((elems a.v w (W / w)).map (exOf code)) target, (elemPoison a.p w (W / w)).any (fun b => b))

/-! ### The meanings -/

/-- `nop.v0`, `nop.v1`: nothing; its slot disarms (R39). -/
def execNopV (_h : Hdr) (_o : VOp) (s : State) : Host.Outcome State Fault Refusal := .next s

/-- `vadd` (R177, R178). -/
def execVadd (h : Hdr) (o : VOp) (s : State) : Host.Outcome State Fault Refusal :=
  .next (s.v2 h o (s.vLat o 1 3) (eBin 0 (s.vCode o) (s.vRm o) o.sat (o.sub.getLsbD 0)))

/-- `vsub` (R177, R178). -/
def execVsub (h : Hdr) (o : VOp) (s : State) : Host.Outcome State Fault Refusal :=
  .next (s.v2 h o (s.vLat o 1 3) (eBin 1 (s.vCode o) (s.vRm o) o.sat (o.sub.getLsbD 0)))

/-- `vmul` (R177, R178). -/
def execVmul (h : Hdr) (o : VOp) (s : State) : Host.Outcome State Fault Refusal :=
  .next (s.v2 h o (s.vLat o 4 4) (eBin 2 (s.vCode o) (s.vRm o) o.sat (o.sub.getLsbD 0)))

/-- `vfma`: one rounding (R177, R178). -/
def execVfma (h : Hdr) (o : VOp) (s : State) : Host.Outcome State Fault Refusal :=
  .next (s.v3 h o 4 (eFma 0 (s.vCode o) (s.vRm o) o.sat))

/-- `vfms`: one rounding (R177, R178). -/
def execVfms (h : Hdr) (o : VOp) (s : State) : Host.Outcome State Fault Refusal :=
  .next (s.v3 h o 4 (eFma 1 (s.vCode o) (s.vRm o) o.sat))

/-- `vnfma`: one rounding (R177, R178). -/
def execVnfma (h : Hdr) (o : VOp) (s : State) : Host.Outcome State Fault Refusal :=
  .next (s.v3 h o 4 (eFma 2 (s.vCode o) (s.vRm o) o.sat))

/-- `vmin` (R177, R178). -/
def execVmin (h : Hdr) (o : VOp) (s : State) : Host.Outcome State Fault Refusal :=
  .next (s.v2 h o (s.vLat o 1 3) (eMinMax false (s.vCode o) (o.sub.getLsbD 0)))

/-- `vmax` (R177, R178). -/
def execVmax (h : Hdr) (o : VOp) (s : State) : Host.Outcome State Fault Refusal :=
  .next (s.v2 h o (s.vLat o 1 3) (eMinMax true (s.vCode o) (o.sub.getLsbD 0)))

/-- `vabs`: the sign bit alone, or two's complement (R177, R178). -/
def execVabs (h : Hdr) (o : VOp) (s : State) : Host.Outcome State Fault Refusal :=
  .next (s.v1 h o true 1 (eSign false (s.vCode o) o.sat))

/-- `vneg`: the sign bit alone, or two's complement (R177, R178). -/
def execVneg (h : Hdr) (o : VOp) (s : State) : Host.Outcome State Fault Refusal :=
  .next (s.v1 h o true 1 (eSign true (s.vCode o) o.sat))

/-- `vand` on bits (R179). -/
def execVand (h : Hdr) (o : VOp) (s : State) : Host.Outcome State Fault Refusal :=
  .next (s.v2 h o 1 (fun x y => (x &&& y, none)))

/-- `vor` on bits (R179). -/
def execVor (h : Hdr) (o : VOp) (s : State) : Host.Outcome State Fault Refusal :=
  .next (s.v2 h o 1 (fun x y => (x ||| y, none)))

/-- `vxor` on bits (R179). -/
def execVxor (h : Hdr) (o : VOp) (s : State) : Host.Outcome State Fault Refusal :=
  .next (s.v2 h o 1 (fun x y => (x ^^^ y, none)))

/-- `vshl`, `.i` (R179). -/
def execVshl (h : Hdr) (o : VOp) (s : State) : Host.Outcome State Fault Refusal :=
  .next (s.vShift h o 0)

/-- `vshr`, `.i` (R179). -/
def execVshr (h : Hdr) (o : VOp) (s : State) : Host.Outcome State Fault Refusal :=
  .next (s.vShift h o 1)

/-- `vsra`, `.i` (R179). -/
def execVsra (h : Hdr) (o : VOp) (s : State) : Host.Outcome State Fault Refusal :=
  .next (s.vShift h o 2)

/-- `vcmp`: all ones or all zeros (R180). -/
def execVcmp (h : Hdr) (o : VOp) (s : State) : Host.Outcome State Fault Refusal :=
  .next (s.v2 h o (s.vLat o 1 3) (fun x y => (if eCmp o.sub.toNat (s.vCode o) x y then 2 ^ codeWidth (s.vCode o) - 1 else 0, none)))

/-- `vsel` (R181). -/
def execVsel (h : Hdr) (o : VOp) (s : State) : Host.Outcome State Fault Refusal :=
  .next (s.v3 h o 1 (fun x y z => (if z ≠ 0 then x else y, none)))

/-- `vsplat` (R182). -/
def execVsplat (h : Hdr) (o : VOp) (s : State) : Host.Outcome State Fault Refusal :=
  .next (s.vop h o true 1 (lift1 (splatVal (vWidth o) (codeWidth (s.vCode o))) (s.sSrc o.a.toNat)))

/-- `vbcast` (R182). -/
def execVbcast (h : Hdr) (o : VOp) (s : State) : Host.Outcome State Fault Refusal :=
  .next (s.vMove h o (fun n => (upTo 0 n).map (fun _ => (o.imm % n, false))))

/-- `vperm` (R182). -/
def execVperm (h : Hdr) (o : VOp) (s : State) : Host.Outcome State Fault Refusal :=
  .next (let w := codeWidth (s.vCode o); let W := vWidth o; s.vop h o true 1 (lift2 (fun (a b : VVal) => vPick w (vParts W w a) ((vParts W w b).map (fun e => (e.1 % (W / w), e.2))) (orF a.f b.f)) (s.va o) (s.vb o)))

/-- `vshuf` (R183). -/
def execVshuf (h : Hdr) (o : VOp) (s : State) : Host.Outcome State Fault Refusal :=
  .next (let w := codeWidth (s.vCode o); let W := vWidth o; s.vop h o true 1 (lift2 (fun (a b : VVal) => vPick w (vParts W w a ++ vParts W w b) (shufIdx o.sub.toNat (W / w)) (orF a.f b.f)) (s.va o) (s.vb o)))

/-- `vrot` (R182). -/
def execVrot (h : Hdr) (o : VOp) (s : State) : Host.Outcome State Fault Refusal :=
  .next (s.vMove h o (rotIdx o.imm))

/-- `vext`, `vext.s`: into a scalar, latency 2 (R182). -/
def execVext (h : Hdr) (o : VOp) (s : State) : Host.Outcome State Fault Refusal :=
  .next (if !o.foOk then s.illegalNow else s.regS h o.d.toNat 2 (lift1 (extVal (codeWidth (s.vCode o)) (vWidth o / codeWidth (s.vCode o)) o.imm (o.sub.getLsbD 1)) (s.va o)))

/-- `vins` (R182). -/
def execVins (h : Hdr) (o : VOp) (s : State) : Host.Outcome State Fault Refusal :=
  .next (s.vop h o true 1 (lift2 (insVal (vWidth o) (codeWidth (s.vCode o)) o.imm) (s.vSrc o.d.toNat) (s.sSrc o.a.toNat)))

/-- `vmov`: the low W bits (R182). -/
def execVmov (h : Hdr) (o : VOp) (s : State) : Host.Outcome State Fault Refusal :=
  .next (s.v1 h o true 1 (fun x => (x, none)))

/-- `vredsum` (R184, R65). -/
def execVredsum (h : Hdr) (o : VOp) (s : State) : Host.Outcome State Fault Refusal :=
  .next (s.vop h o true (s.vLat o 2 6) (lift1 (vReduce (vWidth o) (codeWidth (s.vCode o)) (eBin 0 (s.vCode o) (s.vRm o) false false)) (s.va o)))

/-- `vredmax` (R184, R65). -/
def execVredmax (h : Hdr) (o : VOp) (s : State) : Host.Outcome State Fault Refusal :=
  .next (s.vop h o true (s.vLat o 2 6) (lift1 (vReduce (vWidth o) (codeWidth (s.vCode o)) (eMinMax true (s.vCode o) (o.sub.getLsbD 0))) (s.va o)))

/-- `vredmin` (R184, R65). -/
def execVredmin (h : Hdr) (o : VOp) (s : State) : Host.Outcome State Fault Refusal :=
  .next (s.vop h o true (s.vLat o 2 6) (lift1 (vReduce (vWidth o) (codeWidth (s.vCode o)) (eMinMax false (s.vCode o) (o.sub.getLsbD 0))) (s.va o)))

/-- `vscan` (R184, R65). -/
def execVscan (h : Hdr) (o : VOp) (s : State) : Host.Outcome State Fault Refusal :=
  .next (s.vop h o true (s.vLat o 2 8) (lift1 (vScan (vWidth o) (codeWidth (s.vCode o)) (eBin 0 (s.vCode o) (s.vRm o) false false)) (s.va o)))

/-- `vexp2`, rounded once (R185). -/
def execVexp2 (h : Hdr) (o : VOp) (s : State) : Host.Outcome State Fault Refusal :=
  .next (s.v1 h o (!isIntCode (s.vCode o)) 8 (match fmtOf (s.vCode o) with | some f => eTrans 0 f (s.vRm o) o.sat | none => fun x => (x, none)))

/-- `vlog2`, rounded once (R185). -/
def execVlog2 (h : Hdr) (o : VOp) (s : State) : Host.Outcome State Fault Refusal :=
  .next (s.v1 h o (!isIntCode (s.vCode o)) 8 (match fmtOf (s.vCode o) with | some f => eTrans 1 f (s.vRm o) o.sat | none => fun x => (x, none)))

/-- `vrcp`, rounded once (R185). -/
def execVrcp (h : Hdr) (o : VOp) (s : State) : Host.Outcome State Fault Refusal :=
  .next (s.v1 h o (!isIntCode (s.vCode o)) 8 (match fmtOf (s.vCode o) with | some f => eTrans 2 f (s.vRm o) o.sat | none => fun x => (x, none)))

/-- `vrsqrt`, rounded once (R185). -/
def execVrsqrt (h : Hdr) (o : VOp) (s : State) : Host.Outcome State Fault Refusal :=
  .next (s.v1 h o (!isIntCode (s.vCode o)) 8 (match fmtOf (s.vCode o) with | some f => eTrans 3 f (s.vRm o) o.sat | none => fun x => (x, none)))

/-- `vsqrt`, rounded once (R185). -/
def execVsqrt (h : Hdr) (o : VOp) (s : State) : Host.Outcome State Fault Refusal :=
  .next (s.v1 h o (!isIntCode (s.vCode o)) 8 (match fmtOf (s.vCode o) with | some f => eTrans 4 f (s.vRm o) o.sat | none => fun x => (x, none)))

/-- `vclz` (R179, R74). -/
def execVclz (h : Hdr) (o : VOp) (s : State) : Host.Outcome State Fault Refusal :=
  .next (s.v1 h o true 1 (fun x => (clzN (codeWidth (s.vCode o)) x, none)))

/-- `vpop` (R179, R74). -/
def execVpop (h : Hdr) (o : VOp) (s : State) : Host.Outcome State Fault Refusal :=
  .next (s.v1 h o true 1 (fun x => (popN (codeWidth (s.vCode o)) x, none)))

/-- `vcvt` (R186, R187). -/
def execVcvt (h : Hdr) (o : VOp) (s : State) : Host.Outcome State Fault Refusal :=
  .next (let ws := codeWidth s.vaCode; let wd := codeWidth (s.vdCode o); s.vop h o (partOk ws wd o.sub.toNat) 3 (lift1 (cvtVal (vWidth o) ws wd o.sub.toNat (eCvt s.vaCode (s.vdCode o) (s.vRm o) o.sat) false) (s.va o)))

/-- `vmaxe` (R189): it waits for its guard and its source (R174); the latch and `d` receive the scale. -/
def execVmaxe (h : Hdr) (o : VOp) (s : State) : Host.Outcome State Fault Refusal :=
  .next (
    if !o.foOk then s.illegalNow
    else if !(s.cur.ownOpen h s.latch.ic).isEmpty then s.stat (.stall [])
    else s.guarded h (fun k =>
      match s.va o with
      | [(_, a)] =>
        let r := maxeVal (vWidth o) (s.vCode o) ((s.cur.fmtAt s.latch.ic).toNat / 16 % 16) a
        let v : VVal := ⟨BitVec.ofNat 1024 r.1, bbit r.2 |>.setWidth 32, a.f⟩
        let s1 := s.deliverV k o.d.toNat 3 [([], v)]
        let x : Later (BitVec 9) := ⟨s.vSlot, s.latch.ic + 3, bbit r.2 ++ BitVec.ofNat 8 r.1, s.readyAt 3⟩
        (s1.onCur (fun c => { c with qlPend := laterIns x c.qlPend })).arriveLat k h 3
      | _ => s.stat (.stall [])))

/-- `vqcvt` (R190): the scale of its own slot's latch. -/
def execVqcvt (h : Hdr) (o : VOp) (s : State) : Host.Outcome State Fault Refusal :=
  .next (
    let ws := codeWidth s.vaCode
    let wd := codeWidth (s.vdCode o)
    let q := s.cur.qlAt s.vSlot s.latch.ic
    s.vop h o (partOk ws wd o.sub.toNat) 3
      (lift1 (cvtVal (vWidth o) ws wd o.sub.toNat
        (eQcvt s.vaCode (s.vdCode o) (s.vRm o) (q.toNat % 256)) (q.getLsbD 8)) (s.va o)))

/-- `vpack` (R192). -/
def execVpack (h : Hdr) (o : VOp) (s : State) : Host.Outcome State Fault Refusal :=
  .next (s.vop h o (o.w == 2 && o.fo == 0) 1 (lift2 (planeVal true (o.b.toNat / 4 % 4) (o.b.toNat % 4)) (s.vSrc o.d.toNat) (s.va o)))

/-- `vunpack` (R192). -/
def execVunpack (h : Hdr) (o : VOp) (s : State) : Host.Outcome State Fault Refusal :=
  .next (s.vop h o (o.w == 2 && o.fo == 0) 1 (lift2 (planeVal false (o.b.toNat / 4 % 4) (o.b.toNat % 4)) (s.vSrc o.d.toNat) (s.va o)))

end Sys2Proof.Machine
end

