-- ==== Sys2Proof/Machine/Matrix.lean ====
section
/-! DEFINITION. The M slot (R201 to R211, R218, R224): the matrix parameters, calls, waits and accumulator rows. -/

namespace Sys2Proof

/-- The row operand of `mrd` and `mwr` (R203): the scalar and the row offset. -/
def KROp.a (o : KROp) : Nat := o.x.toNat / 2 ^ 21 % 64
def KROp.row (o : KROp) : Nat := o.x.toNat % 2 ^ 16

end Sys2Proof

namespace Sys2Proof.Machine

/-! ### The checks of a standard call (R220) -/

/-- The registers whose addresses a routine uses. -/
def Routine.addrs (r : Routine) : List Nat :=
  match r.idx with
  | 4 => [1]
  | 5 => [1, 6]
  | 6 => [0]
  | 7 => [0, 1]
  | _ => [0, 1] ++ (if r.flag 1 then [5] else []) ++ (if r.flag 2 then [6] else [])

/-- Must-be-zero bits, sizes and depths (R202). -/
def Routine.badFields (r : Routine) : Bool :=
  decide (bits (r.m 7) 16 48 ≠ 0) || decide (bits (r.m 7) 5 3 ≠ 0) || decide (bits (r.m 3) 32 32 ≠ 0) ||
  r.daF == 1 || decide (8 < r.daF) || r.dbF == 1 || decide (8 < r.dbF) ||
  !decide (1 ≤ r.mt ∧ r.mt ≤ 128) || !decide (1 ≤ r.nt ∧ r.nt ≤ 128) ||
  r.addrs.any (fun k => decide (bits (r.m k) 48 16 ≠ 0)) ||
  ((decide (r.idx < 4) || r.idx == 7) && decide (bits (r.m 4) 32 32 ≠ 0))

/-- The operand rules of the routines 0 to 3. -/
def Routine.badGemm (r : Routine) : Bool :=
  let p := pairOf r.ma r.mb
  p == 0 || (p == 3 && (r.bpa != r.bpb || r.idx != 0 || r.flag 1 || r.flag 2)) ||
  r.kTot == 0 || r.kTot % kUnit p != 0 ||
  (r.m 0).toNat % 64 != 0 || (r.m 1).toNat % 64 != 0 || r.lda % 64 != 0 || r.ldb % 64 != 0

/-- `MATRIX_ARGS` of a standard call. -/
def Routine.badArgs (r : Routine) : Bool :=
  r.badFields || (decide (4 ≤ r.idx) && (r.fi || r.fo)) ||
  (match r.idx with
    | 4 => !decide (1 ≤ r.md ∧ r.md ≤ 8) || (r.m 1).toNat % mdSize r.md != 0 || r.ldb % mdSize r.md != 0
    | 5 => !(r.md == 4 || r.md == 5 || r.md == 6)
    | 6 => false
    | 7 => r.kTot == 0 || r.kTot % 512 != 0 || (r.m 0).toNat % 64 != 0 || (r.m 1).toNat % 64 != 0 ||
        r.lda % 64 != 0 || r.ldb % 64 != 0
    | _ => r.badGemm)

/-- The tiles of a descriptor lie within the storage (R208, R220). -/
def Routine.badTiles (r : Routine) (d : Core) : Bool := decide (d.tiles < r.t0 + r.mt * r.nt)

/-- The standard routine of an index stands as at reset: no pack has been installed there (R219, R225). -/
def Arr.builtIn (a : Arr) (idx : Nat) : Bool := decide (idx < 8) && !a.index.any (fun e => e.1 == idx)

/-- The index entry of a routine (R221). The standard routines 0 to 7 stand in the table from reset, without words of
the store (log 16, DESIGN CHOICE). -/
def Arr.entry (a : Arr) (idx : Nat) : BitVec 32 := mget (if idx < 8 then 0xC0000000 else 0) a.index idx

/-- The trap of an `mcall` (R206): the indexes 0 to 7 are checked against their standard routine, whatever words stand there. R219 has
no standard routine at 8 to 31, so a call of one that a pack has filled is checked against none. DESIGN CHOICE (log 16). -/
def State.callTrap (s : State) (r : Routine) (e : BitVec 32) : Option TrapRec :=
  if !e.getLsbD 31 then some (s.trapRec .noRoutine 0 0)
  else if 8 ≤ r.idx then none
  else if r.badArgs then some (s.trapRec .matrixArgs 0 0)
  else if r.idx ≠ 7 && r.badTiles (s.core (coreOf r.n)) then some (s.trapRec .accRange 0 0)
  else none

/-- The trap of an `mzero` (R208). -/
def State.zeroTrap (s : State) (r : Routine) : Option TrapRec :=
  if !decide (1 ≤ r.mt ∧ r.mt ≤ 128) || !decide (1 ≤ r.nt ∧ r.nt ≤ 128) || decide (bits (r.m 3) 32 32 ≠ 0) then
    some (s.trapRec .matrixArgs 0 0)
  else if r.badTiles (s.core (coreOf r.n)) then some (s.trapRec .accRange 0 0)
  else none

/-! ### The standard microprograms -/

/-- A microword (R222). -/
def uword (op : Nat) (le : Bool) (arg : Nat) : Word :=
  BitVec.ofNat 64 (op * 2 ^ 59 + (bbit le).toNat * 2 ^ 58 + arg)

def uStep : Word := uword 1 true (2 ^ 57 + 2 ^ 56)
def uAdva (le : Bool) (mode : Nat) : Word := uword 2 le (mode * 2 ^ 55)
def uAdvb (le : Bool) (mode : Nat) : Word := uword 3 le (mode * 2 ^ 55)
def uLoop (count : Nat) : Word := uword 4 false (count % 2 ^ 24)
def uNext (le : Bool) : Word := uword 5 le (2 ^ 57)

/-- The steps over K of one tile: a loop, or one of 2^24 steps in another (R222). -/
def stdSteps (n : Nat) : List Word :=
  let q := n / 2 ^ 24
  let r := n % 2 ^ 24
  (if q = 0 then [] else [uLoop q, uLoop 0, uStep, uword 0 true 0]) ++ (if r = 0 then [] else [uLoop r, uStep])

/-- A GEMM (R219): tiles in order, j fastest, and K ascending. DEDUCED (log 15). -/
def Routine.gemmProg (r : Routine) : List Word :=
  let p := pairOf r.ma r.mb
  let n := if p = 3 then r.kTot / 512 * r.bpa else r.kTot / kUnit p
  [uword 11 false ((r.idx / 2 % 2) * 2 ^ 57 + (r.idx % 2) * 2 ^ 56),
   uword 12 false ((bbit (r.flag 1)).toNat * 2 ^ 57 + (bbit (r.flag 2)).toNat * 2 ^ 56),
   uword 5 false 0, uLoop r.mt, uLoop r.nt] ++
  (if r.flag 0 then [uword 6 false 0] else []) ++ stdSteps n ++
  [uAdva false 1, uAdvb false 2, uNext true, uAdvb false 3, uAdva true 2, uword 14 false 0]

/-- A drain (R219): each tile at its place, rows below one another. -/
def Routine.drainProg (r : Routine) (q : Bool) : List Word :=
  let w := fun (pdm : Nat) => uword 7 false ((bbit q).toNat * 2 ^ 57 + pdm * 2 ^ 55)
  [uword 5 false 0, uLoop r.mt] ++
  (if r.nt ≤ 1 then [w 2] else [uLoop (r.nt - 1), w 1, uNext true, w 2]) ++
  [uNext true, uword 14 false 0]

/-- The words of a standard routine; `load` and `pack` are whole (R219). -/
def Routine.stdProg (r : Routine) : List Word :=
  match r.idx with
  | 4 => r.drainProg false
  | 5 => r.drainProg true
  | 6 => []
  | 7 => []
  | _ => r.gemmProg

/-- The words of an installed routine (R221). -/
def Arr.words (a : Arr) (e : BitVec 32) : List Word :=
  (upTo (bits e 12 12).toNat ((bits e 0 12).toNat + 1)).map (fun k => mget 0 a.store (k % 4096))

/-! ### Issue -/

/-- `mset` (R205). -/
def execMset (h : Hdr) (o : KROp) (s : State) : Host.Outcome State Fault Refusal :=
  .next (
    let src := s.sSrc o.d.toNat
    s.waitingN h (manyAlts [src]).isSome (fun k =>
      match s.useTrap (one src) 0 7 false with
      | some t => s.stat (.trap t)
      | none =>
        (s.onCur (fun c => { c with mpPend := laterIns ⟨o.p.toNat, s.latch.ic + 1, (one src).v, s.readyAt 1⟩ c.mpPend })).arriveLat k h 1))

/-- `mget` (R205). -/
def execMget (h : Hdr) (o : KROp) (s : State) : Host.Outcome State Fault Refusal :=
  .next (s.regS h o.d.toNat 1 (known (s.cur.mpAt o.p.toNat s.latch.ic)))

/-- A call of the operation being run, with the parameters as they stand (R206). `std`: it runs a standard routine as the hardware
holds it; once a pack is installed at its index it runs the pack's words (R225). -/
def State.mkRoutine (s : State) (h : Hdr) (op idx : Nat) (tag : Tag) : Routine :=
  { id := s.uid, n := s.latch.n, op := op, idx := idx, std := op == 0 && (s.arr (arrayOf (coreOf s.latch.n))).builtIn idx,
    mp := (upTo 0 8).map (fun k => s.cur.mpAt k s.latch.ic), fmt := s.cur.fmtAt s.latch.ic,
    arr := if h.arr then some h.bn.toNat else none, ba := s.latch.ba, scy := s.latch.scy,
    after := if op = 0 then s.cur.fenced 4 else [], tag := tag }

/-- A call takes its queue entry, or is held under its literals (R201, R206). -/
def State.issueRoutine (s : State) (tag : Tag) (r : Routine) : State :=
  if tag.isEmpty then { s.enqRoutine r with uid := s.uid + 1 }
  else s.pushHeld { id := 0, tag := tag, op := .routine r }

/-- A call at the bundle: its trap, the wait for a fence that holds it back from own or peer scratch (R161) or for a queue entry,
or the call. -/
def State.callOp (s : State) (k : Cond2) (t : Option TrapRec) (r : Routine) : State :=
  match t with
  | some t => s.withTraps [(k.held, t)] 0 (fun s => s)
  | none =>
    s.withTraps [] (if k.held.isEmpty then 0 else 1) (fun s =>
      if r.op = 0 && !(s.cur.fenced 4).isEmpty && r.touches (s.nearIn s.latch.n) then s.stat .wait
      else if k.held.isEmpty && !s.routineRoom r then s.stat .wait else s.issueRoutine k.held r)

/-- `mcall` (R206). -/
def execMcall (h : Hdr) (o : KCOp) (s : State) : Host.Outcome State Fault Refusal :=
  .next (s.guarded h (fun k =>
    let a := s.arr (arrayOf (coreOf s.latch.n))
    let e := a.entry o.idx.toNat
    let r := { s.mkRoutine h 0 o.idx.toNat k.held with fi := o.fi, fo := o.fo, pack := e.toNat }
    let r1 := { r with prog := if r.std then r.stdProg else a.words e }
    s.callOp k (s.callTrap r e) r1))

/-- `mzero` (R208): the descriptor comes from the named register. -/
def execMzero (h : Hdr) (o : KCOp) (s : State) : Host.Outcome State Fault Refusal :=
  .next (s.guarded h (fun k =>
    let r := s.mkRoutine h 1 0 k.held
    let r1 := { r with mp := r.mp.set 3 (r.m (o.f.toNat % 8)) }
    s.callOp k (s.zeroTrap r1) r1))

/-- The combinations of `mpgm`'s base, each queued or held. -/
def State.mpgmAll (s : State) (h : Hdr) (o : KCOp) (k : Cond2) : List (Tag × SVal) → State
  | [] => s
  | (t, a) :: l =>
    let u := tagAnd k.held t
    (s.issueRoutine u { s.mkRoutine h 2 o.idx.toNat u with pack := a.v.toNat }).mpgmAll h o k l

/-- `mpgm` (R224): privileged; the pack goes to the command processor when its turn comes. -/
def execMpgm (h : Hdr) (o : KCOp) (s : State) : Host.Outcome State Fault Refusal :=
  .next (s.guarded h (fun k =>
    let cs := s.aSrc (o.f.toNat % 16)
    let now := cs.any (fun z => (tagAnd k.held z.1).isEmpty)
    s.withTraps [] (cs.filter (fun z => !(tagAnd k.held z.1).isEmpty)).length (fun s =>
      if now && !s.routineRoom { id := 0, n := s.latch.n, op := 2 } then s.stat .wait else s.mpgmAll h o k cs)))

/-! ### Waits -/

/-- A held call in the larder. -/
def Held.isRoutine (e : Held) : Bool := !e.dead && (match e.op with | .routine _ => true | _ => false)

/-- Calls of a context that have not retired (R209). -/
def State.callsOf (s : State) (n : Nat) : Bool :=
  (s.core (coreOf n)).queue.any (fun r => r.n == n) || (s.ctx n).larder.any Held.isRoutine

/-- `mwait` (R209). -/
def execMwait (h : Hdr) (_o : KROp) (s : State) : Host.Outcome State Fault Refusal :=
  .next (s.waitingN h false (fun k => if s.callsOf s.latch.n then s.stat .wait else s.arriveLat k h 1))

/-- `mprov` (R218): the record of the most recently retired `mcall`. Under an open guard it waits: no row of R126 names it. DEDUCED
(log 22). -/
def execMprov (h : Hdr) (o : KROp) (s : State) : Host.Outcome State Fault Refusal :=
  .next (s.waitingN h false (fun k =>
    if s.callsOf s.latch.n then s.stat .wait
    else (s.deliverS k o.d.toNat 2 [([], { v := s.cur.prov })]).arriveLat k h 2))

/-! ### Accumulator rows -/

/-- A routine uses an accumulator tile (R211); an index of 8 to 31 that a pack has filled counts as 32 to 255 do. DESIGN CHOICE
(log 16). -/
def Routine.uses (r : Routine) (t : Nat) : Bool :=
  match r.op with
  | 0 => if r.idx < 8 then r.idx != 7 && decide (r.t0 ≤ t ∧ t < r.t0 + r.mt * r.nt) else true
  | 1 => decide (r.t0 ≤ t ∧ t < r.t0 + r.mt * r.nt)
  | _ => false

/-- The tile of a row is in use by a queued or running routine of core `k` (R211). -/
def State.tileBusy (s : State) (k row : Nat) : Bool := (s.routinesAt k).any (fun r => r.uses (row / 32))

/-- The row of `mrd` and `mwr`, or the trap (R210, R353). -/
def State.accRow (s : State) (o : KROp) (a : SVal) : Sum TrapRec Nat :=
  match s.useTrap a 0 2 false with
  | some t => .inl t
  | none =>
    let row := (a.v + BitVec.ofNat 64 o.row).toNat
    if 512 * (s.core (coreOf s.latch.n)).accg.toNat ≤ row then .inl (s.trapRec .accRange 0 0) else .inr row

def AccRow.val (r : AccRow) : VVal := { v := r.v, p := r.p }

/-- `mrd` (R210, R211). -/
def execMrd (h : Hdr) (o : KROp) (s : State) : Host.Outcome State Fault Refusal :=
  .next (s.guarded h (fun k =>
    let d := s.core (coreOf s.latch.n)
    let cs := (s.sSrc o.a).map (fun z => (z.1, s.accRow o z.2))
    let traps := cs.filterMap (fun z => match z.2 with | .inl t => some (tagAnd k.held z.1, t) | .inr _ => none)
    let made := (cs.filter (fun z => z.2.isRight)).map (fun z => (z.1, []))
    s.withTraps traps (arriveRoom k h made) (fun s =>
      if cs.any (fun z => match z.2 with | .inr r => s.tileBusy (coreOf s.latch.n) r | .inl _ => false) then s.stat .wait
      else (s.deliverV k o.d.toNat 2 (cs.map (fun z => (z.1, match z.2 with
        | .inr r => (mget ({} : AccRow) d.acc r).val
        | .inl t => { f := some { t with deferred := true } })))).arriveAt k h (s.latch.ic + 2) made)))

/-- `mwr` (R210, R211). -/
def execMwr (h : Hdr) (o : KROp) (s : State) : Host.Outcome State Fault Refusal :=
  .next (
    let a := s.sSrc o.a
    let v := s.vSrc o.d.toNat
    s.waitingN h ((manyAlts [a]).isSome || decide (1 < v.length)) (fun k =>
      match s.accRow o (one a) with
      | .inl t => s.stat (.trap t)
      | .inr row =>
        if s.tileBusy (coreOf s.latch.n) row then s.stat .wait
        else (s.onCore (coreOf s.latch.n) (fun d =>
          { d with acc := mput d.acc row { v := (oneV v).v, p := (oneV v).p } })).arriveLat k h 1))

/-- `nop.m` (R41). -/
def execNopM (_h : Hdr) (_o : KROp) (s : State) : Host.Outcome State Fault Refusal := .next s

/-- `nop.x` (R41). -/
def execNopX (_h : Hdr) (_o : QOp) (s : State) : Host.Outcome State Fault Refusal := .next s

end Sys2Proof.Machine
end

