-- ==== Sys2Proof/Machine/Array.lean ====
section
/-! DEFINITION. The matrix arrays: the load pipes (R212 to R215), the step (R198, R64), provenance (R217), drains
(R219), the micro-operations (R222, R223), and the life of a routine (R199 to R201, R207, R224). -/

namespace Sys2Proof.Machine

/-! ### Routines in their queue -/

def State.routine? (s : State) (k id : Nat) : Option Routine := (s.core k).queue.find? (fun r => r.id == id)
def State.setRoutine (s : State) (k : Nat) (r : Routine) : State :=
  s.onCore k (fun d => { d with queue := d.queue.map (fun x => if x.id == r.id then r else x) })
def State.dropRoutine (s : State) (k : Nat) (r : Routine) : State :=
  (s.onCore k (fun d => { d with queue := d.queue.filter (fun x => x.id != r.id) })).onCtx r.n (fun c => c.performed r.id)

/-- A routine ends in a fatal trap of its context (R212, R223). -/
def State.killRoutine (s : State) (k : Nat) (r : Routine) (t : TrapRec) : State := (s.dropRoutine k r).engineTrap r.n t

/-- The trap of a routine, with the call's bundle. -/
def Routine.trap (r : Routine) (c : TrapCode) (ea : Nat) : TrapRec := engTrap c 5 r.ba r.scy ea 0

/-! ### The load pipes -/

/-- What a pipe access, a step or a row comes to: done, a trap, a not-present entry or a fourth hop, or a wait. -/
inductive Pipe (α : Type) where
  | ok (s : State) (r : Routine) (x : α)
  | stop (t : TrapRec)
  | page (kind ea : Nat) (wr : Bool)
  | block

def Pipe.bind {α β : Type} (x : Pipe α) (f : State → Routine → α → Pipe β) : Pipe β :=
  match x with
  | .ok s r a => f s r a
  | .stop t => .stop t
  | .page k ea wr => .page k ea wr
  | .block => .block

/-- What a chase moves (R214): `side` 0 the A pointers and the source of `load` and `pack`, 1 the B pointers, 2 the drain's,
4 and 5 the scale streams of A and B, 6 the scale bytes of a drain, 3 nothing else. -/
def Routine.moved (r : Routine) (side d : Nat) : Routine :=
  match side with
  | 0 => { r with pa := shift64 r.pa d, ra := shift64 r.ra d, ora := shift64 r.ora d,
                  mp := r.mp.set 0 (r.m 0 + BitVec.ofNat 64 d) }
  | 1 => { r with pb := shift64 r.pb d, rb := shift64 r.rb d, orb := shift64 r.orb d,
                  mp := r.mp.set 1 (r.m 1 + BitVec.ofNat 64 d) }
  | 2 => { r with pd := shift64 r.pd d, rd := shift64 r.rd d }
  | 4 => { r with qa := shift64 r.qa d }
  | 5 => { r with qb := shift64 r.qb d }
  | 6 => { r with ps := shift64 r.ps d, mp := r.mp.set 6 (r.m 6 + BitVec.ofNat 64 d) }
  | _ => r

/-- The displacement of a chase reaches `mp0` or `mp1`, if it still holds the call's value (R214). -/
def State.rebaseMp (s : State) (r : Routine) (side : Nat) (d : Nat) : State :=
  if side ≤ 1 then s.onCtx r.n (fun c =>
    if mget 0 c.mp side = r.m side then { c with mp := mput c.mp side (r.m side + BitVec.ofNat 64 d) } else c)
  else s

/-- The out-of-range bit of the record (R215). -/
def Routine.oor (r : Routine) (b : Bool) : Routine := if b then { r with prov := r.prov ||| 0x0400000000000000 } else r

/-- One pipe access (R212): where it ends, with the chase applied. DEDUCED (log 55). -/
def State.pipeWay (s : State) (r : Routine) (side ea n : Nat) (wr : Bool) : Pipe Tgt :=
  match s.engWay r.n (addr64 ea) n wr with
  | .trap c a => if c = .pageFault then .page 0x30 a wr else .stop (r.trap c a)
  | .chain _ _ => .page 0x31 (addr64 ea) wr
  | .ok t a hops =>
    if s.moveBlocks (s.ownHome t.home) n wr then .block
    else if s.refused t.home n wr then .stop (r.trap .remoteError a)
    else
      let d := (2 ^ 64 + a - addr64 ea) % 2 ^ 64
      let out := decide (t.place ≤ 2) && (s.firstOor t.core t.off n).isSome
      if hops = 0 then .ok s (r.oor out) t
      else .ok (s.rebaseMp r side d) ((r.moved side d).oor out) t

/-- A pipe read: the bytes and their poison. -/
def State.pipeRead (s : State) (r : Routine) (side ea n : Nat) : Pipe (List (Byte × Bool)) :=
  (s.pipeWay r side ea n false).bind (fun s r t =>
    let hm := s.ownHome t.home
    .ok ((s.correct hm n none).homeSeen hm n) r ((s.homeBytes hm n).zip (s.badAt hm n)))

/-- Reads of `n` bytes at offsets from a pointer, in turn. -/
def pipeReads (side n : Nat) (ptr : Routine → Nat) : List Nat → State → Routine → Pipe (List (List (Byte × Bool)))
  | [], s, r => .ok s r []
  | o :: os, s, r =>
    (s.pipeRead r side (ptr r + o) n).bind (fun s r x =>
      (pipeReads side n ptr os s r).bind (fun s r xs => .ok s r (x :: xs)))

/-! ### Operands -/

/-- The elements of `e` bytes in a run of bytes, with their poison. -/
def runElems (e : Nat) (bs : List (Byte × Bool)) : List (Nat × Bool) :=
  (upTo 0 (bs.length / e)).map (fun i =>
    let x := (bs.drop (i * e)).take e
    (leBytes (x.map (fun b => b.1)), x.any (fun b => b.2)))

/-- 32 rows of elements from K rows of 32. -/
def transpose32 (ks : List (List (Nat × Bool))) : List (List (Nat × Bool)) :=
  (upTo 0 32).map (fun m => ks.map (fun k => k.getD m (0, false)))

/-- The element `j` of a BPI block, read from its planes (R57, R58). -/
def planeElem (p : Nat) (planes : List (List (Byte × Bool))) (j : Nat) : Int × Bool :=
  let bs := planes.map (fun pl => pl.getD (j / 8) (0, false))
  let n := ((upTo 0 bs.length).zip bs).foldl (fun t z =>
    t + (if z.2.1.getLsbD (j % 8) then 2 ^ (7 - z.1) else 0)) 0
  (bpiVal p (intDec 8 n), bs.any (fun b => b.2))

/-- The elements of step `k` of a block at `p` planes (R198): the first and how many. -/
def stepSpan (p k : Nat) : Nat × Nat :=
  (k * (512 / p) + min k (512 % p), 512 / p + (if k < 512 % p then 1 else 0))

/-- The rows of a list, `q` planes each. -/
def chunks {α : Type} (q : Nat) (xs : List α) : List (List α) :=
  (upTo 0 (xs.length / max 1 q)).map (fun i => (xs.drop (i * q)).take q)

/-- One operand of a step: 32 rows of encodings with poison (`fp`), or of integers. One access is 64 bytes of a row, or the 32
elements of a K row when K-major; their size decides `MISALIGNED` (R137, R212). DEDUCED (log 115). -/
def State.fpRows (s : State) (r : Routine) (side code : Nat) (kMajor : Bool) (ld : Nat) : Pipe (List (List (Nat × Bool))) :=
  let e := mdSize code
  let ptr := fun (r : Routine) => if side = 0 then r.pa else r.pb
  if kMajor then
    (pipeReads side (32 * e) ptr ((upTo 0 (64 / e)).map (fun k => k * ld)) s r).bind (fun s r xs =>
      .ok s r (transpose32 (xs.map (runElems e))))
  else
    (pipeReads side 64 ptr ((upTo 0 32).map (fun m => m * ld)) s r).bind (fun s r xs => .ok s r (xs.map (runElems e)))

def State.bpiRows (s : State) (r : Routine) (side p dep k ld : Nat) : Pipe (List (List (Int × Bool))) :=
  let q := min p dep
  let ptr := fun (r : Routine) => if side = 0 then r.pa else r.pb
  let offs := (upTo 0 32).flatMap (fun m => (upTo 0 q).map (fun j => m * ld + 64 * j))
  (pipeReads side 64 ptr offs s r).bind (fun s r xs =>
    let sp := stepSpan p k
    .ok s r ((chunks q xs).map (fun pl => (upTo sp.1 sp.2).map (planeElem p pl))))

/-- 32 scale bytes of a stream at an offset, or none. -/
def State.scales (s : State) (r : Routine) (on : Bool) (side off : Nat) : Pipe (List (Nat × Bool)) :=
  if !on then .ok s r (List.replicate 32 (127, false))
  else
    (pipeReads side 1 (fun r => (if side = 4 then r.qa else r.qb) + off) (upTo 0 32) s r).bind (fun s r xs => .ok s r ((xs.map (runElems 1)).flatten))

/-! ### Provenance (R217) -/

/-- An event: its key (tile, KSTEP, M, N), kind and source. -/
structure PEv where
  key  : Nat × Nat × Nat × Nat
  kind : Nat
  src  : Nat
  deriving DecidableEq, Repr

def keyLt (a b : Nat × Nat × Nat × Nat) : Bool :=
  decide (a.1 < b.1 ∨ (a.1 = b.1 ∧ (a.2.1 < b.2.1 ∨ (a.2.1 = b.2.1 ∧
    (a.2.2.1 < b.2.2.1 ∨ (a.2.2.1 = b.2.2.1 ∧ a.2.2.2 < b.2.2.2))))))

/-- The first event stands: the one of the lowest key, and of those the one noted first. -/
def Routine.note (r : Routine) (e : PEv) : Routine :=
  if r.provOn && (!bit r.prov 63 || keyLt e.key r.provK) then
    { r with
      provK := e.key,
      prov := (r.prov &&& 0x0600000000000000) ||| BitVec.ofNat 64 (2 ^ 63 + e.kind * 2 ^ 61 + e.src * 2 ^ 59 +
        e.key.2.2.1 % 4096 * 2 ^ 37 + e.key.2.2.2 % 4096 * 2 ^ 25 + e.key.2.1 % 2 ^ 25) }
  else r

def Routine.notes (r : Routine) (es : List PEv) : Routine := es.foldl Routine.note r

/-- The kind of a special value: 0 a NaN, 1 an infinity. -/
def Ex.special : Ex → Option Nat
  | .nan => some 0
  | .inf _ => some 1
  | _ => none

/-! ### The step (R198, R64) -/

/-- A subnormal read as a zero of its sign (R216). -/
def Fmt.flush (f : Fmt) (v : Nat) : Nat :=
  if v / 2 ^ f.mb % 2 ^ f.eb = 0 then v / 2 ^ (f.mb + f.eb) % 2 * 2 ^ (f.mb + f.eb) else v

/-- x × 2^(e − 127); a scale of 0xFF makes a NaN (R60). -/
def Ex.scaleUp (x : Ex) (e : Nat) : Ex :=
  if e = 0xFF then .nan
  else
    match x with
    | .num n m k more => .num n m (k + ((e : Int) - 127)) more
    | y => y

/-- An operand element with its scale. -/
def elemEx (f : Fmt) (fi : Bool) (v : Nat) : Ex := f.dec (if fi then f.flush v else v)

/-- Truncation toward zero to a multiple of 2^g, as a signed count of units. -/
def truncUnits (g : Int) : Ex → Int
  | .num n m e _ =>
    let u := if g ≤ e then m * 2 ^ (e - g).toNat else m / 2 ^ (g - e).toNat
    if n then -(u : Int) else u
  | _ => 0

/-- The row total T (R64): nothing where it is zero or the row has no nonzero product. -/
def rowTotal (ps : List Ex) : Option Ex :=
  if ps.any Ex.isNan then some .nan
  else
    match ps.filter Ex.isInf with
    | x :: xs => if xs.all (fun y => y.neg? == x.neg?) then some x else some .nan
    | [] =>
      match ps.filterMap Ex.log2 with
      | [] => none
      | l :: ls =>
        let g : Int := ls.foldl max l - 48
        let t := (ps.map (truncUnits g)).foldl (fun a b => a + b) 0
        if t = 0 then none else some (.num (decide (t < 0)) t.natAbs g false)

/-- One accumulator takes a row total (R64, R216): the new word and the kind of its event. DEDUCED (log 80). -/
def fpAcc (fo : Bool) (acc : Nat) (t : Option Ex) : Nat × Option Nat :=
  match t with
  | none => (acc, none)
  | some x =>
    let a := fp32.dec acc
    let z := (fp32.round 0 false (a.add 0 x).1).1
    let z1 := if fo then fp32.flush z else z
    (z1, if x.special.isSome then x.special else if a.special.isSome then none else (fp32.dec z).special)

/-- One INT32 accumulator (R64). -/
def intAcc (acc : Nat) (t : Int) : Nat × Option Nat :=
  let v := intDec 32 acc + t
  let c := clampI (intMin 32) (intMax 32) v
  (intEnc 32 c, if c = v then none else some 2)

/-- The words of an accumulator row. -/
def AccRow.words (a : AccRow) : List Nat := elems a.v 32 32

/-- A tile's rows updated by `f` of row and column, with poison and events. `pa` and `pb` say which rows and columns
are poisoned. -/
def tileGo (f : Nat → Nat → Nat → Nat × Option Nat) (key : Nat → Nat → Nat × Nat × Nat × Nat) (pa pb : List Bool)
    (t : Nat) : List Nat → TMap AccRow → List PEv → TMap AccRow × List PEv
  | [], m, es => (m, es)
  | i :: is, m, es =>
    let row : AccRow := mget {} m (32 * t + i)
    let zs := ((upTo 0 32).zip row.words).map (fun z => f i z.1 z.2)
    let all : BitVec 32 := 0xFFFFFFFF
    let p := if pa.getD i false then all else
      ((upTo 0 32).zip pb).foldl (fun q z => if z.2 then q ||| BitVec.ofNat 32 (2 ^ z.1) else q) 0
    let es1 := ((upTo 0 32).zip zs).filterMap (fun z => z.2.2.map (fun k => PEv.mk (key i z.1) k 2))
    tileGo f key pa pb t is
      (mput m (32 * t + i) { v := joinElems 32 (zs.map (fun z => z.1)), p := row.p ||| p }) (es ++ es1)

/-- Operand events of a row (R217): its first special element, then its scale byte. Of events with one key the first recorded stays:
A before B before the accumulation. DESIGN CHOICE (log 114). -/
def operandEvents (key : Nat → Nat × Nat × Nat × Nat) (src : Nat) (rows : List (List Ex)) (sc : List (Nat × Bool)) : List PEv :=
  ((upTo 0 rows.length).zip rows).flatMap (fun z =>
    (match z.2.filterMap Ex.special with | k :: _ => [PEv.mk (key z.1) k src] | [] => []) ++
    (if (sc.getD z.1 (127, false)).1 = 0xFF then [PEv.mk (key z.1) 0 3] else []))

/-- A floating-point step on tile T. -/
def State.stepFp (s : State) (r : Routine) (fa fb : Fmt) : Pipe Unit :=
  (s.fpRows r 0 r.ma r.kmA r.lda).bind (fun s r ra =>
  (s.fpRows r 1 r.mb r.kmB r.ldb).bind (fun s r rb =>
  (s.scales r r.scA 4 (r.kstep * 32 * r.mt + 32 * r.tileI)).bind (fun s r qa =>
  (s.scales r r.scB 5 (r.kstep * 32 * r.nt + 32 * r.tileJ)).bind (fun s r qb =>
    let ea := ra.map (fun row => row.map (fun x => elemEx fa r.fi x.1))
    let eb := rb.map (fun row => row.map (fun x => elemEx fb r.fi x.1))
    let ua := (ea.zip qa).map (fun z => z.1.map (fun x => x.scaleUp z.2.1))
    let ub := (eb.zip qb).map (fun z => z.1.map (fun x => x.scaleUp z.2.1))
    let bad := fun (rows : List (List (Nat × Bool))) (q : List (Nat × Bool)) =>
      (rows.zip q).map (fun z => z.2.2 || z.1.any (fun x => x.2))
    let tn := r.tileNo
    let evA := operandEvents (fun m => (tn, r.kstep, 32 * r.tileI + m, 0)) 0 ea qa
    let evB := operandEvents (fun n => (tn, r.kstep, 0, 32 * r.tileJ + n)) 1 eb qb
    let f := fun (m n acc : Nat) =>
      fpAcc r.fo acc (rowTotal (((ua.getD m []).zip (ub.getD n [])).map (fun z => (z.1.mul z.2).1)))
    let k := coreOf r.n
    let z := tileGo f (fun m n => (tn, r.kstep, 32 * r.tileI + m, 32 * r.tileJ + n)) (bad ra qa) (bad rb qb) r.t
      (upTo 0 32) (s.core k).acc []
    .ok (s.onCore k (fun d => { d with acc := z.1 })) (r.notes (evA ++ evB ++ z.2)) ()))))

/-- A BPI step on tile T. -/
def State.stepBpi (s : State) (r : Routine) : Pipe Unit :=
  (s.bpiRows r 0 r.plA r.dA r.ka r.lda).bind (fun s r ra =>
  (s.bpiRows r 1 r.plB r.dB r.kb r.ldb).bind (fun s r rb =>
    let bad := fun (rows : List (List (Int × Bool))) => rows.map (fun row => row.any (fun x => x.2))
    let f := fun (m n acc : Nat) =>
      intAcc acc ((((ra.getD m []).zip (rb.getD n [])).map (fun z => z.1.1 * z.2.1)).foldl (fun a b => a + b) 0)
    let k := coreOf r.n
    let z := tileGo f (fun m n => (r.tileNo, r.kstep, 32 * r.tileI + m, 32 * r.tileJ + n)) (bad ra) (bad rb) r.t
      (upTo 0 32) (s.core k).acc []
    .ok (s.onCore k (fun d => { d with acc := z.1 })) (r.notes z.2) ()))

/-- The rows of tile T at values that the spec leaves open: operands that are no pair of R198 (log 23, DESIGN CHOICE). -/
def State.freeTile (s : State) (k t : Nat) : List Nat → State
  | [] => s
  | i :: l => ({ s with frees := s.frees + 1 }.onCore k (fun d =>
      { d with acc := mput d.acc (32 * t + i) { v := Config.freeVec s.frees, p := 0 } })).freeTile k t l

/-- The checks before a word that uses tile T (R223). -/
def State.tileTrap (s : State) (r : Routine) : Option TrapRec :=
  if (s.core (coreOf r.n)).tiles ≤ r.t then some (r.trap .accRange 0) else none

/-- A `STEP` (R222, R223). DEDUCED (log 44). -/
def State.stepPipe (s : State) (r : Routine) : Pipe Unit :=
  match s.tileTrap r with
  | some t => .stop t
  | none =>
    if (r.ma = 10 ∧ r.kmA) ∨ (r.mb = 10 ∧ r.kmB) then .stop (r.trap .microcode 0)
    else
      match pairOf r.ma r.mb, fmtOf r.ma, fmtOf r.mb with
      | 3, _, _ => if r.plA = r.plB then s.stepBpi r else .ok (s.freeTile (coreOf r.n) r.t (upTo 0 32)) r ()
      | 0, _, _ => .ok (s.freeTile (coreOf r.n) r.t (upTo 0 32)) r ()
      | _, some fa, some fb => s.stepFp r fa fb
      | _, _, _ => .ok (s.freeTile (coreOf r.n) r.t (upTo 0 32)) r ()

/-! ### Drains (R219) -/

/-- The value of an accumulator word: INT32 or FP32. -/
def accEx (int : Bool) (w : Nat) : Ex := if int then exOfInt (intDec 32 w) else fp32.dec w

/-- FO of a call, which BPI operands ignore (R216). -/
def Routine.foOn (r : Routine) : Bool := r.fo && pairOf r.ma r.mb != 3

/-- A conversion with saturation that saturates (R63, R217). -/
def saturates (code rm : Nat) (x : Ex) : Bool :=
  match fmtOf code with
  | some f => x.isInf || (f.round rm true x).2 == some .overflow
  | none => !x.isNan && (toIntFmt (codeWidth code) rm true x).2 == some .invalid

/-- An element drained by routine 4: the encoding and the kind of its event. -/
def drainElem (r : Routine) (w : Nat) : Nat × Option Nat :=
  let src := if r.flag 4 then 8 else 1
  let z := (eCvt src r.md r.rm (r.flag 3) w).1
  let z0 := (eCvt src r.md r.rm false w).1
  let x := accEx (r.flag 4) w
  match fmtOf r.md with
  | some f =>
    (if r.foOn then f.flush z else z, if r.flag 3 && saturates r.md r.rm x then some 2 else (f.dec z0).special)
  | none => (z, if r.flag 3 && x.isNan then some 0 else if r.flag 3 && saturates r.md r.rm x then some 2 else none)

/-- An element drained by `drain.q` with scale `e`: likewise (R61). -/
def drainQElem (r : Routine) (e w : Nat) : Nat × Option Nat :=
  let x := accEx (r.flag 4) w
  if e = 0xFF then ((match fmtOf r.md with | some f => f.nan | none => 0), none)
  else
    let y := x.scaleDown e
    let z := (exTo r.md r.rm true y).1
    ((match fmtOf r.md with | some f => if r.foOn then f.flush z else z | none => z),
      if saturates r.md r.rm y then some 2 else none)

/-- One element's place and bytes. -/
structure Put where
  t   : Tgt
  bs  : List Byte
  bad : Bool

/-- Where each of a run of elements goes. -/
def pipePuts (off : Nat → Nat) (ptr : Routine → Nat) (e : Nat) :
    List (Nat × Nat × Bool) → State → Routine → Pipe (List Put)
  | [], s, r => .ok s r []
  | (i, v, b) :: l, s, r =>
    (s.pipeWay r 2 (ptr r + off i) e true).bind (fun s r t =>
      (pipePuts off ptr e l s r).bind (fun s r xs => .ok s r (⟨t, toBytes v e, b⟩ :: xs)))

/-- The rank of an array's writes at a port (R145). -/
def arrayRank (k : Nat) : Nat := 3000 + k

def State.putAll (s : State) (r : Routine) : List Put → State
  | [] => s
  | x :: l => (s.engWrite r.n r.id (arrayRank (coreOf r.n)) x.t.place x.t.home x.t.off r.ba x.bs
      (x.bs.map (fun _ => x.bad)) false).putAll r l

/-- Row `m` of a drain of tile T at PD. -/
def State.drainRow (s : State) (r : Routine) (q : Bool) (m : Nat) : Pipe Unit :=
  let row : AccRow := mget {} (s.core (coreOf r.n)).acc (32 * r.t + m)
  let ws := row.words
  let e := mdSize r.md
  let sc := blockScale (ws.map (accEx (r.flag 4))) r.md
  let open' := r.md = 10 || (q && !(r.md == 4 || r.md == 5 || r.md == 6))
  let zs := if open' then (upTo 0 32).map (fun i => ((Config.freeVec (s.frees + i)).toNat % 2 ^ (8 * e), none))
    else ws.map (fun w => if q then drainQElem r sc w else drainElem r w)
  let key := fun (i : Nat) => (r.tileNo, 0x1FFFFFF, 32 * r.tileI + m, 32 * r.tileJ + i)
  let evs := (if q && sc = 0xFF then [PEv.mk (key 0) 0 3] else []) ++
    ((upTo 0 32).zip zs).filterMap (fun z => z.2.2.map (fun k => PEv.mk (key z.1) k 2))
  let xs := ((upTo 0 32).zip zs).map (fun z => (z.1, z.2.1, row.p.getLsbD z.1))
  let s0 := if open' then { s with frees := s.frees + 32 } else s
  (pipePuts (fun i => m * r.ldb + i * e) (fun r => r.pd) e xs s0 r).bind (fun s r ps =>
    if q then
      (s.pipeWay r 6 (r.scaleAt m) 1 true).bind (fun s r t =>
        .ok ((s.putAll r ps).putAll r [⟨t, [BitVec.ofNat 8 sc], row.p != 0⟩]) (r.notes evs) ())
    else .ok (s.putAll r ps) (r.notes evs) ())

/-- The rows of a drain from `drow` on, as far as they go: at least one, or what stops the first (R212). -/
def drainRows (q : Bool) : Nat → State → Routine → Nat → Pipe Nat
  | 0, s, r, done => .ok s r done
  | k + 1, s, r, done =>
    match s.drainRow r q r.drow with
    | .ok s1 r1 _ => drainRows q k s1 { r1 with drow := r1.drow + 1, row := r1.row + 1 } (done + 1)
    | x => if done = 0 then x.bind (fun s r _ => .ok s r 0) else .ok s r done

def State.drainPipe (s : State) (r : Routine) (q : Bool) : Pipe Nat :=
  match s.tileTrap r with
  | some t => .stop t
  | none => drainRows q (32 - r.drow) s r 0

/-! ### `load` and `pack` (R219) -/

/-- Row `y` of `load`: tile (i, j) row m lies at `mp0` + (32i + m)·LDA + 128j (log 16, DESIGN CHOICE). -/
def loadGo : List (Nat × Nat × Nat) → State → Routine → Pipe Unit
  | [], s, r => .ok s r ()
  | (i, j, m) :: l, s, r =>
    (pipeReads 0 4 (fun r => r.pa) ((upTo 0 32).map (fun n => (32 * i + m) * r.lda + 128 * j + 4 * n)) s r).bind
      (fun s r xs =>
        let ws := (xs.map (runElems 4)).flatten
        let row : AccRow := { v := joinElems 32 (ws.map (fun w => w.1)), p := joinPoison 32 (ws.map (fun w => w.2)) }
        loadGo l (s.onCore (coreOf r.n) (fun d =>
          { d with acc := mput d.acc (32 * (r.t0 + i * r.nt + j) + m) row })) r)

/-- Plane `q` of a block of INT8 elements (R57). -/
def packPlane (q : Nat) (xs : List (Nat × Bool)) : List (Byte × Bool) :=
  (upTo 0 64).map (fun b =>
    let es := (xs.drop (8 * b)).take 8
    (BitVec.ofNat 8 (((upTo 0 8).zip es).foldl (fun t z => t + z.2.1 / 2 ^ q % 2 * 2 ^ z.1) 0), es.any (fun e => e.2)))

/-- `pack`, block by block: row `m`, block `b`. -/
def packGo : List (Nat × Nat) → State → Routine → Pipe Unit
  | [], s, r => .ok s r ()
  | (m, b) :: l, s, r =>
    (pipeReads 0 64 (fun r => r.pa) ((upTo 0 8).map (fun k => m * r.lda + 512 * b + 64 * k)) s r).bind (fun s r xs =>
      let es := (xs.map (runElems 1)).flatten
      let ps := ((upTo 0 r.dA).flatMap (fun k => packPlane (7 - k) es))
      (pipePuts (fun i => m * r.ldb + 64 * r.dA * b + i) (fun r => r.pd) 1
        (((upTo 0 ps.length).zip ps).map (fun z => (z.1, z.2.1.toNat, z.2.2))) s r).bind (fun s r us =>
          packGo l (s.putAll r us) r))

/-- The whole of `load` or `pack`. -/
def State.wholePipe (s : State) (r : Routine) : Pipe Unit :=
  if r.idx = 6 then
    loadGo ((upTo 0 r.mt).flatMap (fun i => (upTo 0 r.nt).flatMap (fun j => (upTo 0 32).map (fun m => (i, j, m))))) s r
  else packGo ((upTo 0 (32 * r.mt)).flatMap (fun m => (upTo 0 (r.kTot / 512)).map (fun b => (m, b)))) s r

/-! ### Micro-operations -/

/-- A word is done after `cost` owned cycles. -/
def State.uopDone (s : State) (r : Routine) (le : Bool) (cost : Nat) : State :=
  let k := coreOf r.n
  match r.advance le with
  | none => s.killRoutine k r (r.trap .microcode 0)
  | some r1 => s.setRoutine k { r1 with busy := cost }

/-- The routine that an event names: core `ev.core`, name `ev.id`. What happens to it ends its pause. -/
def State.evRoutine (s : State) : Option Routine := (s.routine? s.ev.core s.ev.id).map (fun r => { r with waitF := none })

/-- A word that only changes the routine. -/
def State.uopPlain (s : State) (u : UopArg) (f : Routine → Routine) : State :=
  match s.evRoutine with
  | none => s
  | some r => s.uopDone (f r) u.le 1

/-- A word that may wait or trap. -/
def State.uopPipe {α : Type} (s : State) (x : Routine → Pipe α) (f : State → Routine → α → State) : State :=
  match s.evRoutine with
  | none => s
  | some r =>
    match x r with
    | .ok s1 r1 a => f s1 r1 a
    | .stop t => s.killRoutine (coreOf r.n) r t
    | _ => s

/-- `NOP` (R222). -/
def execUopNop (u : UopArg) (s : State) : Host.Outcome State Fault Refusal := .next (s.uopPlain u (fun r => r))

/-- `STEP` (R222). -/
def execUopStep (u : UopArg) (s : State) : Host.Outcome State Fault Refusal :=
  .next (s.uopPipe (fun r => s.stepPipe r) (fun s r _ =>
    s.uopDone { (r.stepA (u.b 57)).stepB (u.b 56) with row := r.row + 1, kstep := r.kstep + 1 } u.le 1))

/-- `ADVA` (R222). -/
def execUopAdva (u : UopArg) (s : State) : Host.Outcome State Fault Refusal :=
  .next (s.uopPlain u (fun r => r.advA (u.f 55 2) (bits u.arg 0 32)))
/-- `ADVB` (R222). -/
def execUopAdvb (u : UopArg) (s : State) : Host.Outcome State Fault Refusal :=
  .next (s.uopPlain u (fun r => r.advB (u.f 55 2) (bits u.arg 0 32)))

/-- `LOOPU` (R222): a fifth push is `MICROCODE` (R223). -/
def execUopLoopu (u : UopArg) (s : State) : Host.Outcome State Fault Refusal :=
  .next (
    match s.evRoutine with
    | none => s
    | some r =>
      if 4 ≤ r.loops.length then s.killRoutine (coreOf r.n) r (r.trap .microcode 0)
      else s.uopDone { r with loops := (r.uw + 1, r.loopCount u) :: r.loops } u.le 1)

/-- `ACC` (R222). -/
def execUopAcc (u : UopArg) (s : State) : Host.Outcome State Fault Refusal :=
  .next (s.uopPlain u (fun r => { r with t := if u.b 57 then r.t + 1 else r.tb + u.f 0 16, kstep := 0 }))

/-- A cleared tile. -/
def Core.clearTile (d : Core) (t : Nat) : Core :=
  { d with acc := d.acc.filter (fun e => e.1 / 32 != t) }

/-- `CLR` (R222). -/
def execUopClr (u : UopArg) (s : State) : Host.Outcome State Fault Refusal :=
  .next (s.uopPipe (fun r => match s.tileTrap r with | some t => .stop t | none => .ok s r ()) (fun s r _ =>
    (s.onCore (coreOf r.n) (fun d => d.clearTile r.t)).uopDone r u.le 1))

/-- `DRN` (R222): 32 cycles; the rows done before a pause stay done. PS moves with Q (log 112). -/
def execUopDrn (u : UopArg) (s : State) : Host.Outcome State Fault Refusal :=
  .next (s.uopPipe (fun r => s.drainPipe r (u.b 57)) (fun s r n =>
    if r.drow < 32 then s.setRoutine (coreOf r.n) { r with busy := n }
    else
      s.uopDone (r.drained u) u.le n))

/-- `PROV` (R222). -/
def execUopProv (u : UopArg) (s : State) : Host.Outcome State Fault Refusal :=
  .next (s.uopPlain u (fun r => { r with provOn := u.b 57 }))

/-- The next window of a core that begins after a cycle (R199). -/
def nextWindow (fused : Bool) (k cyc : Nat) : Nat :=
  let w := cyc / 4 + 1
  if fused then 4 * w else if w % 2 = k % 2 then 4 * w else 4 * w + 4

/-- `WIN` (R222). -/
def execUopWin (u : UopArg) (s : State) : Host.Outcome State Fault Refusal :=
  .next (s.uopPlain u (fun r =>
    { r with winAt := nextWindow (s.arr (arrayOf (coreOf r.n))).mode (coreOf r.n) s.cycle }))

/-- `BPIP` (R222, R223). -/
def execUopBpip (u : UopArg) (s : State) : Host.Outcome State Fault Refusal :=
  .next (
    let a := u.f 54 4
    let b := u.f 50 4
    let ok := fun (p : Nat) => decide (p = 0 ∨ (2 ≤ p ∧ p ≤ 8))
    s.uopPipe (fun r => if ok a && ok b then .ok s r () else .stop (r.trap .microcode 0)) (fun s r _ =>
      s.uopDone { r with plA := if a = 0 then r.plA else a, plB := if b = 0 then r.plB else b } u.le 1))

/-- `TRN` (R222). -/
def execUopTrn (u : UopArg) (s : State) : Host.Outcome State Fault Refusal :=
  .next (s.uopPlain u (fun r => { r with kmA := u.b 57, kmB := u.b 56 }))

/-- `SCL` (R222). -/
def execUopScl (u : UopArg) (s : State) : Host.Outcome State Fault Refusal :=
  .next (s.uopPlain u (fun r => { r with scA := u.b 57, scB := u.b 56 }))

/-- `ARR` (R222): an arrival now. -/
def execUopArr (u : UopArg) (s : State) : Host.Outcome State Fault Refusal :=
  .next (
    match s.evRoutine with
    | none => s
    | some r => (s.toBarrier r.n 5 r.ba (u.f 54 4) none).uopDone r u.le 1)

/-- `END` (R222): the routine ends, and retires by R207; with LE = 1 too, whatever the micro-loop stack holds. DESIGN CHOICE
(log 116). -/
def execUopEnd (_u : UopArg) (s : State) : Host.Outcome State Fault Refusal :=
  .next (
    match s.evRoutine with
    | none => s
    | some r => s.setRoutine (coreOf r.n) { r with ended := true, busy := 1 })

/-! ### Starting -/

/-- The routine that may run on a core's array now (R201): the head of its queue, in `FUSED` of both queues. -/
def State.arrayHead (s : State) (k : Nat) : Option Routine :=
  let here := (s.routinesAt k).head?
  if (s.arr (arrayOf k)).mode then
    let k2 := if k % 2 = 0 then k + 1 else k - 1
    match here, (s.routinesAt k2).head? with
    | some r, some q => if q.ord < r.ord then none else some r
    | r, none => r
    | none, some _ => none
  else here

/-- The cycle is an owned cycle of a core (R199). `frozen`: the core is frozen in it. In `FUSED` a freeze of a member core does not
stop the array: R20 and R199 speak of a frozen owner of windows only. DESIGN CHOICE (log 87). -/
def State.ownedCycle (s : State) (k : Nat) (frozen : Bool) : Bool :=
  (s.arr (arrayOf k)).mode || (s.cycle / 4 % 2 == k % 2 && !frozen)

/-- What the start of a routine does: `load`, `pack` and `mzero` are whole, with an array cycle for each tile of
`mzero` (R208). -/
def State.startPipe (s : State) (r : Routine) : Pipe Unit :=
  let r1 := r.begin
  match r.op with
  | 0 => if r.std && decide (6 ≤ r.idx) then (s.wholePipe r1).bind (fun s r _ => .ok s { r with ended := true, busy := 1 } ())
    else .ok s r1 ()
  | _ => .ok (s.onCore (coreOf r.n) (fun d => (upTo r.t0 (r.mt * r.nt)).foldl Core.clearTile d))
      { r1 with ended := true, busy := r.mt * r.nt } ()

/-- ROUTINE_START (R201): `ev` names the core and the routine. -/
def execRoutineStart (s : State) : Host.Outcome State Fault Refusal :=
  .next (s.uopPipe (fun r => s.startPipe r) (fun s r _ => s.setRoutine (coreOf r.n) r))

/-! ### Routine packs (R224) -/

/-- `n` bytes at an address through the engines' copy of the table. -/
def packBytes (s : State) (r : Routine) : Nat → Nat → Pipe (List Byte)
  | _, 0 => .ok s r []
  | ea, n + 1 =>
    (s.pipeRead r 3 ea 1).bind (fun _ _ x =>
      match packBytes s r (ea + 1) n with
      | .ok _ _ xs => .ok s r (x.map (fun b => b.1) ++ xs)
      | y => y)

/-- The bits that a microword's operand may use (R222), by UOP. -/
def uopMask (op : Nat) : Nat :=
  match op with
  | 1 => 2 ^ 57 + 2 ^ 56
  | 2 => 3 * 2 ^ 55 + (2 ^ 32 - 1)
  | 3 => 3 * 2 ^ 55 + (2 ^ 32 - 1)
  | 4 => 2 ^ 57 + 7 * 2 ^ 48 + 63 * 2 ^ 40 + (2 ^ 24 - 1)
  | 5 => 2 ^ 57 + (2 ^ 16 - 1)
  | 7 => 2 ^ 57 + 3 * 2 ^ 55
  | 8 => 2 ^ 57
  | 10 => 255 * 2 ^ 50
  | 11 => 2 ^ 57 + 2 ^ 56
  | 12 => 2 ^ 57 + 2 ^ 56
  | 13 => 15 * 2 ^ 54
  | _ => 0

def goodUop (w : Word) : Bool :=
  let op := (bits w 59 5).toNat
  decide (op ≤ 14) && (bits w 0 58).toNat &&& uopMask op == (bits w 0 58).toNat &&
    !(op == 7 && decide ((bits w 55 2).toNat = 3))

/-- The layout of the first 64 bytes of a pack. -/
def goodPack (h : List Byte) : Bool :=
  let at' := fun (o n : Nat) => leBytes ((h.drop o).take n)
  at' 8 4 == 0x50525A4B && decide (1 ≤ at' 12 2 ∧ at' 12 2 ≤ 4096) && decide (at' 14 1 ≤ 63) && decide (at' 15 1 ≤ 1) &&
    at' 16 48 == 0

/-- The calls of an array's cores that have been issued: queued, or held in a larder (R225). -/
def State.callsAt (s : State) (ar : Nat) : List Routine :=
  [2 * ar, 2 * ar + 1].flatMap (fun k => (s.core k).queue) ++
    (s.ctxs.filter (fun e => arrayOf (coreOf e.1) == ar)).flatMap (fun e => e.2.larder.filterMap (fun x =>
      match x.op with | .routine r => if x.dead then none else some r | _ => none))

/-- The words of the store in use: installed routines, and those that issued calls run (R225). -/
def State.wordsUsed (s : State) (ar : Nat) : List (Nat × Nat) :=
  let of := fun (e : Nat) => (e / 4096 % 4096, e % 4096 + 1)
  ((s.arr ar).index.filterMap (fun e => if e.2.getLsbD 31 then some (of e.2.toNat) else none)) ++
  (s.callsAt ar).filterMap (fun r => if r.op = 0 && !r.std then some (of r.pack) else none)

/-- The lowest place with room for `c` words, at the front of the store or behind a run in use (log 16, DESIGN CHOICE). -/
def findSpace (used : List (Nat × Nat)) (c : Nat) : Option Nat :=
  let ok := fun (a : Nat) => decide (a + c ≤ 4096) && used.all (fun u => !decide (a < u.1 + u.2 ∧ u.1 < a + c))
  (0 :: used.map (fun u => u.1 + u.2)).foldl (fun b a =>
    if ok a && (match b with | some x => decide (a < x) | none => true) then some a else b) none

/-- The words written into the store from a place on. -/
def storeWords (m : TMap Word) : Nat → List Word → TMap Word
  | _, [] => m
  | a, w :: l => storeWords (mput m a w) (a + 1) l

/-- The outcome of a pack whose layout is good (R224): its code, and the array after it. Of several failures the first of 2 (layout), 1, 2
(words), 4, 3 is reported. DESIGN CHOICE (log 117). -/
def State.packOutcome (s : State) (r : Routine) (head words sig1 sig2 : List Byte) : Nat × Arr :=
  let ar := arrayOf (coreOf r.n)
  let a := s.arr ar
  let msg := head.drop 8 ++ words
  let ws := (chunks 8 words).map (fun b => BitVec.ofNat 64 (leBytes b))
  let std := leBytes ((head.drop 15).take 1) == 1
  let c := ws.length
  if !(Config.ed25519 msg sig1 && Config.mlDsa65 msg sig2) then (1, a)
  else if !ws.all goodUop then (2, a)
  else if r.idx < 32 && !std then (4, a)
  else
    match findSpace (s.wordsUsed ar) c with
    | none => (3, a)
    | some p =>
      let e := 2 ^ 31 + (bbit std).toNat * 2 ^ 30 + leBytes ((head.drop 14).take 1) % 64 * 2 ^ 24 + p * 2 ^ 12 + (c - 1)
      (0, { a with store := storeWords a.store p ws, index := mput a.index r.idx (BitVec.ofNat 32 e) })

/-- What the command processor does with a pack, up to the status word's place. DEDUCED (log 56). -/
def State.packPipe (s : State) (r : Routine) : Pipe (Nat × Arr × Tgt) :=
  (packBytes s r r.pack 64).bind (fun s r head =>
  (s.pipeWay r 3 r.pack 8 true).bind (fun s r t =>
    if !goodPack head then .ok s r (2, s.arr (arrayOf (coreOf r.n)), t)
    else
      let c := leBytes ((head.drop 12).take 2)
      (packBytes s r (r.pack + 64) (8 * c)).bind (fun s r words =>
      (packBytes s r (r.pack + 64 + 8 * c) 64).bind (fun s r sig1 =>
      (packBytes s r (r.pack + 128 + 8 * c) 3309).bind (fun s r sig2 =>
        let z := s.packOutcome r head words sig1 sig2
        .ok s r (z.1, z.2, t))))))

/-- PACK_INSTALL (R224): the index entry, then the status word; the call retires by R207. -/
def execPackInstall (s : State) : Host.Outcome State Fault Refusal :=
  .next (s.uopPipe (fun r => s.packPipe { r with begun := true }) (fun s r z =>
    let s1 := s.setArr (arrayOf (coreOf r.n)) z.2.1
    let s2 := s1.putAll r [⟨z.2.2, toBytes (2 ^ 63 + z.1) 8, false⟩]
    s2.setRoutine (coreOf r.n) { r with ended := true, busy := 1 }))

/-! ### Pauses, retirement, modes -/

/-- What a routine needs next. -/
def State.nextPipe (s : State) (r : Routine) : Pipe Unit :=
  let drop := fun {α : Type} (x : Pipe α) => x.bind (fun s r _ => Pipe.ok s r ())
  if r.ended then .ok s r ()
  else if r.op = 2 then drop (s.packPipe r)
  else if !r.begun then s.startPipe r
  else
    match uopOf (r.prog.getD r.uw 0) with
    | some (.uopStep _) => s.stepPipe r
    | some (.uopDrn u) => drop (s.drainPipe r (u.b 57))
    | _ => .ok s r ()

/-- ROUTINE_PAUSE (R212, R214): the fault is posted, and the routine waits for it. -/
def execRoutinePause (s : State) : Host.Outcome State Fault Refusal :=
  .next (
    match s.evRoutine with
    | none => s
    | some r =>
      match s.nextPipe r with
      | .page kind ea wr =>
        let z := s.postFault kind r.n 2 0 wr ea r.ba (r.row % 2 ^ 32)
        z.1.setRoutine (coreOf r.n) { r with waitF := some z.2, prov := r.prov ||| 0x0200000000000000 }
      | _ => s)

/-- The record of a call (R217). -/
def Routine.record (r : Routine) : Word := r.prov ||| BitVec.ofNat 64 (r.ma * 2 ^ 53 + r.mb * 2 ^ 49)

/-- ROUTINE_RETIRE (R207, R218). -/
def execRoutineRetire (s : State) : Host.Outcome State Fault Refusal :=
  .next (
    match s.evRoutine with
    | none => s
    | some r =>
      let s1 := s.dropRoutine (coreOf r.n) r
      let s2 := if r.op = 0 then s1.onCtx r.n (fun c => { c with prov := r.record }) else s1
      match r.arr with
      | some b => s2.toBarrier r.n 5 r.ba b none
      | none => s2)

/-- The pair of an array is fused (R200). -/
def State.pairFused (s : State) (ar : Nat) : Bool :=
  decide (1 < (s.ctx (4 * ar)).fuseW ∧ 1 < (s.ctx (4 * ar + 2)).fuseW)

/-- The mode that an array goes to: what FEN was when its pair fused, while it is fused (R200). -/
def State.modeGoal (s : State) (ar : Nat) : Bool := (s.arr ar).goal && s.pairFused ar

/-- ARRAY_MODE_CHANGE (R200): `ev.core` names the array. -/
def execArrayModeChange (s : State) : Host.Outcome State Fault Refusal :=
  .next (
    let ar := s.ev.core
    s.setArr ar { s.arr ar with mode := s.modeGoal ar })

end Sys2Proof.Machine
end

