-- ==== Sys2Proof/Machine/Link.lean ====
section
/-! DEFINITION. The link instructions and the link engine (R326 to R335): scheduled sends, receive slots, reductions, and
flits that reach a scratchpad. -/

namespace Sys2Proof

/-- The slot and the count of a link instruction (R327). -/
def QOp.slotNo (o : QOp) : Nat := o.xs.toNat % 8
def QOp.units (o : QOp) : Nat := o.x.toNat + 1

end Sys2Proof

namespace Sys2Proof.Machine

/-! ### `ltime` -/

/-- `ltime` (R326): the tick count of the cycle, latency 2; it waits for its guard. -/
def execLtime (h : Hdr) (o : QOp) (s : State) : Host.Outcome State Fault Refusal :=
  .next (s.waitingN h false (fun k =>
    (s.deliverS k o.d.toNat 2 [([], { v := s.mod.ticks })]).arriveLat k h 2))

/-! ### Issue -/

/-- The kind of the entry that holds an address, whether it is present, and whether it may be written. -/
def State.entryAt (s : State) (ea : Word) : Option TEntry := tLookup s.cur.table.core ea.toNat

/-- The trap of one combination of `lsend`, in the order of R330; its bases first (R353). -/
def State.sendTrap (s : State) (src dst : SVal) : Option TrapRec :=
  match firstTrap [s.useTrap src src.v 2 false, s.useTrap dst dst.v 2 false] with
  | some t => some t
  | none =>
    if src.v.toNat % 64 ≠ 0 then some (s.trapRec .misaligned src.v 0)
    else if dst.v.toNat % 64 ≠ 0 then some (s.trapRec .misaligned dst.v 0)
    else
      match s.entryAt src.v, s.entryAt dst.v with
      | some e, some f =>
        if (e.tgt (coreOf s.latch.n) src.v.toNat).place ≠ 0 ∨ f.kind ≠ 5 then some (s.trapRec .linkArgs 0 0)
        else if !e.p then some (s.trapRec .pageFault src.v 0)
        else if !f.w then some { s.trapRec .noWrite dst.v 0 with wr := true }
        else none
      | _, _ => some (s.trapRec .linkArgs 0 0)

/-- The command of one combination. -/
def State.sendCmd (s : State) (h : Hdr) (o : QOp) (tag : Tag) (src dst tk : SVal) : LinkCmd :=
  { id := s.uid, n := s.latch.n, op := 0, dst := dst.v.toNat, src := src.v.toNat, tick := tk.v, slot := o.slotNo,
    flits := o.units, arr := if h.arr then some h.bn.toNat else none, ba := s.latch.ba, scy := s.latch.scy,
    after := s.cur.fenced 3, tag := tag }

/-- The combinations of a send, each queued or held (R126). -/
def State.sendAll (s : State) (h : Hdr) (o : QOp) (k : Cond2) : List (Tag × (SVal × SVal) × SVal) → State
  | [] => s
  | (t, (src, dst), tk) :: l =>
    let u := tagAnd k.held t
    let c := s.sendCmd h o u src dst tk
    (if u.isEmpty then { s.enqLink c with uid := s.uid + 1 }
     else s.pushHeld { id := 0, tag := u, op := .link c }).sendAll h o k l

/-- `lsend` (R330). -/
def execLsend (h : Hdr) (o : QOp) (s : State) : Host.Outcome State Fault Refusal :=
  .next (s.guarded h (fun k =>
    let ts := tagPair (tagPair (s.aSrc o.sa.toNat) (s.aSrc o.da.toNat)) (s.sSrc o.d.toNat)
    let traps := ts.filterMap (fun z => (s.sendTrap z.2.1.1 z.2.1.2).map (fun t => (tagAnd k.held z.1, t)))
    let good := ts.filter (fun z => (s.sendTrap z.2.1.1 z.2.1.2).isNone)
    let now := good.any (fun z => (tagAnd k.held z.1).isEmpty)
    s.withTraps traps (good.filter (fun z => !(tagAnd k.held z.1).isEmpty)).length (fun s =>
      if !(s.cur.fenced 3).isEmpty &&
          good.any (fun z => s.near s.latch.n (s.sendCmd h o [] z.2.1.1 z.2.1.2 z.2.2).spans) then s.stat .wait
      else if now && !s.linkRoom { id := 0, n := s.latch.n, op := 0 } then s.stat .wait else s.sendAll h o k good)))

/-- A receive takes its porch place and its queue entry (R331, R332), or waits for them. -/
def State.receive (s : State) (h : Hdr) (o : QOp) (op dst src : Nat) (tick : Word) (timed : Bool) : State :=
  let due := s.latch.ic + max 1 o.lof.toNat
  let c : LinkCmd := { id := s.uid, n := s.latch.n, op := op, dst := dst, src := src, tick := tick, slot := o.slotNo,
                       flits := o.units, fmt := s.cur.fmtAt s.latch.ic, timed := timed, dueAt := due,
                       arr := if h.arr then some h.bn.toNat else none, ba := s.latch.ba, scy := s.latch.scy,
                       after := s.cur.fenced 3 }
  if !(s.core (coreOf s.latch.n)).owns s.latch.n o.slotNo then s.stat (.trap (s.trapRec .linkArgs 0 0))
  else if !s.porchRoom 1 || !s.linkRoom c || (!(s.cur.fenced 3).isEmpty && s.near s.latch.n c.spans) then s.stat .wait
  else
    { (s.onCore (coreOf c.n) (fun d => { d with porch := d.porch ++ [⟨c.id, c.n, due, false, false, false, []⟩] })).enqLink c with
      uid := s.uid + 1 }

/-- `lrecv` (R331): it waits for its guard and its source. -/
def execLrecv (h : Hdr) (o : QOp) (s : State) : Host.Outcome State Fault Refusal :=
  .next (
    let d := s.sSrc o.d.toNat
    s.waiting h [d] (s.receive h o 1 0 0 (one d).v ((one d).v != 0)))

/-- A block of `lred` lies in own scratch: a KIND 1 entry, or one of KIND 2 that names this core (R136, R332). -/
def State.redPlace (s : State) (a : SVal) : Option TrapRec :=
  match s.useTrap a a.v 2 false with
  | some t => some t
  | none =>
    match s.entryAt a.v with
    | some e =>
      if a.v.toNat % 64 ≠ 0 || (e.tgt (coreOf s.latch.n) a.v.toNat).place ≠ 0 then some (s.trapRec .linkArgs 0 0)
      else if !e.p then some (s.trapRec .pageFault a.v 0) else none
    | none => some (s.trapRec .linkArgs 0 0)

/-- `lred` (R332): it waits for its guard and its bases. -/
def execLred (h : Hdr) (o : QOp) (s : State) : Host.Outcome State Fault Refusal :=
  .next (
    let d := s.aSrc o.da.toNat
    let a := s.aSrc o.sa.toNat
    s.waiting h [d, a] (
      let md := (s.cur.fmtAt s.latch.ic).toNat / 2 ^ 16 % 16
      match firstTrap [s.redPlace (one d), s.redPlace (one a)] with
      | some t => s.stat (.trap t)
      | none =>
        if md ≠ 4 ∧ md ≠ 5 ∧ md ≠ 10 then s.stat (.trap (s.trapRec .linkArgs 0 0))
        else s.receive h o 2 (one d).v.toNat (one a).v.toNat 0 false))

/-! ### The engine's queue -/

def State.linkCmd? (s : State) (w id : Nat) : Option LinkCmd := (s.wing w).link.find? (fun c => c.id == id)
def State.setLink (s : State) (c : LinkCmd) : State :=
  let w := wingOf c.n
  s.setWing w { s.wing w with link := (s.wing w).link.map (fun x => if x.id == c.id then c else x) }
def State.dropLink (s : State) (c : LinkCmd) : State :=
  let w := wingOf c.n
  (s.setWing w { s.wing w with link := (s.wing w).link.filter (fun x => x.id != c.id) }).onCtx c.n (fun x => x.performed c.id)

/-- A trap after issue (R330): in the issuing context, naming the command's bundle. -/
def LinkCmd.trap (c : LinkCmd) (code : TrapCode) (ea use : Nat) : TrapRec := engTrap code 6 c.ba c.scy ea use

/-- A link command retires: its arrival, and its porch place. -/
def State.linkGone (s : State) (c : LinkCmd) : State :=
  let s1 := (s.dropLink c).onCore (coreOf c.n) (fun d => { d with porch := d.porch.filter (fun e => e.id != c.id) })
  match c.arr with
  | some b => s1.toBarrier c.n 6 c.ba b none
  | none => s1

/-- What an engine access of a link command meets. -/
inductive LinkWay (α : Type) where
  | ok (x : α)
  | stop (t : TrapRec)
  | page (kind ea : Nat) (wr : Bool)

/-- The targets of flits at 64-byte steps from an address. -/
def State.flitWays (s : State) (c : LinkCmd) (wr : Bool) (ea : Nat) : Nat → LinkWay (List (Tgt × Nat))
  | 0 => .ok []
  | n + 1 =>
    match s.engWay c.n (addr64 ea) 64 wr with
    | .trap code a => if code = .pageFault then .page 0x30 a wr else .stop (c.trap code a 0)
    | .chain _ _ => .page 0x31 (addr64 ea) wr
    | .ok t a _ =>
      match s.flitWays c wr (ea + 64) n with
      | .ok l => .ok ((t, a) :: l)
      | x => x

/-! ### Sends -/

/-- Whether a destination is a scratchpad window that takes a flit (R324, R330). -/
def State.flitPlace (s : State) (t : Tgt) : Bool :=
  t.place == 4 && isScratch (t.home % 2 ^ 48) && !s.refused t.home 64 true

/-- The flits of a send, read in one pass. -/
def State.flitsOf (s : State) (c : LinkCmd) (i : Nat) : List (Tgt × Nat) → List (Tgt × Nat) → List (Nat × Flit)
  | (a, _) :: l, (b, _) :: m =>
    let ad := b.home % 2 ^ 48
    (b.home / 2 ^ 48 - 1, { core := scratchCore ad, offset := scratchOff ad, bytes := s.bytesAt (s.ownHome a.home) 64,
                            poison := [], slot := c.slot, send := some (c.id * 512 + i) }) :: s.flitsOf c (i + 1) l m
  | _, _ => []

/-- Reads beyond the scratchpad are recorded (R147), and correctable errors found. -/
def State.readSource (s : State) (c : LinkCmd) : List (Tgt × Nat) → State
  | [] => s
  | (t, _) :: l => ((s.recordOor c.n false t.place t.core t.off 64 c.ba).correct (s.ownHome t.home) 64 none).readSource c l

/-- The flits whose destinations take them, with their indices (R324, R330). -/
def State.flitsTaken (s : State) (ys : List (Tgt × Nat)) (fs : List (Nat × Flit)) : List (Nat × (Nat × Flit)) :=
  ((upTo 0 fs.length).zip (ys.zip fs)).filterMap (fun z => if s.flitPlace z.2.1.1 then some (z.1, z.2.2) else none)

/-- The departure of a send (R330): nothing is sent where a byte is poisoned. Each flit goes by itself: a home refuses the ones that are
not for a scratchpad window (R324), the first of which is reported; the send then makes no arrival. -/
def State.depart (s : State) (c : LinkCmd) : State :=
  let stop := fun (t : TrapRec) => (s.dropLink c).engineTrap c.n t
  match s.flitWays c false c.src c.flits, s.flitWays c true c.dst c.flits with
  | .stop t, _ => stop t
  | _, .stop t => stop t
  | .page kind ea wr, _ =>
    let z := s.postFault kind c.n 4 0 wr ea c.ba 0
    z.1.setLink { c with waitF := some z.2 }
  | _, .page kind ea wr =>
    let z := s.postFault kind c.n 4 0 wr ea c.ba 0
    z.1.setLink { c with waitF := some z.2 }
  | .ok xs, .ok ys =>
    match xs.find? (fun x => (s.badAt (s.ownHome x.1.home) 64).any (fun b => b)) with
    | some x => stop (c.trap .poison x.2 6)
    | none =>
      let fs : List (Nat × (Nat × Flit)) := s.flitsTaken ys (s.flitsOf c 0 xs ys)
      let s1 := s.readSource c xs
      let s2 := { s1 with wire := s1.wire ++ fs.map Prod.snd }
      let c1 := { c with gone := true, waitF := none, sent := fs.map Prod.fst }
      match ys.find? (fun y => !s.flitPlace y.1) with
      | some y => (s2.setLink { c1 with arr := none }).engineTrap c.n (c.trap .remoteError y.2 0)
      | none => s2.setLink c1

/-- LSEND_DEPARTURE (R330): `ev` names the wing (`core`) and the command. -/
def execLsendDeparture (s : State) : Host.Outcome State Fault Refusal :=
  .next (
    match s.linkCmd? s.ev.core s.ev.id with
    | some c => if c.op = 0 && !c.gone then s.depart c else s
    | none => s)

/-- LSEND_RETIRE (R330): every flit has been written at the destination. -/
def execLsendRetire (s : State) : Host.Outcome State Fault Refusal :=
  .next (
    match s.linkCmd? s.ev.core s.ev.id with
    | some c => if c.op = 0 && c.gone && c.sent.isEmpty then s.linkGone c else s
    | none => s)

/-! ### Reductions (R332) -/

/-- 512 elements of a unit from its 512 bytes, each with its poison: FP8 in order, BPI in planes (R57). -/
def unitElems (md : Nat) (bs : List (Byte × Bool)) : List (Ex × Bool) :=
  if md = 10 then
    let pl := chunks 64 bs
    (upTo 0 512).map (fun j => let z := planeElem 8 pl j; (exOfInt z.1, z.2))
  else bs.map (fun b => (exOf md b.1.toNat, b.2))

/-- The scale byte of element `j`, with its poison, from the scale line. -/
def unitScale (md j : Nat) (line : List (Byte × Bool)) : Nat × Bool :=
  let z := line.getD (if md = 10 then 0 else j / 32) (0, false)
  (z.1.toNat, z.2)

/-- The sums t[j] of one unit, with poison. -/
def unitSums (md : Nat) (a b : List (Byte × Bool)) : List (Ex × Bool) :=
  let line := fun (u : List (Byte × Bool)) => u.drop 512
  ((upTo 0 512).zip ((unitElems md (a.take 512)).zip (unitElems md (b.take 512)))).map (fun z =>
    let sa := unitScale md z.1 (line a)
    let sb := unitScale md z.1 (line b)
    let x := z.2.1.1.scaleUp sa.1
    let y := z.2.2.1.scaleUp sb.1
    (fp32.dec (fp32.round 0 false (x.add 0 y).1).1, z.2.1.2 || z.2.2.2 || sa.2 || sb.2))

/-- One element of the result, from its block's scale. -/
def redElem (md rm e : Nat) (t : Ex) : Nat :=
  if md = 10 then (if e = 0xFF then 0 else intEnc 8 (toBpi 8 rm (t.scaleDown e)))
  else
    match fmtOf md with
    | some f => if e = 0xFF then f.nan else (f.round rm true (t.scaleDown e)).1
    | none => 0

/-- The bytes of a unit's result: elements, then the scale line (R332). -/
def unitResult (md rm : Nat) (ts : List (Ex × Bool)) : List (Byte × Bool) :=
  let blk := if md = 10 then 512 else 32
  let bs := chunks blk ts
  let out := bs.map (fun b =>
    let e := blockScale (b.map (fun z => z.1)) md
    (e, b.map (fun z => (redElem md rm e z.1, z.2)), b.any (fun z => z.2)))
  let es := (out.map (fun z => z.2.1)).flatten
  let elems := if md = 10 then (upTo 0 8).flatMap (fun k => packPlane (7 - k) es)
    else es.map (fun z => (BitVec.ofNat 8 z.1, z.2))
  let sc := out.map (fun z => (BitVec.ofNat 8 z.1, z.2.2))
  elems ++ sc ++ List.replicate (64 - sc.length) (0, false)

/-- The bytes at targets of 64-byte flits. -/
def State.flitBytes (s : State) (ts : List (Tgt × Nat)) : List (Byte × Bool) :=
  ts.flatMap (fun t => (s.bytesAt t.1.home 64).zip (s.badAt t.1.home 64))

/-- A link write's rank at a port (R145). -/
def linkRank (wing : Nat) : Nat := 1000 + wing

/-- Flits of a result written at their targets. -/
def State.writeFlits (s : State) (c : LinkCmd) : List (Tgt × Nat) → List (Byte × Bool) → State
  | [], _ => s
  | (t, _) :: l, bs =>
    let x := bs.take 64
    (s.engWrite c.n c.id (linkRank (wingOf c.n)) t.place t.home t.off c.ba (x.map (fun b => b.1)) (x.map (fun b => b.2))).writeFlits
      c l (bs.drop 64)

/-- A reduction: units in ascending order (R332). -/
def State.reduce (s : State) (c : LinkCmd) : LinkWay State :=
  let n := 9 * c.flits
  match s.flitWays c false c.src n, s.flitWays c true c.dst n with
  | .stop t, _ => .stop t
  | _, .stop t => .stop t
  | .page k ea wr, _ => .page k ea wr
  | _, .page k ea wr => .page k ea wr
  | .ok xs, .ok ys =>
    let md := (bits c.fmt 16 4).toNat
    let rm := (bits c.fmt 30 2).toNat
    let us := (chunks 576 (s.flitBytes xs)).zip (chunks 576 (s.flitBytes ys))
    let out := us.flatMap (fun u => unitResult md rm (unitSums md u.1 u.2))
    .ok (((s.readSource c xs).readSource c ys).writeFlits c ys out)

/-! ### Counting (R331) -/

/-- The tick at which the last flit that a receive counts was written. -/
def State.lastTick (s : State) (c : LinkCmd) : Word :=
  let ts := mget [] (s.core (coreOf c.n)).flitT c.slot
  ts.getD (ts.length - s.flitsFree (coreOf c.n) c.slot + c.need - 1) 0

/-- CONSUMED rises (R328), and `LNKS`.RLATE where the last flit came after its tick (R331). -/
def State.consume (s : State) (c : LinkCmd) : State :=
  let late := c.timed && decide (c.tick.toNat < (s.lastTick c).toNat)
  let s1 := s.onCore (coreOf c.n) (fun d =>
    { d with consumed := mput d.consumed c.slot (mget 0 d.consumed c.slot + BitVec.ofNat 32 c.need) })
  if late then s1.onCtx c.n (Ctx.lnksCount 0x1000000000000)
  else s1

/-- Everything that a command waits for has performed (R161). -/
def State.allDone (s : State) (n : Nat) (ids : List Nat) : Bool := ids.all (fun i => !(s.ctx n).pendingOp i)

/-- The rank of flits that are written at a port (R145). DESIGN CHOICE (log 108). -/
def flitRank : Nat := 900

/-- The flits of a slot whose writes have performed, and that no receive has counted. -/
def State.flitsReady (s : State) (k slot : Nat) : Nat :=
  s.flitsFree k slot - (s.portW.filter (fun w => w.rank == flitRank && scratchCore w.acc.home == k && w.acc.cls == slot)).length

/-- A receive counts its flits, if they are there; a reduction only with `red` (R331, R332). -/
def State.countOne (s : State) (red : Bool) (c : LinkCmd) : Option State :=
  if c.gone then some s
  else if s.flitsReady (coreOf c.n) c.slot < c.need || !s.allDone c.n c.after ||
      (match c.waitF with | some f => s.faultOpen f | none => false) then none
  else if c.op = 1 then some ((s.consume c).setLink { c with gone := true })
  else if !red then none
  else
    match s.reduce c with
    | .ok s1 => some ((s1.consume c).setLink { c with gone := true, waitF := none })
    | .stop t => some ((s.linkGone { c with arr := none }).engineTrap c.n t)
    | .page kind ea wr =>
      let z := s.postFault kind c.n 4 0 wr ea c.ba 0
      some (z.1.setLink { c with waitF := some z.2 })

/-- The receives of a slot count in issue order, up to and with the one named `id` (R331): whether that one is counted. -/
def State.countTo (s : State) (red : Bool) (id : Nat) : List LinkCmd → State × Bool
  | [] => (s, true)
  | c :: l =>
    if id < c.id then (s, true)
    else
      match s.countOne red c with
      | none => (s, false)
      | some s1 =>
        if (s1.linkCmd? (wingOf c.n) c.id).any (fun x => !x.gone) then (s1, false) else s1.countTo red id l

/-- The receives of the slot that a command names. -/
def State.slotRecvs (s : State) (c : LinkCmd) : List LinkCmd := (s.recvsOf c.n).filter (fun x => x.slot == c.slot)

/-- A receive at its due count (R331): it completes, or the core freezes. A reduction is made by its own event, and its whole
result has performed first (R332). DEDUCED (log 54). -/
def State.recvDue (s : State) (c : LinkCmd) : State :=
  let z := s.countTo false c.id (s.slotRecvs c)
  match z.1.linkCmd? (wingOf c.n) c.id with
  | none => z.1
  | some c1 =>
    if z.2 && !z.1.writing c.id then z.1.linkGone c1
    else z.1.onCore (coreOf c.n) (fun d => { d with late := some (c.n, c.id) })

/-- The receives due by a count, in order; a freeze stops there. -/
def State.recvsDue (s : State) (n ic : Nat) : List LinkCmd → State
  | [] => s
  | c :: l =>
    if ic < c.dueAt then s.recvsDue n ic l
    else
      let s1 := s.recvDue c
      if (s1.core (coreOf n)).late.isSome then s1 else s1.recvsDue n ic l

/-- A freeze on a receive is looked at again at the end of a cycle (R331). -/
def State.lateRecv (s : State) (k : Nat) : State :=
  match (s.core k).late with
  | some (n, id) =>
    (match s.linkCmd? (wingOf n) id with
      | some c => if c.op = 0 then s else (s.onCore k (fun d => { d with late := none })).recvDue c
      | none => s)
  | none => s

/-- A receive of a context that has halted completes as soon as its flits are there: no bundle of the context stands at its due
count any more (R110). DEDUCED (log 94). -/
def State.haltedRecv (s : State) (c : LinkCmd) : State :=
  if c.op = 0 || (s.ctx c.n).mode != .halted then s
  else
    let z := s.countTo false c.id (s.slotRecvs c)
    match z.1.linkCmd? (wingOf c.n) c.id with
    | some c1 => if z.2 && !z.1.writing c.id then z.1.linkGone c1 else s
    | none => s

def State.haltedRecvs (s : State) : List LinkCmd → State
  | [] => s
  | c :: l => (s.haltedRecv c).haltedRecvs l

/-- LRED_REDUCE (R332): a reduction whose flits are there, and that is next on its slot. -/
def execLredReduce (s : State) : Host.Outcome State Fault Refusal :=
  .next (
    match s.linkCmd? s.ev.core s.ev.id with
    | none => s
    | some c => if c.op = 2 && !c.gone then (s.countTo true c.id (s.slotRecvs c)).1 else s)

/-! ### Flits (R328) -/

/-- The owner of a receive slot of a core. -/
def State.slotOwner (s : State) (k slot : Nat) : Nat :=
  if (s.core k).ctxn = 1 then 2 * k else if slot < 4 then 2 * k else 2 * k + 1

/-- A flit is written and counted in this cycle. -/
def State.flitIn (s : State) (f : Flit) : State :=
  let hm := scratchHome f.core f.offset
  let a : Acc := { id := s.uid, n := 2 * f.core, kind := .store, seq := s.uid, place := 0, home := hm, off := f.offset,
                   size := f.bytes.length, data := f.bytes, cls := f.slot, dst := .engine,
                   ea0 := match f.send with | some x => x + 1 | none => 0 }
  let s1 := { s with uid := s.uid + 1 }.atPort flitRank a f.poison
  s1.onCore f.core (fun d => { d with
    arrivedN := mput d.arrivedN f.slot (mget 0 d.arrivedN f.slot + 1),
    flitT := mput d.flitT f.slot (mget [] d.flitT f.slot ++ [s.mod.ticks]) })

/-- The place of a switched-out context of number `n`, if any (log 34, DESIGN CHOICE). -/
def State.awayOf (s : State) (n : Nat) : Option Nat :=
  (s.ctxs.find? (fun e => decide (192 ≤ e.1) && e.1 % 192 == n && e.2.mode == .switchedOut)).map (fun e => e.1)

/-- The kernel whose send a flit of this module belongs to. -/
def State.flitKernel (s : State) (x : Nat) : Option Nat :=
  ((s.wings.flatMap (fun e => e.2.link)).find? (fun c => c.id == x / 512)).map (fun c => (s.ctx c.n).kernel)

/-- A flit is for the switched-out context of its place (R334): where no kernel has taken the place; where its send is of
that context's kernel; and one from outside where `away` says so (log 34, DESIGN CHOICE). -/
def State.flitAway (s : State) (f : Flit) (away : Bool) : Bool :=
  let n := s.slotOwner f.core f.slot
  match s.awayOf n with
  | none => false
  | some m => (s.ctx n).mode == .off ||
    (match f.send with
      | some x => s.flitKernel x == some (s.ctx m).kernel
      | none => away)

/-- A flit that reaches this module: held by the wing's link engine for a switched-out context (R334), else written. -/
def State.flitHere (s : State) (f : Flit) (away : Bool) : State :=
  if s.flitAway f away then
    let k := wingOf (2 * f.core)
    let w := s.wing k
    s.setWing k { w with kept := w.kept ++ [f] }
  else s.flitIn f

/-- FLIT_ARRIVAL (R328): `ev.flit`; for a flit of this module `ev.addr`, the node it goes to; for one from outside `ev.idx` 1 where
it is for the switched-out context of its place, and `ev.id` the node it comes from. Before READY, and beyond the scratchpad, the home
refuses it (R324, R398). -/
def execFlitArrival (s : State) : Host.Outcome State Fault Refusal :=
  .next (
    let f := s.ev.flit
    match f.send with
    | none =>
      if !s.mod.power then s
      else if s.mod.stage == 6 && f.core < 96 && s.inRange (scratchHome f.core (f.offset + 63)) then s.flitHere f (s.ev.idx == 1)
      else s.answer s.ev.id true []
    | some x =>
      if !s.wire.contains (s.ev.addr, f) then s
      else
        let s1 := { s with wire := s.wire.filter (fun w => w.2.send != some x) }
        if s.ev.addr = s.mod.node.toNat then s1.flitHere f false
        else { s1.flitSent x with mem := s1.mem.store (nodeHome s.ev.addr (scratchHome f.core f.offset)) f.bytes [] })

end Sys2Proof.Machine
end

