-- ==== Sys2Proof/Machine/Sort.lean ====
section
/-! DEFINITION. The N slot: the sort-and-sample unit (R261 to R277). -/

namespace Sys2Proof.Machine

/-! ### Keys and the cupboard -/

/-- The key image of an FP32 pattern (R262). -/
def keyOf (x : BitVec 32) : BitVec 32 :=
  if (fp32.dec x.toNat).isNan then 0
  else if x = 0x80000000 then 0x80000000
  else if x.getLsbD 31 then ~~~x else x ^^^ 0x80000000

/-- The inverse image: key 0 gives the canonical NaN (R262). -/
def keyVal (k : BitVec 32) : BitVec 32 :=
  if k = 0 then 0x7FC00000 else if k.getLsbD 31 then k ^^^ 0x80000000 else ~~~k

/-- The rank order (R263). -/
def Cand.before (e f : Cand) : Bool := f.key.ult e.key || (e.key == f.key && e.idx.ult f.idx)

/-- A candidate inserted in rank order, after its equals. -/
def candIns (x : Cand) : List Cand → List Cand
  | [] => [x]
  | y :: l => if x.before y then x :: y :: l else y :: candIns x l

/-- `nmerge` and `nmerge.p` as they apply (R263, R267). -/
def NUnit.merge (u : NUnit) (xs : List Cand) : NUnit :=
  let ys := xs.filter (fun x => !(x.key.ult u.thr))
  let all := ys.foldl (fun l x => candIns x l) u.cand
  { u with cand := all.take 64, ovf := u.ovf || (u.thr != 0 && decide (64 < all.length)) }

/-! ### Mass (R273) -/

def f32 (x : Nat × Option Ev) : BitVec 32 := BitVec.ofNat 32 x.1

/-- The weight of an FP32 value under a basis: two roundings, RNE. -/
def weight (m t v : BitVec 32) : BitVec 32 :=
  let d := ((fp32.dec v.toNat).add 0 (fp32.dec m.toNat).negate).1
  let y := (fp32.round 0 false (d.mul (fp32.dec t.toNat)).1).1
  if (fp32.dec y).isNan then 0 else f32 (eTrans 0 fp32 0 false y)

/-- Running sums with RNE (R273, R275). -/
def sums : BitVec 32 → List (BitVec 32) → List (BitVec 32)
  | _, [] => []
  | c, w :: ws => let c' := f32 (fp32.add 0 false c.toNat w.toNat); c' :: sums c' ws

def NUnit.weights (u : NUnit) : List (BitVec 32) := u.cand.map (fun e => weight u.massM u.massT (keyVal e.key))
def lastSum (cs : List (BitVec 32)) : BitVec 32 := cs.getLastD 0
def NUnit.bad (u : NUnit) : Bool := u.cand.any (fun e => e.bad)

/-- Positive and finite. -/
def goodMass (c : BitVec 32) : Bool :=
  match fp32.dec c.toNat with
  | .num neg m _ _ => !neg && m != 0
  | _ => false

/-- The first position whose sum satisfies a test; the number of sums where none does. -/
def firstAt (f : BitVec 32 → Bool) : List (BitVec 32) → Nat
  | [] => 0
  | c :: cs => if f c then 0 else 1 + firstAt f cs

/-- How many entries `nthr.p` keeps (R272). -/
def NUnit.prefix (u : NUnit) (p : BitVec 32) : Nat :=
  let cs := sums 0 u.weights
  let x := fp32.dec p.toNat
  let c := lastSum cs
  let n := u.cand.length
  if x.isNan || exLe x (.zero false) then min 1 n
  else if exLe (.num false 1 0 false) x then n
  else if !goodMass c then n
  else min n (firstAt (fun r => exLe (x.mul (fp32.dec c.toNat)).1 (fp32.dec r.toNat)) cs + 1)

/-! ### The random stream (R274) -/

/-- One Philox round of four 32-bit words, and its key. -/
def philoxRound (c : Nat × Nat × Nat × Nat) (k : Nat × Nat) : Nat × Nat × Nat × Nat :=
  let a := 0xCD9E8D57 * c.2.2.1
  let b := 0xD2511F53 * c.1
  (a / 2 ^ 32 ^^^ c.2.1 ^^^ k.1, a % 2 ^ 32, b / 2 ^ 32 ^^^ c.2.2.2 ^^^ k.2, b % 2 ^ 32)
def philoxGo : Nat → Nat × Nat × Nat × Nat → Nat × Nat → Nat × Nat × Nat × Nat
  | 0, c, _ => c
  | r + 1, c, k => philoxGo r (philoxRound c k) ((k.1 + 0x9E3779B9) % 2 ^ 32, (k.2 + 0xBB67AE85) % 2 ^ 32)
def philox (q n : Word) (j : Nat) : Nat × Nat × Nat × Nat :=
  philoxGo 10 (n.toNat % 2 ^ 32, n.toNat / 2 ^ 32, j, 0) (q.toNat % 2 ^ 32, q.toNat / 2 ^ 32)

/-- The draw u of a stream: x0[31:8] x 2^-24. -/
def drawU (q n : Word) (j : Nat) : Ex := .num false ((philox q n j).1 / 2 ^ 8) (-24) false

/-- The first position whose running sum exceeds u x C (R275). -/
def draw (u : Ex) (ws : List (BitVec 32)) : Nat :=
  let cs := sums 0 ws
  let c := lastSum cs
  if !goodMass c then 0
  else firstAt (fun r => exLt (u.mul (fp32.dec c.toNat)).1 (fp32.dec r.toNat)) cs

/-! ### The histogram store (R277) -/

/-- One element entered: the bin of byte L of its key, where its upper bits equal the prefix. -/
def NUnit.hist1 (u : NUnit) (mass : Bool) (x : BitVec 32 × Bool) : NUnit :=
  let k := (keyOf x.1).toNat
  let l := u.hl.toNat
  if k / 2 ^ (8 * l + 8) = u.hp.toNat / 2 ^ (8 * l + 8) then
    let b := k / 2 ^ (8 * l) % 256
    if mass then
      let e := mget (0, false) u.hmass b
      let w := f32 (fp32.add 0 false e.1.toNat (weight u.massM u.massT (keyVal (keyOf x.1))).toNat)
      { u with hmass := mput u.hmass b (w, e.2 || x.2) }
    else
      let e := mget (0, false) u.hcnt b
      { u with hcnt := mput u.hcnt b (e.1 + 1, e.2 || x.2) }
  else u

/-- A change as it applies (R264). -/
def NUnit.apply (u : NUnit) (x : NChg) : NUnit :=
  match x with
  | .clr => { u with cand := [], thr := 0 }
  | .merge xs => u.merge xs
  | .keep k => { u with cand := u.cand.take k }
  | .thr t => { u with thr := t, cand := u.cand.filter (fun e => !(e.key.ult t)) }
  | .basis m t => { u with massM := m, massT := t }
  | .key q n => { u with q := q, n := n }
  | .hset p l => { u with hp := p, hl := l, hcnt := [], hmass := [] }
  | .hist mass xs => xs.foldl (fun w y => w.hist1 mass y) u

/-- The unit as an operation at count `t` sees it (R264). -/
def Ctx.nAt (c : Ctx) (t : Nat) : NUnit :=
  (c.npend.filter (fun x => decide (x.due ≤ t))).foldl (fun u x => u.apply x.chg) c.nunit

def npendIns (x : NPend) : List NPend → List NPend
  | [] => [x]
  | y :: l => if x.due < y.due then x :: y :: l else y :: npendIns x l

def State.nChange (s : State) (x : NChg) : State :=
  s.onCur (fun c => { c with npend := npendIns ⟨s.latch.ic + 8, x, s.readyAt 8⟩ c.npend })

def State.nNow (s : State) : NUnit := s.cur.nAt s.latch.ic

/-! ### Shapes -/

/-- An N operation: it waits for its guard and its sources (R126, R264), raises `POISON` on a poisoned scalar
of `uses` (R265), and then has its effect. DEDUCED (log 38). -/
def State.nOp (s : State) (h : Hdr) (uses : List (List (Tag × SVal))) (others : Bool) (lat : Nat)
    (f : Cond2 → State) : State :=
  s.waitingN h ((manyAlts uses).isSome || others) (fun k =>
    match uses.filterMap (fun x => s.useTrap (one x) 0 7 false) with
    | t :: _ => s.raiseTag k.held t
    | [] => (f k).arriveLat k h lat)

def many {α : Type} (x : List (Tag × α)) : Bool := decide (1 < x.length)

def State.nVec (s : State) (o : NOp) : List (Tag × VVal) := s.vSrc o.a.toNat
def State.nA (s : State) (o : NOp) : List (Tag × SVal) := s.sSrc o.a.toNat
def State.nB (s : State) (o : NOp) : List (Tag × SVal) := s.sSrc o.b.toNat

/-- The 32 FP32 elements of a vector with their poison. -/
def fElems (v : VVal) : List (BitVec 32 × Bool) := (vParts 1024 32 v).map (fun e => (BitVec.ofNat 32 e.1, e.2))

/-- The pairs that `nmerge` forms (R267). -/
def mergePairs (v : VVal) (base : Word) : List Cand :=
  ((upTo 0 32).zip (fElems v)).map (fun z => ⟨keyOf z.2.1, base.setWidth 32 + BitVec.ofNat 32 z.1, z.2.2⟩)

/-- The pairs that `nmerge.p` reads; the pair (0, 0) is skipped (R267, R270). -/
def savedPairs (v : VVal) : List Cand :=
  ((vParts 1024 64 v).map (fun e => (⟨BitVec.ofNat 32 e.1, BitVec.ofNat 32 (e.1 / 2 ^ 32), e.2⟩ : Cand))).filter
    (fun c => !(c.key == 0 && c.idx == 0))

/-- The elements of a vector in rank order: position, bits and poison (R268). -/
structure SortE where
  c : Cand
  x : Nat
def sortIns (x : SortE) : List SortE → List SortE
  | [] => [x]
  | y :: l => if x.c.before y.c then x :: y :: l else y :: sortIns x l
def sortElems (v : VVal) : List SortE :=
  ((upTo 0 32).zip (fElems v)).foldl (fun l z =>
    sortIns ⟨⟨keyOf z.2.1, BitVec.ofNat 32 z.1, z.2.2⟩, z.2.1.toNat⟩ l) []
/-- A sorted vector: positions, or the elements with the bits they were read with. DEDUCED (log 37). -/
def sortVal (pos : Bool) (v : VVal) : VVal :=
  (mkVRes 32 ((sortElems v).map (fun e => ((if pos then e.c.idx.toNat else e.x, none), e.c.bad))) v.f).val

/-- `ntop` in its three forms (R269). -/
def topVal (form : Nat) (u : NUnit) (r : SVal) : SVal :=
  match u.cand[r.v.toNat]? with
  | some e => ⟨match form with
      | 0 => e.idx.setWidth 64
      | 1 => e.key.setWidth 64
      | _ => (keyVal e.key).setWidth 64, r.p ||| bbit e.bad, r.f⟩
  | none => ⟨match form with
      | 0 => 0xFFFFFFFFFFFFFFFF
      | 1 => 0
      | _ => 0x7FC00000, r.p, r.f⟩

/-- `nsave` (R270). -/
def saveVal (k : Nat) (u : NUnit) : VVal :=
  (mkVRes 64 ((upTo (16 * k) 16).map (fun r => match u.cand[r]? with
    | some e => ((e.key.toNat + 2 ^ 32 * e.idx.toNat, none), e.bad)
    | none => ((0, none), false))) none).val

/-- `nhist.rd` (R277). -/
def histVal (k : Nat) (u : NUnit) : VVal :=
  let t := if k < 8 then u.hcnt else u.hmass
  (mkVRes 32 ((upTo (32 * (k % 8)) 32).map (fun i =>
    let e := mget (0, false) t i
    ((e.1.toNat, none), e.2))) none).val

/-- A weight of `nsample.shard`: NaN, negative values and −0 weigh 0 (R275). -/
def shardWeight (x : BitVec 32) : BitVec 32 := if x.getLsbD 31 || (fp32.dec x.toNat).isNan then 0 else x

/-! ### The meanings -/

/-- `nop.n`: nothing. -/
def execNopN (_h : Hdr) (_o : NOp) (s : State) : Host.Outcome State Fault Refusal := .next s

/-- `nclr`: empties the cupboard, THR 0 (R267). -/
def execNclr (h : Hdr) (_o : NOp) (s : State) : Host.Outcome State Fault Refusal :=
  .next (s.nOp h [] false 8 (fun _ => s.nChange .clr))

/-- `nmerge` (R267). -/
def execNmerge (h : Hdr) (o : NOp) (s : State) : Host.Outcome State Fault Refusal :=
  .next (s.nOp h [s.nB o] (many (s.nVec o)) 8 (fun _ =>
    s.nChange (.merge (mergePairs (oneV (s.nVec o)) (one (s.nB o)).v))))

/-- `nmerge.p` (R267, R270). -/
def execNmergeP (h : Hdr) (o : NOp) (s : State) : Host.Outcome State Fault Refusal :=
  .next (s.nOp h [] (many (s.nVec o)) 8 (fun _ => s.nChange (.merge (savedPairs (oneV (s.nVec o))))))

/-- `nsort`: values in rank order (R268). -/
def execNsort (h : Hdr) (o : NOp) (s : State) : Host.Outcome State Fault Refusal :=
  .next (s.nOp h [] (many (s.nVec o)) 8 (fun k =>
    s.deliverV k o.d.toNat 8 [([], sortVal false (oneV (s.nVec o)))]))

/-- `nsort.i`: positions in rank order (R268). -/
def execNsortI (h : Hdr) (o : NOp) (s : State) : Host.Outcome State Fault Refusal :=
  .next (s.nOp h [] (many (s.nVec o)) 8 (fun k =>
    s.deliverV k o.d.toNat 8 [([], sortVal true (oneV (s.nVec o)))]))

/-- `ntop`: the index of a rank (R269). -/
def execNtop (h : Hdr) (o : NOp) (s : State) : Host.Outcome State Fault Refusal :=
  .next (s.nOp h [] (many (s.nA o)) 2 (fun k => s.deliverS k o.d.toNat 2 [([], topVal 0 s.nNow (one (s.nA o)))]))

/-- `ntop.k`: the key (R269). -/
def execNtopK (h : Hdr) (o : NOp) (s : State) : Host.Outcome State Fault Refusal :=
  .next (s.nOp h [] (many (s.nA o)) 2 (fun k => s.deliverS k o.d.toNat 2 [([], topVal 1 s.nNow (one (s.nA o)))]))

/-- `ntop.v`: the value (R269). -/
def execNtopV (h : Hdr) (o : NOp) (s : State) : Host.Outcome State Fault Refusal :=
  .next (s.nOp h [] (many (s.nA o)) 2 (fun k => s.deliverS k o.d.toNat 2 [([], topVal 2 s.nNow (one (s.nA o)))]))

/-- `nkth`: the value of the last entry kept, and the cut (R271). -/
def execNkth (h : Hdr) (o : NOp) (s : State) : Host.Outcome State Fault Refusal :=
  .next (s.nOp h [s.nA o] false 8 (fun k =>
    let n := (one (s.nA o)).v.toNat
    let u := s.nNow
    let m := min n u.cand.length
    let r : SVal := if m = 0 then { v := 0x7FC00000 } else topVal 2 u { v := BitVec.ofNat 64 (m - 1) }
    (s.deliverS k o.d.toNat 8 [([], r)]).nChange (.keep n)))

/-- `nmass`: sets the basis and delivers C (R273). -/
def execNmass (h : Hdr) (o : NOp) (s : State) : Host.Outcome State Fault Refusal :=
  .next (s.nOp h [s.nA o, s.nB o] false 8 (fun k =>
    let m : BitVec 32 := (one (s.nA o)).v.setWidth 32
    let t : BitVec 32 := (one (s.nB o)).v.setWidth 32
    let u := { s.nNow with massM := m, massT := t }
    let r : SVal := { v := (lastSum (sums 0 u.weights)).setWidth 64, p := bbit u.bad }
    (s.deliverS k o.d.toNat 8 [([], r)]).nChange (.basis m t)))

/-- `nhist`: counts (R277). `PRIVILEGE` without EXACT is raised at the group (R265, R41). -/
def execNhist (h : Hdr) (o : NOp) (s : State) : Host.Outcome State Fault Refusal :=
  .next (s.nOp h [] (many (s.nVec o)) 8 (fun _ => s.nChange (.hist false (fElems (oneV (s.nVec o))))))

/-- `nhist.m`: masses (R277). -/
def execNhistM (h : Hdr) (o : NOp) (s : State) : Host.Outcome State Fault Refusal :=
  .next (s.nOp h [] (many (s.nVec o)) 8 (fun _ => s.nChange (.hist true (fElems (oneV (s.nVec o))))))

/-- `nhist.set`: clears both tables, sets P and L (R277). -/
def execNhistSet (h : Hdr) (o : NOp) (s : State) : Host.Outcome State Fault Refusal :=
  .next (s.nOp h [s.nA o, s.nB o] false 8 (fun _ =>
    s.nChange (.hset ((one (s.nA o)).v.setWidth 32) ((one (s.nB o)).v.setWidth 2))))

/-- `nhist.rd`: 32 counts or masses (R277). -/
def execNhistRd (h : Hdr) (o : NOp) (s : State) : Host.Outcome State Fault Refusal :=
  .next (s.nOp h [] false 8 (fun k => s.deliverV k o.d.toNat 8 [([], histVal (o.b.toNat % 16) s.nNow)]))

/-- `nthr`: sets THR and cuts below it (R272). -/
def execNthr (h : Hdr) (o : NOp) (s : State) : Host.Outcome State Fault Refusal :=
  .next (s.nOp h [s.nA o] false 8 (fun k =>
    let t : BitVec 32 := (one (s.nA o)).v.setWidth 32
    let n := (s.nNow.cand.filter (fun e => !(e.key.ult t))).length
    (s.deliverS k o.d.toNat 8 [([], { v := BitVec.ofNat 64 n })]).nChange (.thr t)))

/-- `nthr.p`: keeps the smallest prefix of mass p (R272). -/
def execNthrP (h : Hdr) (o : NOp) (s : State) : Host.Outcome State Fault Refusal :=
  .next (s.nOp h [s.nA o] false 8 (fun k =>
    let u := s.nNow
    let n := u.prefix ((one (s.nA o)).v.setWidth 32)
    (s.deliverS k o.d.toNat 8 [([], { v := BitVec.ofNat 64 n, p := bbit u.bad })]).nChange (.keep n)))

/-- `nrng`: the stream key (R274). -/
def execNrng (h : Hdr) (o : NOp) (s : State) : Host.Outcome State Fault Refusal :=
  .next (s.nOp h [s.nA o, s.nB o] false 8 (fun _ => s.nChange (.key (one (s.nA o)).v (one (s.nB o)).v)))

/-- `nrng.x`: (x1 << 32) OR x0 of a stream (R274). -/
def execNrngX (h : Hdr) (o : NOp) (s : State) : Host.Outcome State Fault Refusal :=
  .next (s.nOp h [s.nA o] false 4 (fun k =>
    let x := philox s.nNow.q s.nNow.n ((one (s.nA o)).v.toNat % 2 ^ 32)
    s.deliverS k o.d.toNat 4 [([], { v := BitVec.ofNat 64 (x.2.1 * 2 ^ 32 + x.1) })]))

/-- `nsample.tok`: draws a rank by mass (R275). -/
def execNsampleTok (h : Hdr) (o : NOp) (s : State) : Host.Outcome State Fault Refusal :=
  .next (s.nOp h [] false 8 (fun k =>
    let u := s.nNow
    let r := topVal 0 u { v := BitVec.ofNat 64 (draw (drawU u.q u.n 1) u.weights) }
    s.deliverS k o.d.toNat 8 [([], { r with p := bbit u.bad })]))

/-- `nsample.shard`: draws one of 32 weights (R275). -/
def execNsampleShard (h : Hdr) (o : NOp) (s : State) : Host.Outcome State Fault Refusal :=
  .next (s.nOp h [] (many (s.nVec o)) 8 (fun k =>
    let u := s.nNow
    let xs := fElems (oneV (s.nVec o))
    let r := draw (drawU u.q u.n 0) (xs.map (fun e => shardWeight e.1))
    s.deliverS k o.d.toNat 8 [([], { v := BitVec.ofNat 64 r, p := bbit (xs.any (fun e => e.2)), f := (oneV (s.nVec o)).f })]))

/-- `nsave`: sixteen entries as pairs (R270). -/
def execNsave (h : Hdr) (o : NOp) (s : State) : Host.Outcome State Fault Refusal :=
  .next (s.nOp h [] false 2 (fun k => s.deliverV k o.d.toNat 2 [([], saveVal o.sub.toNat s.nNow)]))

end Sys2Proof.Machine
end

