-- ==== Sys2Proof/Machine/System.lean ====
section
/-! DEFINITION. Special registers (R338 to R341 and the maps they name), `dstop` (R360), `invq` (R356) and `spawn`
(R387, R388). -/

namespace Sys2Proof.Machine

/-! ### What a register reads -/

/-- `ALTM` (R121): OPENM and PREDM as the guards stand. -/
def Ctx.altmWord (c : Ctx) (t : Nat) : Word :=
  image ([c.altm.toNat, fld c.wrong.toNat 16] ++ (upTo 1 15).map (fun r =>
    match c.gAt r t with
    | .res _ => 0
    | .opn id => flag true (32 + r) + flag ((c.open? id).any (fun o => o.pred.isSome)) (48 + r)))

/-- `XCS` (R234). -/
def State.xcsWord (s : State) (n : Nat) : Word :=
  let cs := s.copiesOf n
  let out := fld (min cs.length 64) 48
  match cs.find? (fun c => c.phase == 2) with
  | some c => image [2 ^ 63, fld c.eng 56, out, c.elemAt % 2 ^ 48]
  | none => image [out]

/-- The routine that has started on a context's core, those of switched-out contexts apart (R213). -/
def State.currentRoutine (s : State) (n : Nat) : Option Routine :=
  (s.routinesAt (coreOf n)).find? (fun r => r.begun || r.waitF.isSome)

/-- `MRP` (R213). -/
def State.mrpWord (s : State) (n : Nat) : Word :=
  match s.currentRoutine n with
  | some r => image [flag (r.waitF.any s.faultOpen) 63, fld (r.idx % 256) 48, r.row % 2 ^ 32]
  | none => 0

/-- `NCTL` (R276). -/
def NUnit.word (u : NUnit) : Word :=
  image [flag u.exact 63, flag u.ovf 62, fld u.cand.length 32, u.thr.toNat]

/-- `LNKS` (R333). -/
def State.lnksWord (s : State) (n : Nat) : Word :=
  let c := s.ctx n
  let out := ((s.wing (wingOf n)).link.filter (fun x => x.n == n)).length
  image [fld (bits c.lnks 32 32).toNat 32, fld (min out 32) 8, ((s.short n).eraseDups.map (fun k => 2 ^ k)).foldl (fun a b => a + b) 0]

/-- `CSTAT` (R338). -/
def Ctx.cstatWord (c : Ctx) : Word := image [flag c.lvl 0, flag c.kl 1, flag c.inh 2]

/-- `WDOG` (R357). -/
def Ctx.wdogWord (c : Ctx) : Word := image [flag c.ovr 63, flag c.pend 62, flag c.fs 61, min c.wdogC (2 ^ 36 - 1)]

/-- `PART` (R15). -/
def Core.partWord (d : Core) : Word := image [fld d.accg.toNat 8, d.ctxn.toNat]

/-- `PHYS_MAP` (R346): the physical cluster of a logical core. -/
def State.physWord (s : State) (k : Nat) : Word :=
  let z := mget ((BitVec.ofNat 3 (k / 4 % 6)), false) s.mod.phys (k / 4)
  image [flag z.2 15, fld (k / 24) 13, fld z.1.toNat 10, fld (k % 4) 8]

/-- `ARRM` (R200), for a core. -/
def State.arrmWord (s : State) (k : Nat) : Word :=
  let q := s.routinesAt k
  let a := s.arr (arrayOf k)
  image [flag (!q.isEmpty) 7, fld (min q.length 4) 4, flag a.fen 2, flag a.mode 0]

/-- `FBS` (R352). -/
def State.fbsWord (s : State) : Word :=
  image [fld s.mod.ovf.toNat 48, (s.mod.fbBase.toNat / 8192 % 2 ^ 35) * 8192, s.fbUsed]

/-- A special register by its number, as context `n` reads it in this cycle (R339), an operation at count `t` (R33). -/
def State.csrRead (s : State) (n num : Nat) (t : Nat := (s.ctx n).ic) : Word :=
  let c := s.ctx n
  let k := coreOf n
  let w := s.wing (wingOf n)
  match num with
  | 0x000 => (c.fmtAt t).setWidth 64
  | 0x001 => (c.qlAt 0 t).setWidth 64
  | 0x002 => (c.qlAt 1 t).setWidth 64
  | 0x003 => c.fel
  | 0x004 => c.soor
  | 0x005 => c.soorx
  | 0x006 => c.altmWord t
  | 0x007 => image [flag c.ilk 0]
  | 0x008 => s.xcsWord n
  | 0x009 => s.mrpWord n
  | 0x00A => (c.nAt t).word
  | 0x00B => s.lnksWord n
  | 0x00C => c.cstatWord
  | 0x00D => c.tvec
  | 0x00E => c.tfa
  | 0x00F => c.ttb
  | 0x010 => c.lscs.setWidth 64
  | 0x017 => c.wdb.setWidth 64
  | 0x018 => (s.leadC n).wdogWord
  | 0x019 => (s.leadC n).scy
  | 0x01A => c.dbg
  | 0x01B => mget 0 c.bka 0
  | 0x01C => mget 0 c.bka 1
  | 0x01D => mget 0 c.bka 2
  | 0x01E => mget 0 c.bka 3
  | 0x01F => mget 0xC0000000000000 c.wpt 0
  | 0x020 => mget 0xC0000000000000 c.wpt 1
  | 0x040 => (s.core k).partWord
  | 0x041 => image [k]
  | 0x042 => image [k / 4]
  | 0x043 => image [k / 24]
  | 0x044 => s.physWord k
  | 0x045 => s.arrmWord k
  | 0x060 => (s.cluster (k / 4)).bovr
  | 0x080 => s.mod.node.setWidth 64
  | 0x081 => s.fbsWord
  | 0x082 => 0
  | 0x083 => w.tsb
  | 0x084 => w.tsc
  | 0x085 => w.tsw.setWidth 64
  | 0x086 => w.tsl.setWidth 64
  | _ =>
    -- 0x011 to 0x016: `LSC0` to `LSC5`
    if c.lscs.toNat ≤ 20 then mget 0 c.lsc (32 * (num - 0x11) + c.lscs.toNat) else 0

/-- What a read clears: the RC fields (R4). What the hardware has counted in this cycle stands (R6). -/
def State.csrClear (s : State) (n num : Nat) : State :=
  match num with
  | 0x006 => s.onCtx n (fun c => { c with wrong := 0 })
  | 0x00B => s.onCtx n (fun c => { c with lnks := c.lnksNow })
  | 0x081 => { s with mod := { s.mod with ovf := s.mod.ovfNow } }
  | _ => s

/-- `csrr` (R341): latency 1; it waits for its guard, as a read may clear a field. -/
def execCsrr (h : Hdr) (o : CIOp) (s : State) : Host.Outcome State Fault Refusal :=
  .next (s.waiting h [] (s.underLit (
    let num := (ciVal h o).toNat
    (s.csrClear s.latch.n num).deliverS {} o.d.toNat 1 [([], { v := s.csrRead s.latch.n num s.latch.ic })])))

/-! ### Writes -/

/-- The bits of a register that are reserved (R5). -/
def csrReserved (num : Nat) : Word :=
  match num with
  | 0x000 => 0xFFFFFFFF30000000
  | 0x001 => 0xFFFFFFFFFFFFFE00
  | 0x002 => 0xFFFFFFFFFFFFFE00
  | 0x004 => 0x001F800000000000
  | 0x005 => 0xFFFFFFFFFF000000
  | 0x006 => 0x000000000000FFFC
  | 0x007 => 0xFFFFFFFFFFFFFFFE
  | 0x008 => 0x7C00000000000000
  | 0x009 => 0x7F00FFFF00000000
  | 0x00A => 0x3FFFFF8000000000
  | 0x00B => 0x00000000FFFF0000
  | 0x00C => 0xFFFFFFFFFFFFFFF8
  | 0x00D => 0xFFFF000000000001
  | 0x00E => 0xFFFF00000000007F
  | 0x00F => 0x0000000000001FFF
  | 0x010 => 0xFFFFFFFFFFFFFFE0
  | 0x017 => 0xFFFFFFFF00000000
  | 0x018 => 0x1FFFFFF000000000
  | 0x019 => 0xFFFFFFF800000000
  | 0x01A => 0x00FF800000000000
  | 0x01B => 0x7FFF000000000001
  | 0x01C => 0x7FFF000000000001
  | 0x01D => 0x7FFF000000000001
  | 0x01E => 0x7FFF000000000001
  | 0x01F => 0x003F000000000000
  | 0x020 => 0x003F000000000000
  | 0x040 => 0xFFFFFFFFFFFF00FC
  | 0x041 => 0xFFFFFFFFFFFFFF80
  | 0x042 => 0xFFFFFFFFFFFFFF80
  | 0x043 => 0xFFFFFFFFFFFFFF80
  | 0x044 => 0xFFFFFFFFFFFF00FF
  | 0x045 => 0xFFFFFFFFFFFFFF0A
  | 0x060 => 0x0000800000000000
  | 0x080 => 0xFFFFFFFFFFFF0000
  | 0x081 => 0x0000000000001E00
  | 0x082 => 0xFFFFFFFFFFFFFF00
  | 0x083 => 0xFFFF000000000FC0
  | 0x084 => 0x1FFFFFFFFFFFFFE0
  | 0x085 => 0xFFFFFFFF00000000
  | 0x086 => 0xFFFFFFFF00000000
  | _ => 0

/-- `FMT` holds legal codes only (R67). -/
def fmtLegal (v : Nat) : Bool :=
  let f := fun (lo : Nat) => v / 2 ^ lo % 16
  let mab := fun (x : Nat) => x == 3 || x == 4 || x == 5 || x == 10
  decide (1 ≤ f 0 ∧ f 0 ≤ 9) && decide (1 ≤ f 4 ∧ f 4 ≤ 9) && mab (f 8) && mab (f 12) &&
    (decide (1 ≤ f 16 ∧ f 16 ≤ 8) || f 16 == 10) && decide (2 ≤ f 20 ∧ f 20 ≤ 8) && decide (2 ≤ f 24 ∧ f 24 ≤ 8)

/-- A value that sets a reserved bit (R5). -/
def csrSets (num : Nat) (v : Word) : Bool := decide (v &&& csrReserved num ≠ 0)

/-- A value that raises `ILLEGAL_ENCODING` (R67, R360, R363). DEDUCED (log 59). -/
def csrBad (num : Nat) (v : Word) : Bool :=
  (match num with
    | 0x000 => !fmtLegal v.toNat
    | 0x01F => !decide (3 ≤ (bits v 54 6).toNat ∧ (bits v 54 6).toNat ≤ 40)
    | 0x020 => !decide (3 ≤ (bits v 54 6).toNat ∧ (bits v 54 6).toNat ≤ 40)
    | 0x084 => decide (1 ≤ v.toNat % 32 ∧ v.toNat % 32 ≤ 9)
    | 0x086 => v.toNat % 32 != 0
    | _ => false)

/-- Registers with a privileged field (R7). -/
def csrPriv (num : Nat) : Bool :=
  decide (num = 0x00D ∨ num = 0x00E ∨ (0x01A ≤ num ∧ num ≤ 0x020) ∨ num = 0x045 ∨ num = 0x082 ∨ num = 0x083 ∨
    num = 0x084 ∨ num = 0x086)

/-- Registers whose writes are seen in the next cycle by every agent (R341). -/
def csrWide (num : Nat) : Bool := decide (0x040 ≤ num)

/-- A context-scope register written, from its count on (R341, R4). A bit that the hardware has set in this cycle stands (R6).
`WDOG` is the machine's (`Ctx.dogClears`). -/
def Ctx.csrApply (c : Ctx) (num : Nat) (v : Word) : Ctx :=
  match num with
  | 0x003 =>
    let f := (c.fel &&& 0x83FFFFFFFFFFFFFF) ||| (v &&& 0x7C00000000000000)
    if bit v 63 then { c with fel := f &&& 0x7C00000000000000, felKey := (0, 0, 0) } else { c with fel := f }
  | 0x004 => if bit v 63 && !c.hw.contains 0x004 then { c with soor := 0, soorx := 0 } else c
  | 0x006 => { c with altm := bits v 0 2 }
  | 0x007 => { c with ilk := bit v 0 }
  | 0x00A => if bit v 62 then { c with nunit := { c.nunit with ovf := false } } else c
  | 0x00D => { c with tvec := v &&& 0x0000FFFFFFFFFFFE }
  | 0x00E => { c with tfa := v &&& 0x0000FFFFFFFFFF80 }
  | 0x010 => { c with lscs := bits v 0 5 }
  | 0x01A => { c with dbg := (c.dbg &&& 0x3FFFFFFFFFFFFFFF) ||| (v &&& 0xC000000000000000) }
  | 0x01B => { c with bka := mput c.bka 0 (v &&& 0x8000FFFFFFFFFFFE) }
  | 0x01C => { c with bka := mput c.bka 1 (v &&& 0x8000FFFFFFFFFFFE) }
  | 0x01D => { c with bka := mput c.bka 2 (v &&& 0x8000FFFFFFFFFFFE) }
  | 0x01E => { c with bka := mput c.bka 3 (v &&& 0x8000FFFFFFFFFFFE) }
  | 0x01F => { c with wpt := mput c.wpt 0 (v &&& 0xFFC0FFFFFFFFFFFF) }
  | 0x020 => { c with wpt := mput c.wpt 1 (v &&& 0xFFC0FFFFFFFFFFFF) }
  | _ =>
    if 0x011 ≤ num ∧ num ≤ 0x016 ∧ c.lscs.toNat ≤ 20 then
      { c with lsc := mput c.lsc (32 * (num - 0x11) + c.lscs.toNat) v }
    else c

/-- A `csrw` due by count `t` clears OVR of `WDOG` (R357, R4). -/
def Ctx.dogClears (c : Ctx) (t : Nat) : Bool := c.csrPend.any (fun x => decide (x.1 ≤ t) && x.2.1 == 0x018 && bit x.2.2 63)

/-- Pending writes of special registers stand in the order of their counts. -/
def csrIns (x : Nat × Nat × Word) : List (Nat × Nat × Word) → List (Nat × Nat × Word)
  | [] => [x]
  | y :: l => if x.1 < y.1 then x :: y :: l else y :: csrIns x l

/-- The trace controls (R363): a change of EN from 0 to 1 resets the writer, and clearing it abandons the records in
progress (R365). -/
def Wing.setTsc (w : Wing) (v : Word) : Wing :=
  let w1 := { w with tsc := v &&& 0xE00000000000001F, recs := if bit v 63 then w.recs else [] }
  if bit v 63 && !w.tsc.getLsbD 63 then { w1 with tsw := 0, tseq := 0, lost := 0 } else w1

/-- A register of a wider scope written by context `n`, in the cycle after its issue (R341, R6). -/
def State.csrWiden (s : State) (n num : Nat) (v : Word) : State :=
  let k := coreOf n
  let w := s.wing (wingOf n)
  match num with
  | 0x045 => s.setArr (arrayOf k) { s.arr (arrayOf k) with fen := bit v 2 }
  | 0x060 => if bit v 63 then s.setCluster (k / 4) { s.cluster (k / 4) with bovr := 0 } else s
  | 0x082 => s.fbDone (v.toNat % 256)
  | 0x083 => s.setWing (wingOf n) { w with tsb := v &&& 0x0000FFFFFFFFF03F }
  | 0x084 => s.setWing (wingOf n) (w.setTsc v)
  | 0x086 => s.setWing (wingOf n) { w with tsl := bits v 0 32 }
  | _ => s

/-- A checked write takes its place (R341). -/
def State.csrPut (s : State) (num : Nat) (v : Word) : State :=
  let t := s.latch.ic
  match num with
  | 0x000 => s.onCur (fun c => { c with fmtPend := laterIns ⟨0, t + 4, (0xFFFFFFFF, bits v 0 32), s.readyAt 4⟩ c.fmtPend })
  | 0x001 => s.onCur (fun c => { c with qlPend := laterIns ⟨0, t + 3, bits v 0 9, s.readyAt 3⟩ c.qlPend })
  | 0x002 => s.onCur (fun c => { c with qlPend := laterIns ⟨1, t + 3, bits v 0 9, s.readyAt 3⟩ c.qlPend })
  | _ =>
    if csrWide num then { s with csrLate := s.csrLate ++ [(s.latch.n, num, v)] }
    else s.onCur (fun c => { c with csrPend := csrIns (t + 1, num, v) c.csrPend })

/-- The `PRIVILEGE` of a register (R7, R344). -/
def State.privTrap (s : State) (num : Nat) : TrapRec := s.trapRec .privilege (s.latch.w0.setWidth 64) (BitVec.ofNat 64 num)

/-- An unprivileged context writes a register with a privileged field: it traps whatever its guard holds, with
`ILLEGAL_ENCODING` where its source sets a reserved bit (R7, R41). A source that is not known yet is waited for (log 36,
DEDUCED). -/
def State.csrwStops (s : State) (num : Nat) (src : List (Tag × SVal)) : Option State :=
  if csrPriv num && !s.cur.lvl then
    some (if (manyAlts [src]).isSome then s.stat (.stall [])
      else if csrSets num (one src).v && (one src).p == 0 && (one src).f.isNone then s.illegal
      else s.stat (.trap (s.privTrap num)))
  else none

/-- `csrw` (R341): it waits for its guard and its source. An unprivileged context's trap comes before, at its group where its
source is known there (`State.csrwDenied`, R41). -/
def execCsrw (h : Hdr) (o : CIOp) (s : State) : Host.Outcome State Fault Refusal :=
  .next (
    let num := (ciVal h o).toNat
    let src := s.sSrc o.d.toNat
    (s.csrwStops num src).getD (s.waiting h [src] (
      match s.useTrap (one src) 0 7 false with
      | some t => s.stat (.trap t)
      | none =>
        let v := (one src).v
        if csrSets num v || csrBad num v then s.illegal else s.csrPut num v)))

/-! ### Debug -/

/-- `dstop` (R359, R360). -/
def execDstop (h : Hdr) (_o : CROp) (s : State) : Host.Outcome State Fault Refusal :=
  .next (s.branching h [] (s.underLit (s.onCur (fun c => if c.dbg.getLsbD 63 then c.askStop 1 0 else c))))

/-! ### The invalidation queue -/

/-- An entry of a master table (R355). -/
def State.masterEntry (s : State) (base i : Nat) : TEntry :=
  { w0 := s.mem.word (base + 16 * i), w1 := s.mem.word (base + 16 * i + 8) }

def TEntry.meets (e : TEntry) (lo len : Nat) : Bool :=
  e.kind != 0 && (len == 0 || overlaps e.vbase (2 ^ e.lsz) lo len)

/-- A copy with the entries that meet a range reloaded from the master (R356). -/
def State.reloadGo (s : State) (base lo len : Nat) : List Nat → TMap TEntry → TMap TEntry
  | [], t => t
  | i :: is, t =>
    let old : TEntry := mget {} t i
    let new := s.masterEntry base i
    s.reloadGo base lo len is (if old.meets lo len || new.meets lo len then mput t i new else t)

def State.reload (s : State) (base lo len : Nat) (t : TMap TEntry) : TMap TEntry := s.reloadGo base lo len (upTo 0 512) t

/-- The device address of a context's master table. -/
def Ctx.tableBase (c : Ctx) : Nat := (bits c.ttb 13 35).toNat * 8192

/-- The copies of an address space reload: those of the cores, and with `lvl` the engines' and those of relocation
commands (R356). -/
def State.reloadAsid (s : State) (asid : BitVec 16) (lo len lvl : Nat) : State :=
  { s with
    ctxs := s.ctxs.map (fun e =>
      let c := e.2
      if !s.hasTable e.1 c || c.asid != asid then e
      else
        let b := c.tableBase
        (e.1, { c with table := {
          core := s.reload b lo len c.table.core,
          eng := if lvl = 0 then c.table.eng else s.reload b lo len c.table.eng } })),
    wings := s.wings.map (fun e =>
      if lvl = 0 then e
      else (e.1, { e.2 with reloc := e.2.reloc.map (fun r =>
        let c := s.ctx r.n
        if c.asid = asid then { r with table := s.reload c.tableBase lo len r.table } else r) })) }

/-- An address lies in the range of an `invq`. -/
def inInv (lo len a n : Nat) : Bool := len == 0 || overlaps a n lo len

/-- The names of the accesses that a reload must wait for (R356): on their way, or held. -/
def State.invAccs (s : State) (asid : BitVec 16) (lo len : Nat) : List Nat :=
  let mine := fun (a : Acc) => (s.ctx a.n).asid == asid && (inInv lo len a.ea a.size || inInv lo len a.ea0 a.size)
  ((s.outq ++ s.net ++ s.wings.flatMap (fun e => e.2.reloc.flatMap (fun r => r.stores))).filter mine).map (fun a => a.id) ++
  s.ctxs.flatMap (fun e => e.2.larder.filterMap (fun x =>
    match x.op with
    | .store a => if mine a && !x.dead then some x.id else none
    | .atomic a => if mine a && !x.dead then some x.id else none
    | .spawn a => if mine a && !x.dead then some x.id else none
    | _ => none))

/-- The elements, tiles and flits that the engines have started under replaced entries (R356): command, and the elements below. -/
def State.invElems (s : State) (asid : BitVec 16) : List Nat :=
  s.clusters.flatMap (fun e => (e.2.queue.filter (fun c =>
    (s.ctx c.n).asid == asid && !c.flight.isEmpty)).map (fun c => c.id * 2 ^ 48 + c.elemAt)) ++
  s.wings.flatMap (fun e =>
    (e.2.reloc.filter (fun c => (s.ctx c.n).asid == asid && c.moving)).map (fun c => c.id * 2 ^ 48 + c.tile + 1) ++
    (e.2.link.filter (fun c => (s.ctx c.n).asid == asid && c.gone && !c.sent.isEmpty)).map (fun c => c.id * 2 ^ 48))

/-- What an `invq` waits for is still under way. -/
def State.invOpen (s : State) (x : Nat) : Bool :=
  if x < 2 ^ 48 then
    s.outq.any (fun a => a.id == x) || s.net.any (fun a => a.id == x || a.merged.any (fun m => m.id == x)) ||
    s.wings.any (fun e => e.2.reloc.any (fun r => r.stores.any (fun a => a.id == x))) ||
    s.ctxs.any (fun e => e.2.larder.any (fun h => h.id == x && !h.dead))
  else
    let id := x / 2 ^ 48
    let q := x % 2 ^ 48
    s.clusters.any (fun e => e.2.queue.any (fun c => c.id == id && c.flight.any (fun f => decide (f.q < q)))) ||
    s.wings.any (fun e => e.2.reloc.any (fun c => c.id == id && c.moving && decide (c.tile < q)) ||
      e.2.link.any (fun c => c.id == id && c.gone && !c.sent.isEmpty))

/-- The command goes out (R356): the copies reload, and the context waits for their acknowledgments. -/
def State.invStart (s : State) (n : Nat) (asid : BitVec 16) (lo len lvl : Nat) : State :=
  let ids := s.invAccs asid lo len ++ (if lvl = 0 then [] else s.invElems asid)
  (s.reloadAsid asid lo len lvl).onCtx n (fun c =>
    { c with inv := ids, invN := if lvl = 2 then Config.asidNodes asid else [] })

/-- Every copy has acknowledged. -/
def State.invDone (s : State) (n : Nat) : Bool := (s.ctx n).invN.isEmpty && !(s.ctx n).inv.any s.invOpen

/-- `invq` (R356): privileged (R41); it drains, sends its command and waits for the acknowledgments. -/
def State.invq (s : State) (h : Hdr) (o : CROp) (lvl : Nat) : State :=
  let d := s.sSrc o.d.toNat
  let a := s.sSrc o.a.toNat
  let b := s.sSrc o.b.toNat
  s.waiting h [d, a, b] (
    match firstTrap [s.useTrap (one d) 0 7 false, s.useTrap (one a) 0 7 false, s.useTrap (one b) 0 7 false] with
    | some t => s.stat (.trap t)
    | none =>
      if s.cur.pass then s.onCur (fun c => { c with pass := false })
      else s.larderFirst (
        if !(s.cur.outsOf 0x0C 3).isEmpty || !(s.cur.heldOf 0x0C 3).isEmpty then s.stat .wait
        else s.stat (.waitAt (.invq (bits (one d).v 0 16) (one a).v.toNat (one b).v.toNat lvl))))

def execInvqC (h : Hdr) (o : CROp) (s : State) : Host.Outcome State Fault Refusal := .next (s.invq h o 0)
def execInvqE (h : Hdr) (o : CROp) (s : State) : Host.Outcome State Fault Refusal := .next (s.invq h o 1)
def execInvqN (h : Hdr) (o : CROp) (s : State) : Host.Outcome State Fault Refusal := .next (s.invq h o 2)

/-! ### `spawn` -/

/-- The node's device address, or the trap (R387). -/
def State.spawnTo (s : State) (a : SVal) : Sum TrapRec Nat :=
  match s.useTrap a a.v 2 false with
  | some t => .inl t
  | none =>
    if a.v.toNat % 64 ≠ 0 then .inl (s.trapRec .misaligned a.v 0)
    else
      match tLookup s.cur.table.core a.v.toNat with
      | none => .inl (s.trapRec .untranslated a.v 0)
      | some e =>
        if !e.p then .inl (s.trapRec .pageFault a.v 0)
        else if e.kind ≠ 4 then .inl (s.trapRec .untranslated a.v 0)
        else .inr (e.tgt (coreOf s.latch.n) a.v.toNat).home

/-- PRIO of the kernel that a context runs (R387). -/
def State.prioOf (s : State) (n : Nat) : Nat := ((s.mod.kernels.find? (fun e => e.1 == (s.ctx n).kernel)).map (fun e => e.2.prio)).getD 0

/-- The combinations of `spawn`, each sent or held (R126, R388). -/
def State.spawnAll (s : State) (prio : Nat) (k : Cond2) : List (Tag × Nat × Nat) → State
  | [] => s
  | (t, ea, node) :: l =>
    let u := tagAnd k.held t
    let a : Acc := { id := s.uid, n := s.latch.n, kind := .activation, seq := s.uid, ea := ea, ea0 := ea, place := 3, home := node, size := 64,
                     x := BitVec.ofNat 64 prio, ba := s.latch.ba, scy := s.latch.scy, tag := u, slot := 0,
                     after := s.cur.beforeSpawn s.uid }
    (if u.isEmpty then { s with outq := s.outq ++ [a], uid := s.uid + 1 }
     else s.pushHeld { id := 0, tag := u, op := .spawn a }).spawnAll prio k l

/-- `spawn` (R387, R388). -/
def execSpawn (h : Hdr) (o : CROp) (s : State) : Host.Outcome State Fault Refusal :=
  .next (s.guarded h (fun k =>
    let p := if s.cur.lvl then o.sub.toNat else min o.sub.toNat (s.prioOf s.latch.n)
    let cs := (s.sSrc o.a.toNat).map (fun z => (z.1, z.2.v.toNat, s.spawnTo z.2))
    let traps := cs.filterMap (fun z => match z.2.2 with | .inl t => some (tagAnd k.held z.1, t) | .inr _ => none)
    let good := cs.filterMap (fun z => match z.2.2 with | .inr a => some (z.1, z.2.1, a) | .inl _ => none)
    s.withTraps traps (good.filter (fun z => !(tagAnd k.held z.1).isEmpty)).length (fun s => s.spawnAll p k good)))

/-! ### Events of these registers -/

/-- FBD_MARK_DONE (R351): `ev.idx` names the entry. -/
def execFbdMarkDone (s : State) : Host.Outcome State Fault Refusal := .next (s.fbDone (s.ev.idx % 256))

/-- TSC_WRITE (R363): context `ev.n` writes `ev.v` to its wing's controls. -/
def execTscWrite (s : State) : Host.Outcome State Fault Refusal := .next (s.csrWiden s.ev.n 0x084 s.ev.v)

/-- REMOTE_INVALIDATION (R356): `ev.v` the ASID, `ev.addr` and `ev.w` the range. DEDUCED (log 57). -/
def execRemoteInvalidation (s : State) : Host.Outcome State Fault Refusal :=
  .next (s.reloadAsid (bits s.ev.v 0 16) s.ev.addr s.ev.w.toNat 1)

end Sys2Proof.Machine
end

