-- ==== Sys2Proof/Machine/Uses.lean ====
section
/-! DEFINITION. What the issue of a bundle asks of an operation: the state it reads and writes (R32, R37, R82, R116), the
units it occupies (R97), the sticky form (R38), and the classes that the group rules name (R31, R90, R307, R311, R312). -/

namespace Sys2Proof

/-! ### Codes of the state checked by R32

s r is r, a r 64 + r, v r 128 + r, g r 192 + r, mp r 208 + r, xs r 216 + r; `FMT` 240, `QL0` and `QL1` 241 and 242; the
cupboard 243, the array port 244, the copy queue 245; another special register 256 + its number. Writes of `s0` and of
`g0` are not checked. -/

def useS (r : Nat) : List Nat := if r = 0 then [] else [r]
def useA (r : Nat) : List Nat := [64 + r]
def useV (r : Nat) : List Nat := [128 + r]
def useG (r : Nat) : List Nat := if r = 0 then [] else [192 + r]
def useCsr (num : Nat) : List Nat := if num < 3 then [240 + num] else [256 + num]

/-- The guard of an operation is read (R28). -/
def Hdr.use (h : Hdr) : List Nat := useG h.g.toNat

/-- `FMT` as a V operation reads it (R68). -/
def VOp.useFmt (o : VOp) : List Nat := if o.fo == 0 || o.rm == 0 then [240] else []
/-- The scale latch of a V slot. -/
def useQl (slot : Nat) : List Nat := [if slot = 4 then 242 else 241]

/-- The base of a memory operation, written by a nonzero step (R32). -/
def MOp.useBase (o : MOp) : List Nat := useA o.base.toNat
def MOp.stepBase (o : MOp) : List Nat := if o.step == 0 then [] else useA o.base.toNat

/-- The shape registers and bases of a copy command (R229). -/
def QOp.useShapes (o : QOp) : List Nat := (Machine.upTo 0 o.dims).map (fun j => 216 + o.xs.toNat + j)
def QOp.stepped (o : QOp) (rs : List Nat) : List Nat := if o.xstep == 0 then [] else rs.flatMap useA
/-- The status base of a relocation command. -/
def QOp.useSw (o : QOp) : List Nat := if o.sw then useA o.xs.toNat else []

/-- What an operation reads besides its guard; `slot` is the slot it stands in. A register that a `csrw` writes is read where
the operation's own rule reads it: `TFA` by `sret`, NOHINT of `ALTM` by `gcol` without a sense, EN of `DBG` by `dstop`. The `nop`
of a unit's slot counts as no operation of the unit. DEDUCED (log 102). `vpack` and `vunpack` count as readers of `FMT`
as every V operation with FO 0 does (R68), though their values ignore it (R192). DEDUCED (log 89). -/
def Instr.reads1 (slot : Nat) : Instr → List Nat
  | .bri _ o | .ret _ o | .calli _ o | .spawn _ o | .bset _ o | .bsetS _ o => useS o.a.toNat
  | .gres _ o | .gcolT _ o | .gcolF _ o => useG (o.a.toNat % 16)
  | .gcol _ o => useG (o.a.toNat % 16) ++ useCsr 0x006
  | .gresAll _ _ => (Machine.upTo 1 15).flatMap useG
  | .loopv _ o => useS o.n.toNat
  | .wset _ o | .ilock _ o | .iunlock _ o => useS o.a.toNat ++ useS o.b.toNat
  | .invqC _ o | .invqE _ o | .invqN _ o => useS o.d.toNat ++ useS o.a.toNat ++ useS o.b.toNat
  | .bwait _ o => useS o.d.toNat
  | .csrr h o => useCsr (ciVal h o).toNat
  | .csrw _ o => useS o.d.toNat
  | .sret _ _ => useCsr 0x00E
  | .dstop _ _ => useCsr 0x01A
  | .cgo2 _ o | .cgo4 _ o => useS o.d.toNat ++ useS 39
  | .add _ o | .sub _ o | .mul _ o | .mulh _ o | .mulhu _ o | .div _ o | .divu _ o | .rem _ o | .remu _ o | .and _ o
  | .or _ o | .xor _ o | .andn _ o | .shl _ o | .shr _ o | .sra _ o | .rotl _ o | .clz _ o | .ctz _ o | .pop _ o
  | .ffs _ o | .min _ o | .minu _ o | .max _ o | .maxu _ o | .seq _ o | .sne _ o | .slt _ o | .sltu _ o | .sext _ o
  | .zext _ o | .mov _ o | .gcmp _ o | .gcmpLe _ o => useS o.a.toNat ++ useS o.b.toNat
  | .sel _ o => useS o.a.toNat ++ useS o.b.toNat ++ useS o.c.toNat
  | .amovAS _ o => useS o.a.toNat
  | .amovSA _ o | .amovAA _ o => useA (o.a.toNat % 16)
  | .gand _ o | .gor _ o => useG (o.a.toNat % 16) ++ useG (o.b.toNat % 16)
  | .gnot _ o => useG (o.a.toNat % 16)
  | .bfi _ o => useS o.a.toNat ++ useS o.d.toNat
  | .lea _ o => useA (o.a.toNat % 16)
  | .bfx _ o | .lih _ o | .addImm _ o | .andImm _ o | .orImm _ o | .xorImm _ o | .shlImm _ o | .shrImm _ o | .sraImm _ o
  | .rotlImm _ o | .mulImm _ o | .minImm _ o | .maxImm _ o | .sltImm _ o | .sltuImm _ o | .seqImm _ o
  | .sneImm _ o => useS o.a.toNat
  | .ld _ o | .ldu _ o | .vld _ o | .ldt _ o | .vldt _ o | .tchase _ o => o.useBase
  | .st _ o | .aadd _ o | .aand _ o | .aor _ o | .axor _ o | .amin _ o | .amax _ o | .aminu _ o | .amaxu _ o
  | .afadd _ o | .axchg _ o => o.useBase ++ useS o.d.toNat
  | .acas _ o => o.useBase ++ useS o.d.toNat ++ useS (o.d.toNat + 1)
  | .vst _ o => o.useBase ++ useV o.d.toNat
  | .vadd _ o | .vsub _ o | .vmul _ o | .vmin _ o | .vmax _ o | .vand _ o | .vor _ o | .vxor _ o | .vcmp _ o
  | .vperm _ o | .vshuf _ o => useV o.a.toNat ++ useV o.breg ++ o.useFmt
  | .vfma _ o | .vfms _ o | .vnfma _ o | .vsel _ o => useV o.a.toNat ++ useV o.breg ++ useV o.c.toNat ++ o.useFmt
  | .vshl _ o | .vshr _ o | .vsra _ o =>
    useV o.a.toNat ++ (if o.sub.getLsbD 0 then [] else useV o.breg) ++ o.useFmt
  | .vabs _ o | .vneg _ o | .vbcast _ o | .vrot _ o | .vext _ o | .vmov _ o | .vredsum _ o | .vredmax _ o
  | .vredmin _ o | .vscan _ o | .vexp2 _ o | .vlog2 _ o | .vrcp _ o | .vrsqrt _ o | .vsqrt _ o | .vclz _ o
  | .vpop _ o | .vcvt _ o | .vmaxe _ o => useV o.a.toNat ++ o.useFmt
  | .vqcvt _ o => useV o.a.toNat ++ o.useFmt ++ useQl slot
  | .vsplat _ o => useS o.a.toNat ++ o.useFmt
  | .vins _ o => useS o.a.toNat ++ useV o.d.toNat ++ o.useFmt
  | .vpack _ o | .vunpack _ o => useV o.a.toNat ++ useV o.d.toNat ++ o.useFmt
  | .mset _ o => useS o.d.toNat ++ [244]
  | .mget _ o => [208 + o.p.toNat, 244]
  | .mcall _ _ => [208, 209, 210, 211, 212, 213, 214, 215, 240, 244]
  | .mzero _ o => [208 + o.f.toNat % 8, 244]
  | .mrd _ o => useS o.a ++ [244]
  | .mwr _ o => useS o.a ++ useV o.d.toNat ++ [244]
  | .mwait _ _ | .mprov _ _ => [244]
  | .mpgm _ o => useA (o.f.toNat % 16) ++ [244]
  | .xdim _ o => useS o.d.toNat ++ [216 + o.xs.toNat, 245]
  | .xcopy _ o => useA o.da.toNat ++ useA o.sa.toNat ++ o.useShapes ++ [245]
  | .xgather _ o | .xscatter _ o =>
    useA o.da.toNat ++ useA o.sa.toNat ++ useA (o.d.toNat % 16) ++ o.useShapes ++ [245]
  | .xfill _ o => useA o.da.toNat ++ useS o.d.toNat ++ o.useShapes ++ [245]
  | .xwait _ _ | .ltime _ _ => [245]
  | .tmove _ o => useA o.da.toNat ++ useA o.sa.toNat ++ useS o.d.toNat ++ o.useSw ++ [245]
  | .tstat _ o => useA o.sa.toNat ++ [245]
  | .tsweep _ o => useA o.da.toNat ++ useS o.d.toNat ++ o.useSw ++ [245]
  | .tunmark _ o | .tunmarkF _ o => useA o.da.toNat ++ o.useSw ++ [245]
  | .lsend _ o => useA o.da.toNat ++ useA o.sa.toNat ++ useS o.d.toNat ++ [245]
  | .lrecv _ o => useS o.d.toNat ++ [245]
  | .lred _ o => useA o.da.toNat ++ useA o.sa.toNat ++ [240, 245]
  | .nclr _ _ => [243]
  | .nmerge _ o => useV o.a.toNat ++ useS o.b.toNat ++ [243]
  | .nmergeP _ o | .nsort _ o | .nsortI _ o | .nhist _ o | .nhistM _ o | .nsampleShard _ o => useV o.a.toNat ++ [243]
  | .ntop _ o | .ntopK _ o | .ntopV _ o | .nkth _ o | .nthr _ o | .nthrP _ o | .nrngX _ o => useS o.a.toNat ++ [243]
  | .nmass _ o | .nhistSet _ o | .nrng _ o => useS o.a.toNat ++ useS o.b.toNat ++ [243]
  | .nhistRd _ _ | .nsampleTok _ _ | .nsave _ _ => [243]
  | _ => []

/-- What an operation writes (R32): `cgo` and `cend` start a round, which writes `s39` in every member (R309, R316). -/
def Instr.writes (slot : Nat) : Instr → List Nat
  | .call _ _ => useS 63
  | .cgo2 _ _ | .cgo4 _ _ | .cend _ _ => useS 39
  | .calli _ o | .wait _ o | .waitNb _ o | .bphase _ o => useS o.d.toNat
  | .ilock h o | .bwait h o => useS o.d.toNat ++ (if h.ext then useG (o.imm32.toNat % 16) else [])
  | .lidx _ o | .lidxC _ o | .csrr _ o => useS o.d.toNat
  | .csrw h o => useCsr (ciVal h o).toNat
  | .fmt _ _ => [240]
  | .sret _ _ => [60, 61, 62, 63]
  | .add _ o | .sub _ o | .mul _ o | .mulh _ o | .mulhu _ o | .div _ o | .divu _ o | .rem _ o | .remu _ o | .and _ o
  | .or _ o | .xor _ o | .andn _ o | .shl _ o | .shr _ o | .sra _ o | .rotl _ o | .clz _ o | .ctz _ o | .pop _ o
  | .ffs _ o | .min _ o | .minu _ o | .max _ o | .maxu _ o | .seq _ o | .sne _ o | .slt _ o | .sltu _ o | .sext _ o
  | .zext _ o | .mov _ o | .sel _ o | .amovSA _ o => useS o.d.toNat
  | .amovAS _ o | .amovAA _ o => useA (o.d.toNat % 16)
  | .gcmp _ o | .gcmpLe _ o | .gand _ o | .gor _ o | .gnot _ o => useG (o.d.toNat % 16)
  | .lea _ o => useA (o.d.toNat % 16)
  | .bfx _ o | .bfi _ o | .li _ o | .lih _ o | .addImm _ o | .andImm _ o | .orImm _ o | .xorImm _ o | .shlImm _ o
  | .shrImm _ o | .sraImm _ o | .rotlImm _ o | .mulImm _ o | .minImm _ o | .maxImm _ o | .sltImm _ o | .sltuImm _ o
  | .seqImm _ o | .sneImm _ o => useS o.d.toNat
  | .ld _ o | .ldu _ o | .ldt _ o | .tchase _ o => useS o.d.toNat ++ o.stepBase
  | .vld _ o | .vldt _ o => useV o.d.toNat ++ o.stepBase
  | .st _ o | .vst _ o => o.stepBase
  | .aadd _ o | .aand _ o | .aor _ o | .axor _ o | .amin _ o | .amax _ o | .aminu _ o | .amaxu _ o | .afadd _ o
  | .axchg _ o | .acas _ o => (if o.ret then useS o.d.toNat else []) ++ o.stepBase
  | .vadd _ o | .vsub _ o | .vmul _ o | .vfma _ o | .vfms _ o | .vnfma _ o | .vmin _ o | .vmax _ o | .vabs _ o
  | .vneg _ o | .vand _ o | .vor _ o | .vxor _ o | .vshl _ o | .vshr _ o | .vsra _ o | .vcmp _ o | .vsel _ o
  | .vsplat _ o | .vbcast _ o | .vperm _ o | .vshuf _ o | .vrot _ o | .vins _ o | .vmov _ o | .vredsum _ o
  | .vredmax _ o | .vredmin _ o | .vscan _ o | .vexp2 _ o | .vlog2 _ o | .vrcp _ o | .vrsqrt _ o | .vsqrt _ o
  | .vclz _ o | .vpop _ o | .vcvt _ o | .vqcvt _ o | .vpack _ o | .vunpack _ o => useV o.d.toNat
  | .vext _ o => useS o.d.toNat
  | .vmaxe _ o => useV o.d.toNat ++ useQl slot
  | .mset _ o => [208 + o.p.toNat, 244]
  | .mget _ o | .mprov _ o => useS o.d.toNat ++ [244]
  | .mcall _ _ | .mzero _ _ | .mpgm _ _ => [244]
  | .mrd _ o => useV o.d.toNat ++ [244]
  | .mwr _ _ | .mwait _ _ => [244]
  | .xdim _ o => [216 + o.xs.toNat, 245]
  | .xcopy _ o => o.stepped [o.da.toNat, o.sa.toNat] ++ [245]
  | .xgather _ o => o.stepped [o.da.toNat, o.d.toNat % 16] ++ [245]
  | .xscatter _ o => o.stepped [o.d.toNat % 16, o.sa.toNat] ++ [245]
  | .xfill _ o => o.stepped [o.da.toNat] ++ [245]
  | .xwait _ o | .tstat _ o | .ltime _ o => useS o.d.toNat ++ [245]
  | .tmove _ _ | .tsweep _ _ | .tunmark _ _ | .tunmarkF _ _ | .lsend _ _ | .lrecv _ _ | .lred _ _ => [245]
  | .nclr _ _ | .nmerge _ _ | .nmergeP _ _ | .nhist _ _ | .nhistM _ _ | .nhistSet _ _ | .nrng _ _ => [243]
  | .nsort _ o | .nsortI _ o | .nhistRd _ o | .nsave _ o => useV o.d.toNat ++ [243]
  | .ntop _ o | .ntopK _ o | .ntopV _ o | .nkth _ o | .nmass _ o | .nthr _ o | .nthrP _ o | .nrngX _ o
  | .nsampleTok _ o | .nsampleShard _ o => useS o.d.toNat ++ [243]
  | _ => []

/-- What an operation reads, its guard included. -/
def Instr.reads (slot : Nat) (i : Instr) : List Nat := (i.hdr?.getD {}).use ++ i.reads1 slot

/-- The N operations that read unit state (R265). -/
def Instr.readsUnit : Instr → Bool
  | .ntop _ _ | .ntopK _ _ | .ntopV _ _ | .nkth _ _ | .nmass _ _ | .nhist _ _ | .nhistM _ _ | .nhistSet _ _ | .nhistRd _ _
  | .nthr _ _ | .nthrP _ _ | .nrngX _ _ | .nsampleTok _ _ | .nsampleShard _ _ | .nsave _ _ => true
  | _ => false

/-- What an operation waits for under `ILK` (R37): what it reads, and of the unit's pending changes only a reader of unit
state, a `csrr` of `NCTL` among them (R264, R276). The conversions read VA whatever their FO and RM hold (R68, R71, R186). -/
def Instr.waitsFor (slot : Nat) (i : Instr) : List Nat :=
  (i.reads slot).filter (fun x => x != 243 || i.readsUnit) ++
    (match i with
      | .csrr h o => if (ciVal h o).toNat = 0x00A then [243] else []
      | .vcvt _ _ | .vqcvt _ _ => [240]
      | _ => [])

/-! ### Classes -/

def Instr.isGcmp : Instr → Bool
  | .gcmp _ _ | .gcmpLe _ _ => true
  | _ => false

/-- OPC 0 of a slot (R41). -/
def Instr.isNop : Instr → Bool
  | .nop _ _ | .nopS _ _ | .nopL _ _ | .nopV _ _ | .nopM _ _ | .nopX _ _ | .nopN _ _ => true
  | _ => false

/-- The operations that can transfer control (R31). DEDUCED (log 6). -/
def Instr.transfers : Instr → Bool
  | .br _ _ | .bri _ _ | .call _ _ | .calli _ _ | .ret _ _ | .brk _ _ | .next _ _ | .halt _ _ | .trap _ _ | .sret _ _
  | .cend _ _ => true
  | _ => false

/-- The transfers that a bundle with repeats may not hold (R90). -/
def Instr.noRepeat : Instr → Bool
  | .br _ _ | .bri _ _ | .call _ _ | .calli _ _ | .ret _ _ | .brk _ _ | .next _ _ | .halt _ _ => true
  | _ => false

/-- The operations of a carry loop (R307). -/
def Instr.carryOp : Instr → Bool
  | .cgo2 _ _ | .cgo4 _ _ | .cguess _ _ | .cchk _ _ | .cend _ _ => true
  | _ => false

/-- What members 1 to 3 of a wide bundle may not hold in C (R90, R307). The transfers are those that R90 lists; DEDUCED. -/
def Instr.leadOnly : Instr → Bool
  | .loop _ _ | .loopv _ _ | .lidx _ _ | .lidxC _ _ | .mark _ _ | .ppt _ _ | .fuse2 _ _ | .fuse4 _ _ | .decouple _ _
  | .rejoin2 _ _ | .rejoin4 _ _ => true
  | i => i.noRepeat || i.carryOp

/-- Privileged operations (R42, R224, R285, R356). -/
def Instr.privileged : Instr → Bool
  | .sret _ _ | .invqC _ _ | .invqE _ _ | .invqN _ _ | .mpgm _ _ | .tunmark _ _ | .tunmarkF _ _ => true
  | _ => false

/-- The forms of `nhist` (R265). -/
def Instr.isHist : Instr → Bool
  | .nhist _ _ | .nhistM _ _ | .nhistSet _ _ | .nhistRd _ _ => true
  | _ => false

/-- What a bundle of the guess routine may hold (R311); `cchk` and `cend` are judged when they issue (R407). -/
def Instr.guessOk (i : Instr) : Bool :=
  match i with
  | .cguess _ _ | .cchk _ _ | .cend _ _ | .ld _ _ | .ldu _ _ | .vld _ _ | .ldt _ _ | .vldt _ _ | .mget _ _ => true
  | .vmaxe _ _ => false
  | _ => i.isNop || i.slot? == some .s || i.slot? == some .v

/-- What a bundle of the body may not hold in any member (R312); `cguess` and `cchk` are judged when they issue
(R407). -/
def Instr.bodyBad : Instr → Bool
  | .br _ _ | .bri _ _ | .call _ _ | .calli _ _ | .ret _ _ | .loop _ _ | .loopv _ _ | .brk _ _ | .next _ _ | .mark _ _
  | .ppt _ _ | .halt _ _ | .fuse2 _ _ | .fuse4 _ _ | .decouple _ _ | .rejoin2 _ _ | .rejoin4 _ _ | .cgo2 _ _
  | .cgo4 _ _ => true
  | _ => false

/-- What a speculative member may not perform (R312), the place of a store apart. DEDUCED (log 63). -/
def Instr.notSpec (i : Instr) : Bool :=
  (match i.hdr? with | some h => h.arr | none => false) ||
  (match i with
    | .nopM _ _ | .mget _ _ | .mrd _ _ | .nopX _ _ => false
    | .nsort _ _ | .nsortI _ _ | .ntop _ _ | .ntopK _ _ | .ntopV _ _ | .nsave _ _ | .nsampleTok _ _ | .nsampleShard _ _
    | .nrngX _ _ | .nopN _ _ => false
    | .aadd _ _ | .aand _ _ | .aor _ _ | .axor _ _ | .amin _ _ | .amax _ _ | .aminu _ _ | .amaxu _ _ | .afadd _ _
    | .axchg _ _ | .acas _ _ | .fence _ _ | .drain _ _ | .vmaxe _ _ | .spawn _ _ | .wset _ _ | .wait _ _ | .waitNb _ _
    | .arrive _ _ | .sstep _ _ | .csrw _ _ | .fmt _ _ | .ilock _ _ | .iunlock _ _ | .invqC _ _ | .invqE _ _
    | .invqN _ _ => true
    | _ => i.slot? == some .m || i.slot? == some .x || i.slot? == some .n)

/-- The operations that may have their effect out of the order of their group: those that neither look back at the bundles
before them nor hold back those behind them (R33, R98; log 32, DEDUCED). -/
def Instr.unordered (i : Instr) : Bool :=
  match i with
  | .fence _ _ | .drain _ _ | .sstep _ _ | .halt _ _ | .mark _ _ | .ppt _ _ | .fuse2 _ _ | .fuse4 _ _ | .decouple _ _
  | .rejoin2 _ _ | .rejoin4 _ _ | .invqC _ _ | .invqE _ _ | .invqN _ _ | .sret _ _ | .dstop _ _ | .csrr _ _ | .csrw _ _
  | .gcol _ _ | .gcolT _ _ | .gcolF _ _ | .spawn _ _ | .trap _ _ => false
  | _ => true

/-- The operations whose data takes a porch entry (R142, R153, R242). -/
def Instr.porch : Instr → Bool
  | .ldt _ _ | .vldt _ _ | .tchase _ _ | .axchg _ _ | .acas _ _ => true
  | .aadd _ o | .aand _ o | .aor _ o | .axor _ o | .amin _ o | .amax _ o | .aminu _ o | .amaxu _ o | .afadd _ o => o.ret
  | _ => false

/-- The operations that wait for nothing but their own context's earlier bundles: what other contexts do meanwhile makes none wait. -/
def Instr.steady (i : Instr) : Bool :=
  i.isNop || i.slot? == some .s || i.slot? == some .v || (i.slot? == some .l && !i.porch) ||
    (match i with
      | .loop _ _ | .loopv _ _ | .lidx _ _ | .lidxC _ _ | .br _ _ | .bri _ _ | .call _ _ | .calli _ _ | .ret _ _ | .brk _ _
      | .next _ _ | .arrive _ _ | .pfn _ _ | .fmt _ _ => true
      | _ => false)

/-- The operations whose results still due can fall due later with the bundles before them: they write scalar, address and vector
registers and memory only, and use no divider (log 32, DEDUCED). -/
def Instr.shifts (slot : Nat) (i : Instr) : Bool :=
  i.isNop || ((i.slot? == some .s || i.slot? == some .v || i.slot? == some .l) && (i.writes slot).all (fun r => decide (r < 192)) &&
    (match i with | .div _ _ | .divu _ _ | .rem _ _ | .remu _ _ => false | _ => true))

/-- What operations of the C slot share besides registers: 1 the loop stack, 2 the comparators, 3 the barriers, 4 the locks. -/
def Instr.realm (i : Instr) : Option Nat :=
  match i with
  | .loop _ _ | .loopv _ _ | .brk _ _ | .next _ _ | .lidx _ _ | .lidxC _ _ => some 1
  | .wset _ _ | .wait _ _ | .waitNb _ _ => some 2
  | .arrive _ _ | .bwait _ _ | .bphase _ _ | .bset _ _ | .bsetS _ _ => some 3
  | .ilock _ _ | .iunlock _ _ => some 4
  | _ => none

/-! ### Sticky slots (R38, R39) -/

/-- ST of an operation. -/
def Instr.sticky : Instr → Bool
  | .ld _ o | .ldu _ o | .st _ o | .vld _ o | .vst _ o | .ldt _ o | .vldt _ o | .aadd _ o | .aand _ o | .aor _ o
  | .axor _ o | .amin _ o | .amax _ o | .aminu _ o | .amaxu _ o | .afadd _ o | .axchg _ o | .acas _ o
  | .tchase _ o => o.st
  | .vadd _ o | .vsub _ o | .vmul _ o | .vfma _ o | .vfms _ o | .vnfma _ o | .vmin _ o | .vmax _ o | .vabs _ o
  | .vneg _ o | .vand _ o | .vor _ o | .vxor _ o | .vshl _ o | .vshr _ o | .vsra _ o | .vcmp _ o | .vsel _ o
  | .vsplat _ o | .vbcast _ o | .vperm _ o | .vshuf _ o | .vrot _ o | .vext _ o | .vins _ o | .vmov _ o
  | .vredsum _ o | .vredmax _ o | .vredmin _ o | .vscan _ o | .vexp2 _ o | .vlog2 _ o | .vrcp _ o | .vrsqrt _ o
  | .vsqrt _ o | .vclz _ o | .vpop _ o | .vcvt _ o | .vmaxe _ o | .vqcvt _ o | .vpack _ o | .vunpack _ o => o.st
  | .xcopy _ o | .xgather _ o | .xscatter _ o | .xfill _ o => o.st
  | _ => false

/-- The register fields that SM selects move by VSTEP, modulo 64. -/
def VOp.moved (o : VOp) : VOp :=
  let d : BitVec 6 := o.vstep.signExtend 6
  let b : BitVec 6 := (bbit o.b5 ++ o.b) + d
  { o with
    d := if o.sm.getLsbD 2 then o.d + d else o.d,
    a := if o.sm.getLsbD 1 then o.a + d else o.a,
    b := if o.sm.getLsbD 0 then bits b 0 5 else o.b,
    b5 := if o.sm.getLsbD 0 then bit b 5 else o.b5 }

/-- The operation as its next re-issue runs it: an L or X operation moves its base through the register itself. -/
def Instr.advanced : Instr → Instr
  | .vadd h o => .vadd h o.moved
  | .vsub h o => .vsub h o.moved
  | .vmul h o => .vmul h o.moved
  | .vfma h o => .vfma h o.moved
  | .vfms h o => .vfms h o.moved
  | .vnfma h o => .vnfma h o.moved
  | .vmin h o => .vmin h o.moved
  | .vmax h o => .vmax h o.moved
  | .vabs h o => .vabs h o.moved
  | .vneg h o => .vneg h o.moved
  | .vand h o => .vand h o.moved
  | .vor h o => .vor h o.moved
  | .vxor h o => .vxor h o.moved
  | .vshl h o => .vshl h o.moved
  | .vshr h o => .vshr h o.moved
  | .vsra h o => .vsra h o.moved
  | .vcmp h o => .vcmp h o.moved
  | .vsel h o => .vsel h o.moved
  | .vsplat h o => .vsplat h o.moved
  | .vbcast h o => .vbcast h o.moved
  | .vperm h o => .vperm h o.moved
  | .vshuf h o => .vshuf h o.moved
  | .vrot h o => .vrot h o.moved
  | .vext h o => .vext h o.moved
  | .vins h o => .vins h o.moved
  | .vmov h o => .vmov h o.moved
  | .vredsum h o => .vredsum h o.moved
  | .vredmax h o => .vredmax h o.moved
  | .vredmin h o => .vredmin h o.moved
  | .vscan h o => .vscan h o.moved
  | .vexp2 h o => .vexp2 h o.moved
  | .vlog2 h o => .vlog2 h o.moved
  | .vrcp h o => .vrcp h o.moved
  | .vrsqrt h o => .vrsqrt h o.moved
  | .vsqrt h o => .vsqrt h o.moved
  | .vclz h o => .vclz h o.moved
  | .vpop h o => .vpop h o.moved
  | .vcvt h o => .vcvt h o.moved
  | .vmaxe h o => .vmaxe h o.moved
  | .vqcvt h o => .vqcvt h o.moved
  | .vpack h o => .vpack h o.moved
  | .vunpack h o => .vunpack h o.moved
  | i => i

/-- The width field of a V operation. -/
def Instr.vw : Instr → Nat
  | .vadd _ o | .vsub _ o | .vmul _ o | .vfma _ o | .vfms _ o | .vnfma _ o | .vmin _ o | .vmax _ o | .vabs _ o
  | .vneg _ o | .vand _ o | .vor _ o | .vxor _ o | .vshl _ o | .vshr _ o | .vsra _ o | .vcmp _ o | .vsel _ o
  | .vsplat _ o | .vbcast _ o | .vperm _ o | .vshuf _ o | .vrot _ o | .vext _ o | .vins _ o | .vmov _ o
  | .vredsum _ o | .vredmax _ o | .vredmin _ o | .vscan _ o | .vexp2 _ o | .vlog2 _ o | .vrcp _ o | .vrsqrt _ o
  | .vsqrt _ o | .vclz _ o | .vpop _ o | .vcvt _ o | .vmaxe _ o | .vqcvt _ o | .vpack _ o | .vunpack _ o => o.w.toNat
  | _ => 0

/-! ### Units (R97) -/

/-- The units that an operation of a slot occupies: 0 C, 1 S, 2 L, 5 M, 6 X, 7 N, and 8 + g for lane group g, taken by
context A from the lowest group of the slot, by B from the highest. -/
def Instr.units (b : Bool) (slot : Nat) (i : Instr) : List Nat :=
  if slot = 3 ∨ slot = 4 then
    let n := 2 ^ i.vw
    let lo := if slot = 3 then 8 else 12
    Machine.upTo (if b then lo + 4 - n else lo) n
  else [slot]

end Sys2Proof
end

