-- ==== Sys2Proof/Machine/Group.lean ====
section
/-! DEFINITION. The next issue group of a context: its assembly (R25 to R27, R31), the checks of R41 and of the group
rules (R31, R32, R38, R90, R94, R307, R311, R312), and ISSUE_GROUP. -/

namespace Sys2Proof

/-- Whether member `j` of a fused machine runs operations of a bundle that name member `k` (R25). -/
def BHdr.runs (b : BHdr) (j k : Nat) : Bool :=
  if b.hk == 0 then j == 0 else if b.hk == 1 then j == k else true

/-- A header that does not say how long its bundle is (R24 to R26). -/
def RawBundle.endless (width : Nat) (b : RawBundle) : Bool := b.hdr.hk == 3 || (b.hdr.hk == 1 && decide (width ≤ 1))

/-- The checks of the header alone (R24, R25). -/
def RawBundle.hdrBad (width : Nat) (b : RawBundle) : Bool :=
  b.hdr.hk == 3 || (b.hdr.hk != 0 && decide (width ≤ 1)) || (b.hdr.hk == 1 && b.pad != 0)

/-- The legal operations that member `j` runs, with their slots. -/
def RawBundle.opsOf (j : Nat) (b : RawBundle) : List (Nat × Instr) :=
  b.ops.filterMap (fun o =>
    match o.dec with
    | .ok i => if b.hdr.runs j o.member then some (o.slot, i) else none
    | _ => none)

/-- Where an operation may not stand: in C of members 1 to 3 (R90, R307), or as a carry operation
in a bundle without STOP or with repeats (R307). -/
def Instr.misplaced (h : BHdr) (member slot : Nat) (i : Instr) : Bool :=
  (slot == 0 && h.hk == 1 && decide (1 ≤ member) && i.leadOnly) || (i.carryOp && (!h.stop || h.rep != 0))

def Instr.isGuess : Instr → Bool
  | .cguess _ _ => true
  | _ => false
def Instr.isCchk : Instr → Bool
  | .cchk _ _ => true
  | _ => false

/-- What a `csrw` writes, and where (R341). -/
def Instr.csrwOf : Instr → Option (Nat × Nat)
  | .csrw h o => some ((ciVal h o).toNat, o.d.toNat)
  | _ => none

/-- Two sets of state codes meet. -/
def meets (a b : List Nat) : Bool := a.any (fun x => b.contains x)

/-- Two operations of a group touch one piece of state that one of them writes (R32). -/
def opsClash (x y : Nat × Instr) : Bool :=
  meets (x.2.writes x.1) (y.2.reads y.1 ++ y.2.writes y.1) || meets (y.2.writes y.1) (x.2.reads x.1)

def anyClash : List (Nat × Instr) → Bool
  | [] => false
  | x :: l => l.any (opsClash x) || anyClash l

end Sys2Proof

namespace Sys2Proof.Machine

/-- The address registers that an armed operation is based on. -/
def Sticky.bases (x : Sticky) : List Nat := (x.i.reads1 x.slot).filter (fun r => decide (64 ≤ r ∧ r < 80))

/-- An operation writes the base of an armed slot (R32). -/
def baseClash (xs : List Sticky) (ops : List (Nat × Instr)) : Bool :=
  xs.any (fun x => ops.any (fun o => meets (o.2.writes o.1) x.bases))

/-! ### Assembly -/

/-- The bundles of the group at an address, up to STOP, the fourth bundle or a header that gives its bundle no length (R31).
DEDUCED (log 58). -/
def State.assemble (s : State) (n width va : Nat) : Nat → List (Nat × RawBundle)
  | 0 => []
  | k + 1 =>
    let b := s.codeAt n va width
    (va, b) :: (if b.hdr.stop || b.endless width then [] else s.assemble n width (va + b.len) k)

/-- The first bundle with a byte that cannot be fetched, the code and the byte's address (R27). -/
def State.fetchBad (s : State) (n : Nat) : List (Nat × RawBundle) → Option (Nat × TrapCode × Nat)
  | [] => none
  | (va, b) :: l =>
    match s.codeFault n va b.len with
    | some (code, ea) => some (va, code, ea)
    | none => s.fetchBad n l

/-- The address after a group. -/
def groupEnd (va : Nat) (bs : List (Nat × RawBundle)) : Nat :=
  match bs.getLast? with
  | some (a, b) => a + b.len
  | none => va

/-- The target of a transfer in a bundle at `ba` with nominal count `t`, as far as it is known when the bundle is fetched
(R91, R95). -/
def Ctx.targetOf (c : Ctx) (ba t : Nat) (i : Instr) : Option Nat :=
  let rel := fun (d : Word) => some (BitVec.ofNat 64 ba + 2 * d).toNat
  let reg := fun (r : Nat) =>
    match c.sAt r t with
    | [a] => if a.ref.isNone then some a.val.v.toNat else none
    | _ => none
  match i with
  | .br h p => rel (p.dist h)
  | .call h p => rel (p.dist h)
  | .cend h p => rel (p.dist h)
  | .bri _ o => reg o.a.toNat
  | .calli _ o => reg o.a.toNat
  | .ret _ o => reg o.a.toNat
  | .brk h o => ((c.loops.drop (o.val h % 8 - 1)).head?).map (fun l => l.stop)
  | .next h o => (loopEnd c.issued (c.loops.drop (o.val h % 8 - 1))).2.1
  | _ => none

/-- The target that a bundle asks to prefetch (R24, R92). -/
def Ctx.hintOf (c : Ctx) (ba t : Nat) (b : RawBundle) : List Nat :=
  if b.hdr.hint == 1 then
    b.ops.filterMap (fun o =>
      match o.dec with
      | .ok i => if o.slot == 0 then c.targetOf ba t i else none
      | _ => none)
  else []

def Ctx.hintsOf (c : Ctx) (t : Nat) : List (Nat × RawBundle) → List Nat
  | [] => []
  | (ba, b) :: l => c.hintOf ba t b ++ c.hintsOf (t + 1) l

/-! ### Checks -/

/-- A trap of R41 in the frame's terms (R344): BA the failing bundle, RA the group's first. -/
def State.groupTrap (s : State) (n ra ba : Nat) (code : TrapCode) (slot : Nat) (i0 i1 : Word) : TrapRec :=
  { code := code, slot := slot, ba := ba, ra := ra, info0 := i0, info1 := i1, scy := (s.ctx n).scy }

/-- An operation that a context's mode forbids (R42, R265). -/
def Instr.denied (c : Ctx) (i : Instr) : Bool := (i.privileged && !c.lvl) || (i.isHist && !c.nunit.exact)

/-- The one value of a scalar at a count, where it is known. -/
def Ctx.sKnown (c : Ctx) (r t : Nat) : Option SVal :=
  match c.sAt r t with
  | [a] => if a.ref.isNone then some a.val else none
  | _ => none

/-- A `csrw` of a privileged register by an unprivileged member traps at its group, whatever its guard: with
`ILLEGAL_ENCODING` where the value that its source has at the bundle's count sets a reserved bit (R7, R41). A member whose
source is not known yet is judged when the bundle issues (`State.csrwStops`; log 36, DEDUCED). -/
def State.csrwDenied (s : State) (ms : List Nat) (i : Instr) (t : Nat) : Option (List Nat × Bool × Nat) :=
  match i.csrwOf with
  | none => none
  | some (num, r) =>
    let p := if csrPriv num then ms.filter (fun m => !(s.ctx m).lvl && ((s.ctx m).sKnown r t).isSome) else []
    let q := p.filter (fun m => ((s.ctx m).sKnown r t).any (fun v => v.p == 0 && v.f.isNone && csrSets num v.v))
    if !q.isEmpty then some (q, true, num) else if p.isEmpty then none else some (p, false, num)

/-- The check of one operation (R41) of a bundle with nominal count `t`: the members that trap, and the trap. -/
def State.checkOp (s : State) (n ra ba t : Nat) (h : BHdr) (o : RawOp) : Option (List Nat × TrapRec) :=
  let ms := s.membersOf n
  let who := if h.hk == 2 then ms else [ms.getD o.member n]
  let rec' := fun (code : TrapCode) (i1 : Word) => s.groupTrap n ra ba code o.slot (o.w0.setWidth 64) i1
  match o.dec with
  | .illegalOpcode => some (who, rec' .illegalOpcode (o.x.setWidth 64))
  | .illegalEncoding => some (who, rec' .illegalEncoding (o.x.setWidth 64))
  | .ok i =>
    if i.misplaced h o.member o.slot then some (who, rec' .illegalEncoding (o.x.setWidth 64))
    else
      match s.csrwDenied who i t with
      | some (p, true, _) => some (p, rec' .illegalEncoding (o.x.setWidth 64))
      | some (p, false, num) => some (p, rec' .privilege (BitVec.ofNat 64 num))
      | none =>
        let p := who.filter (fun m => Instr.denied (s.ctx m) i)
        if p.isEmpty then none else some (p, rec' .privilege 0)

/-- The first failure among operations. -/
def State.checkOps (s : State) (n ra ba t : Nat) (h : BHdr) : List RawOp → Option (List Nat × TrapRec)
  | [] => none
  | o :: l =>
    match s.checkOp n ra ba t h o with
    | some f => some f
    | none => s.checkOps n ra ba t h l

/-- The first failure among bundles: header, then operations (R41). The first bundle has count `t`. -/
def State.checkBundles (s : State) (n ra width t : Nat) : List (Nat × RawBundle) → Option (List Nat × TrapRec)
  | [] => none
  | (ba, b) :: l =>
    if b.hdrBad width then some ([n], s.groupTrap n ra ba .illegalEncoding 0 (b.hdr.word.setWidth 64) 0)
    else
      match s.checkOps n ra ba t b.hdr b.ops with
      | some f => some f
      | none => s.checkBundles n ra width (t + 1) l

/-- A bundle breaks the rule of the loop end (R94): it runs past the body end, or ends there without STOP. -/
def Level.broken (l : Level) (ba : Nat) (b : RawBundle) : Bool :=
  !l.carry && decide (ba < l.stop) && (decide (l.stop < ba + b.len) || (decide (ba + b.len = l.stop) && !b.hdr.stop))

/-- What a bundle of a carry round may not hold, in any member (R311, R312). -/
def CarryL.broken (l : CarryL) (ms : List Nat) (b : RawBundle) : Bool :=
  let all := (upTo 0 ms.length).flatMap (fun j => b.opsOf j)
  let regs := l.sRegs ++ l.vRegs.map (fun r => 128 + r)
  l.on && (
    if l.phase = 0 ∨ l.phase = 3 then
      all.any (fun o => !o.2.guessOk) ||
        (all.any (fun o => o.2.isGuess) &&
          all.any (fun o => meets (o.2.writes o.1) regs))
    else all.any (fun o => o.2.bodyBad))

/-- `cchk` writes the carry registers of every member (R314): no other operation of its group reads or writes one (R32). -/
def CarryL.clash (l : CarryL) (bs : List (Nat × RawBundle)) (ops : List (Nat × Instr)) : Bool :=
  l.on && bs.any (fun b => (b.2.opsOf 0).any (fun o => o.2.isCchk)) &&
    ops.any (fun o => !o.2.isCchk && meets (l.sRegs ++ l.vRegs.map (fun r => 128 + r)) (o.2.reads o.1 ++ o.2.writes o.1))

/-- The group rules of R31 that concern the whole machine. -/
def State.groupBad (s : State) (n : Nat) (bs : List (Nat × RawBundle)) : Bool :=
  let ms := s.membersOf n
  let c := s.ctx n
  let top := c.loops.head?
  !(bs.getLast?.any (fun b => b.2.hdr.stop)) ||
  bs.dropLast.any (fun b => b.2.ops.any (fun o => o.slot == 0 && (match o.dec with | .ok i => i.transfers | _ => false))) ||
  bs.any (fun b => b.2.hdr.rep != 0 && (decide (1 < bs.length) ||
    b.2.ops.any (fun o => match o.dec with | .ok i => i.noRepeat | _ => false))) ||
  bs.any (fun b => top.any (fun l => l.broken b.1 b.2)) ||
  (upTo 0 ms.length).any (fun j =>
    let ops := bs.flatMap (fun b => b.2.opsOf j)
    anyClash ops || c.cloop.clash bs ops || baseClash (s.ctx (ms.getD j n)).sticky ops)

/-- The first failure of a group: the members that trap, and the trap (R41). A rule of the group counts in member 0, one of
a carry round in every member (log 33, DEDUCED). -/
def State.checkGroup (s : State) (n va width : Nat) (bs : List (Nat × RawBundle)) : Option (List Nat × TrapRec) :=
  let t := s.groupTrap n va va .illegalEncoding 0 0 0
  match s.checkBundles n va width (s.ctx n).ic bs with
  | some f => some f
  | none =>
    if s.groupBad n bs then some ([n], t)
    else if bs.any (fun b => (s.ctx n).cloop.broken (s.membersOf n) b.2) then some (s.membersOf n, t)
    else none

/-! ### ISSUE_GROUP -/

/-- A trap reported to several contexts. -/
def State.reportTo (s : State) (t : TrapRec) : List Nat → State
  | [] => s
  | n :: l => (s.onCtx n (fun c => c.report t)).reportTo t l

/-- A checked group is ready to issue. -/
def State.takeGroup (s : State) (n va : Nat) (bs : List (Nat × RawBundle)) : State :=
  let gs := bs.map (fun b => GBundle.mk b.1 b.2.len b.2.hdr b.2.ops (b.2.hdr.rep.toNat + 1) none false)
  let pf := ((s.ctx n).hintsOf (s.ctx n).ic bs).map (fun a => (Instr.icacheFill, ({ n := n, addr := a } : EvArg)))
  { s.onCtx n (fun c => { c with group := gs, gaddr := va, gnext := groupEnd va bs }) with todo := s.todo ++ pf }

/-- The bundles of the group at `va` that were assembled before a fetch fault: fetch goes on behind them (R369). -/
def Ctx.assembled (c : Ctx) (va : Nat) : List (Nat × RawBundle) :=
  match c.part with
  | some (a, bs) => if a = va then bs else []
  | none => []

/-- The next group of context `n` is assembled and checked (R27, R31, R41). A not-present page stalls fetch
(`FETCH_FAULT`), and the bundles before it stay assembled; every other failure is reported. -/
def State.issueGroup (s : State) (n : Nat) : State :=
  let va := (s.ctx n).pc
  let w := (s.ctx n).fuseW
  let trap := fun (ba : Nat) (code : TrapCode) (ea : Nat) =>
    s.groupTrap n va ba code 0 (BitVec.ofNat 64 ea) 0
  if va % 2 = 1 then s.onCtx n (fun c => c.report (trap va .fetchAlign va))
  else
    let old := (s.ctx n).assembled va
    let at' := groupEnd va old
    let s1 := (s.evict n (linesOf at' 1048)).onCtx n (fun c => { c with part := none })
    let new := s1.assemble n w at' (4 - old.length)
    let bs := old ++ new
    match s1.fetchBad n new with
    | some (ba, code, ea) =>
      if code.toBuffer then
        let s2 := (s1.fillLines n (linesOf va (ba - va))).onCtx n (fun c =>
          { c with part := some (va, bs.takeWhile (fun b => b.1 != ba)) })
        { s2 with todo := s2.todo ++ [(.fetchFault, { n := n, addr := ea, v := BitVec.ofNat 64 ba, idx := code.num })] }
      else s1.onCtx n (fun c => c.report (trap ba code ea))
    | none =>
      let s2 := s1.fillLines n (linesOf va (groupEnd va bs - va))
      match s2.checkGroup n va w bs with
      | some (ms, t) => s2.reportTo t ms
      | none => s2.takeGroup n va bs

/-- ISSUE_GROUP (R31): the next group of context `ev.n` is assembled and checked, whole, before its first bundle
issues. -/
def execIssueGroup (s : State) : Host.Outcome State Fault Refusal := .next (s.issueGroup s.ev.n)

/-- FETCH_FAULT (R27, R368): the fault of byte `ev.addr` of the bundle at `ev.v` is posted, and fetch stalls. Its code is `ev.idx`: a page
fault, or a fourth mark (R293; log 113, DEDUCED). -/
def execFetchFault (s : State) : Host.Outcome State Fault Refusal :=
  .next (
    let n := s.ev.n
    let z := s.postFault (if s.ev.idx = 0x31 then 0x31 else 0x30) n 1 0 false s.ev.addr s.ev.v.toNat 0
    z.1.onCtx n (fun c => { c with hold := .fetch z.2 }))

/-- ICACHE_FILL (R27, R369): the line of `ev.addr` is filled for context `ev.n`. -/
def execIcacheFill (s : State) : Host.Outcome State Fault Refusal := .next (s.fillLine s.ev.n s.ev.addr)

/-- An empty bundle (R26): it issues nothing new; the armed slots are re-issued with it. -/
def execEmptyBundle (_stop : Bool) (_rep : BitVec 3) (_hint : BitVec 2) (s : State) : Host.Outcome State Fault Refusal :=
  .next s

end Sys2Proof.Machine
end

