-- ==== Sys2Proof/Machine/Issue.lean ====
section
/-! DEFINITION. The issue of bundles (R19, R21, R31 to R40, R97 to R105, R116, R120 to R133, R142, R359): what a context
does in one cycle. The meanings of instructions come in as `ex`. -/

namespace Sys2Proof.Machine

abbrev Out := Host.Outcome State Fault Refusal
/-- The meanings of the instructions. -/
abbrev Exec := Instr → State → Out

/-- Go on from a next state. -/
def andThen (o : Out) (f : State → Out) : Out := match o with | .next s => f s | x => x

/-- An event with its arguments. -/
def State.event (s : State) (ex : Exec) (i : Instr) (a : EvArg) : Out := ex i { s with ev := a }

/-! ### Who may issue -/

/-- A context waits on a fault that is not done (R27, R354). -/
def State.holding (s : State) (c : Ctx) : Bool :=
  match c.hold with
  | .none => false
  | .fetch f => s.faultOpen f
  | .data f => s.faultOpen f

/-- A context that waits for its fault to be posted freezes its core (R352). -/
def State.holdsCore (s : State) (c : Ctx) : Bool :=
  match c.hold with
  | .none => false
  | .fetch f => s.faultUnposted f
  | .data f => s.faultUnposted f

/-- A correctable-error freeze holds a core in the cycles after its first error's, to the end of its last one (R20, R149). -/
def Core.eccFrozen (d : Core) (cyc : Nat) : Bool := decide (d.eccUntil ≠ 0 ∧ d.eccFrom < cyc ∧ cyc ≤ d.eccUntil)

/-- A core is frozen (R20). -/
def State.frozen (s : State) (k : Nat) : Bool :=
  let d := s.core k
  d.eccFrozen s.cycle || d.late.isSome || s.holdsCore (s.ctx (2 * k)) || s.holdsCore (s.ctx (2 * k + 1))

/-- The machine that context `n` leads may issue in this cycle, as far as its members and fetch go: one that is to stop still issues
the repeats of its bundle (R348). -/
def State.ready (s : State) (n : Nat) : Bool :=
  let c := s.ctx n
  s.leadN n == n && decide (c.fetchAt ≤ s.cycle) &&
  (s.membersOf n).all (fun m =>
    let d := s.ctx m
    d.mode == .running && d.fuseW == c.fuseW && ((d.fatalP.isNone && !d.dies) || c.between) && (d.faultP.isNone || d.dies) && !s.holding d &&
      !s.frozen (coreOf m))

/-- One empty issue cycle: the counts move (R36); members share member 0's (R100). -/
def State.emptyCycle (s : State) (n : Nat) : State :=
  let t := (s.ctx n).ic + 1
  s.onCtxs (fun c => { c with ic := t, wdogC := c.wdogC + 1 }) (s.membersOf n)

/-! ### The operations of a bundle -/

/-- One operation to be run: context, slot, words, instruction; `again` for a sticky re-issue. -/
structure Job where
  n     : Nat
  slot  : Nat
  w0    : BitVec 32 := 0
  x     : BitVec 32 := 0
  i     : Instr
  again : Bool := false

/-- The re-issue of an armed slot (R38), with the words that encode it. -/
def Sticky.job (n : Nat) (x : Sticky) : Job :=
  match encode x.i with
  | some (_, w0, e) => { n := n, slot := x.slot, w0 := w0, x := e.getD 0, i := x.i, again := true }
  | none => { n := n, slot := x.slot, i := x.i, again := true }

def Ctx.armed (c : Ctx) (k : Nat) : Option Sticky := c.sticky.find? (fun x => x.slot == k)

/-- What one slot of member `j`, context `m`, runs at this issue (R25, R38). -/
def State.jobAt (s : State) (b : GBundle) (j m k : Nat) : Option Job :=
  let first := b.left == b.hdr.rep.toNat + 1
  match b.ops.find? (fun o => o.slot == k && b.hdr.runs j o.member) with
  | some o =>
    (match o.dec with
      | .ok i =>
        match (s.ctx m).armed k with
        | some x => if i.sticky && !first then some (x.job m) else some { n := m, slot := k, w0 := o.w0, x := o.x, i := i }
        | none => some { n := m, slot := k, w0 := o.w0, x := o.x, i := i }
      | _ => none)
  | none => if b.hdr.hk == 0 && j != 0 then none else ((s.ctx m).armed k).map (fun x => x.job m)

/-- The operations of a bundle, member by member, in slot order. -/
def State.jobsGo (s : State) (b : GBundle) (j : Nat) : List Nat → List Job
  | [] => []
  | m :: l => (upTo 0 8).filterMap (s.jobAt b j m) ++ s.jobsGo b (j + 1) l

def State.jobs (s : State) (n : Nat) (b : GBundle) : List Job := s.jobsGo b 0 (s.membersOf n)

def Job.uses (j : Job) : List Nat := j.i.reads j.slot
def Job.waits (j : Job) : List Nat := j.i.waitsFor j.slot

/-! ### Landings at their due counts (R19, R116) -/

/-- A landing due by a count whose data is not in the register: its register's code, whether it still waits for data,
whether it is overdue already, and its requests. -/
structure Landing where
  code    : Nat
  missing : Bool
  late    : Bool
  ids     : List Nat

def Pend.landing {w p : Nat} (base cyc t : Nat) (x : Pend w p) : Option Landing :=
  if decide (x.due ≤ t) && (x.missing || decide (cyc < x.at')) then
    some { code := base + x.dst, missing := x.missing, late := x.late,
           ids := x.alts.filterMap (fun a => a.ref) }
  else none

/-- The request that a freeze on a landing waits for: the first; the next is looked for once it has arrived. -/
def Landing.id (x : Landing) : Nat := x.ids.head?.getD 0

def Ctx.landings (c : Ctx) (cyc t : Nat) : List Landing :=
  c.sa.pend.filterMap (Pend.landing 0 cyc t) ++ c.v.pend.filterMap (Pend.landing 128 cyc t)

/-- A `gcmp` of these operations reads the register, and no other operation does. -/
def Landing.onlyGcmp (x : Landing) (js : List Job) : Bool :=
  js.any (fun j => j.uses.contains x.code) && js.all (fun j => j.i.isGcmp || !j.uses.contains x.code)

/-- A landing freezes the core before these operations: one that is late, unless only a `gcmp` reads it; one that is
overdue, where another operation reads it. -/
def Landing.freezes (x : Landing) (js : List Job) : Bool :=
  if x.late then js.any (fun j => !j.i.isGcmp && j.uses.contains x.code) else !(x.missing && x.onlyGcmp js)

/-- Core `coreOf m` freezes on the first landing that asks for it. -/
def State.freezeOn (s : State) (t : Nat) (js : List Job) : List Nat → State
  | [] => s
  | m :: l =>
    match ((s.ctx m).landings s.cycle t).find? (fun x => x.freezes (js.filter (fun j => j.n == m))) with
    | some x => (s.onCore (coreOf m) (fun d => { d with late := some (m, x.id) })).freezeOn t js l
    | none => s.freezeOn t js l

/-- The landings that a `gcmp` of the issuing bundle makes overdue (R116), with every request of their alternatives; a `gcmp` with a
failing guard too, which opens nothing. DEDUCED (log 31). -/
def Pend.makeLate {w p : Nat} (ids : List Nat) (x : Pend w p) : Pend w p :=
  if x.alts.any (fun a => match a.ref with | some i => ids.contains i | none => false) then { x with late := true } else x

def State.overdue (s : State) (t : Nat) (js : List Job) : List Nat → State
  | [] => s
  | m :: l =>
    let ids := (((s.ctx m).landings s.cycle t).filter (fun x => !x.late)).flatMap (fun x => x.ids)
    if ids.isEmpty then s.overdue t js l
    else
      let s1 := s.onCtx m (fun c => { c with
        sa := { c.sa with pend := c.sa.pend.map (Pend.makeLate ids) },
        v := { c.v with pend := c.v.pend.map (Pend.makeLate ids) } })
      (s1.onCore (coreOf m) (fun d => { d with
        porch := d.porch.map (fun e => if ids.contains e.id then { e with overdue := true } else e) })).overdue t js l

/-- Overdue data that has arrived stands in its register for the bundles after that cycle (R116). -/
def RegFile.onTime {w p : Nat} (f : RegFile w p) (cyc : Nat) : RegFile w p :=
  { f with pend := f.pend.map (fun x =>
      if x.late && !x.missing && decide (x.at' ≤ cyc) then { x with late := false } else x) }

/-! ### What falls due at a count (R34) -/

/-- The first events and the changes of the sort unit due by count `t` happen. -/
def Ctx.commitSets (c : Ctx) (t : Nat) : Ctx :=
  let c1 := c.felCommit t
  { c1 with nunit := c1.nAt t, npend := c1.npend.filter (fun x => !decide (x.due ≤ t)) }

/-- Writes of special registers, each before what the hardware sets at its count, so that this stands (R6, R72, R276). -/
def Ctx.commitCsr (c : Ctx) : List (Nat × Nat × Word) → Ctx
  | [] => c
  | x :: l => ((c.commitSets (x.1 - 1)).csrApply x.2.1 x.2.2).commitCsr l

/-- The results of a context due by count `t` become part of its registers. -/
def Ctx.commit (c : Ctx) (t : Nat) : Ctx :=
  let c1 := { c with csrPend := c.csrPend.filter (fun x => !decide (x.1 ≤ t)) }.commitCsr
    (c.csrPend.filter (fun x => decide (x.1 ≤ t)))
  let c2 := c1.commitSets t
  { c2 with
    sa := c2.sa.commit t, v := c2.v.commit t,
    g := laterCommit c2.g c2.gpend t, gpend := laterRest c2.gpend t,
    mp := laterCommit c2.mp c2.mpPend t, mpPend := laterRest c2.mpPend t,
    xs := laterCommit c2.xs c2.xsPend t, xsPend := laterRest c2.xsPend t,
    fmt := c2.fmtAt t, fmtPend := laterRest c2.fmtPend t,
    ql := laterCommit c2.ql c2.qlPend t, qlPend := laterRest c2.qlPend t }

/-- The arrivals due by a count are made (R139, R253). -/
def State.arriveDue (s : State) (n t : Nat) : List ArrP → State
  | [] => s
  | a :: l =>
    (if decide (a.due ≤ t) && a.refs.isEmpty then
      (s.toBarrier n a.slot a.ba a.bar none).onCtx n (fun c => { c with arrP := c.arrP.filter (fun x => x != a) })
    else s).arriveDue n t l

/-- A `csrw` of a member clears the machine's OVR, where no overrun has set it in this cycle (R6, R357). -/
def State.dogClear (s : State) (n t : Nat) : State :=
  if (s.ctx n).dogClears t then
    s.onCtx (s.leadN n) (fun c => if c.hw.contains 0x018 then c else { c with ovr := false })
  else s

/-- Everything due by count `t` in one context. -/
def State.settleOne (s : State) (n t : Nat) : State :=
  let s1 := ((s.dogClear n t).onCtx n (fun c => c.commit t)).arriveDue n t (s.ctx n).arrP
  let s2 := s1.onCore (coreOf n) (fun d => { d with
    porch := d.porch.filter (fun e => !(e.n == n && e.arrived && decide (e.due ≤ t))) })
  s2.recvsDue n t (s2.recvsOf n)

/-- Core `coreOf n` freezes on a receive due by count `t` whose flits are not there (R19, R331), before anything that falls due at
that count happens: what context A's receives would take in this cycle (`a`, its count) is taken first. -/
def State.freezeRecv (s : State) (n t : Nat) (a : Option Nat) : State :=
  let s0 := match a with | some u => s.recvsDue (n - 1) u (s.recvsOf (n - 1)) | none => s
  match ((s0.recvsDue n t (s0.recvsOf n)).core (coreOf n)).late with
  | some x => s.onCore (coreOf n) (fun d => { d with late := some x })
  | none => s

def State.settleAll (s : State) (t : Nat) : List Nat → State
  | [] => s
  | n :: l => (s.settleOne n t).settleAll t l

/-! ### Interlocks -/

/-- The registers with a result pending after count `t`, and its count (R37); with `divs`, those that await a divide (R82). The
cupboard counts for the changes of its unit (R264). -/
def Ctx.pendingDues (c : Ctx) (t : Nat) (divs : Bool) : List (Nat × Nat) :=
  let on := fun {w p : Nat} (x : Pend w p) => decide (t < x.due) && (!divs || x.lock)
  let rest := fun {α : Type} (base : Nat) (l : List (Later α)) =>
    if divs then [] else (l.filter (fun x => decide (t < x.due))).map (fun x => (base + x.dst, x.due))
  (c.sa.pend.filter on).map (fun x => (x.dst, x.due)) ++ (c.v.pend.filter on).map (fun x => (128 + x.dst, x.due)) ++
    rest 192 c.gpend ++ rest 208 c.mpPend ++ rest 216 c.xsPend ++ rest 240 c.fmtPend ++ rest 241 c.qlPend ++
    (if divs then [] else (c.npend.filter (fun x => decide (t < x.due))).map (fun x => (243, x.due)))

/-- The counts that operations wait for, at count `t` (R37, R82). -/
def State.awaits (s : State) (t : Nat) (js : List Job) : List Nat :=
  js.flatMap (fun j => (((s.ctx j.n).pendingDues t (!(s.ctx j.n).ilk)).filter (fun x => j.waits.contains x.1)).map (fun x => x.2))

/-- An operation waits for a register. -/
def State.interlocked (s : State) (t : Nat) (js : List Job) : Bool := !(s.awaits t js).isEmpty

/-! ### The gouge (R40, R133) -/

/-- An operation has a guard resolved to its failing sense at count `t`. A `csrw` that traps whatever its guard holds has not
(R7). -/
def Ctx.fails (c : Ctx) (t : Nat) (i : Instr) : Bool :=
  !(i.csrwOf.any (fun z => csrPriv z.1 && !c.lvl)) &&
  (match i.hdr? with
    | some h => h.g != 0 && (match c.gAt h.g.toNat t with | .res v => v == h.gs | .opn _ => false)
    | none => false)

/-- A bundle that the gouge removes: nothing armed, and every operation present under a guard resolved to its failing sense, as
the bundle would see it at its count: also at the count to which an interlock would take it (R37). One that a later bundle has
passed has left fetch, and stays (R98). -/
def State.gouged (s : State) (n : Nat) (b : GBundle) (t : Nat) : Bool :=
  let ms := s.membersOf n
  let at' := (s.awaits t (s.jobs n b)).foldl max t
  b.left == b.hdr.rep.toNat + 1 && b.names.isNone && !b.ops.isEmpty && ms.all (fun m => (s.ctx m).sticky.isEmpty) &&
  (upTo 0 ms.length).all (fun j => b.ops.all (fun o => !b.hdr.runs j o.member ||
    (match o.dec with
      | .ok i => (s.ctx (ms.getD j n)).fails t i && (s.ctx (ms.getD j n)).fails at' i
      | _ => false)))

/-- A due count after `t` falls `k` earlier. -/
def pullDue (t k due : Nat) : Nat := if t < due then max t (due - k) else due

def Pend.pull {w p : Nat} (t k : Nat) (x : Pend w p) : Pend w p := { x with due := pullDue t k x.due }
def Later.pull {α : Type} (t k : Nat) (x : Later α) : Later α := { x with due := pullDue t k x.due }

def Regs.pull (r : Regs) (t k : Nat) : Regs :=
  { r with
    sa := { r.sa with pend := r.sa.pend.map (Pend.pull t k) }, v := { r.v with pend := r.v.pend.map (Pend.pull t k) },
    gpend := r.gpend.map (Later.pull t k), mpPend := r.mpPend.map (Later.pull t k),
    xsPend := r.xsPend.map (Later.pull t k), fmtPend := r.fmtPend.map (Later.pull t k),
    qlPend := r.qlPend.map (Later.pull t k),
    felPend := r.felPend.map (fun (x : FelP) => { x with due := pullDue t k x.due }) }

/-- The count of a held arrival, `k` earlier. -/
def HeldOp.pull (t k : Nat) : HeldOp → HeldOp
  | .arrive b slot ba due refs => .arrive b slot ba (pullDue t k due) refs
  | x => x

/-- The count at which an access's data falls due, `k` earlier. -/
def Acc.pull (t k n : Nat) (a : Acc) : Acc := if a.n = n then { a with due := pullDue t k a.due } else a

/-- Every result, landing and pending write of a context falls due `k` counts earlier (R133). -/
def State.pullOne (s : State) (t k n : Nat) : State :=
  let s1 := s.onCtx n (fun c =>
    { c.both (fun r => r.pull t k) with
      npend := c.npend.map (fun (x : NPend) => { x with due := pullDue t k x.due }),
      csrPend := c.csrPend.map (fun x => (pullDue t k x.1, x.2)),
      arrP := c.arrP.map (fun (x : ArrP) => { x with due := pullDue t k x.due }),
      larder := c.larder.map (fun (x : Held) => { x with op := x.op.pull t k }),
      divBusy := pullDue t k c.divBusy })
  let s2 := s1.onCore (coreOf n) (fun d => { d with
    porch := d.porch.map (fun e => if e.n == n then { e with due := pullDue t k e.due } else e) })
  let s3 : State := { s2 with
    outq := s2.outq.map (Acc.pull t k n), net := s2.net.map (Acc.pull t k n),
    resps := s2.resps.map (fun (r : Resp) => { r with acc := r.acc.pull t k n }) }
  let w := s3.wing (wingOf n)
  if w.link.any (fun c => c.n == n) then
    s3.setWing (wingOf n) { w with link := w.link.map (fun c =>
      if c.n == n then { c with dueAt := pullDue t k c.dueAt } else c) }
  else s3

def State.pullAll (s : State) (t k : Nat) : List Nat → State
  | [] => s
  | n :: l => (s.pullOne t k n).pullAll t k l

/-! ### Ends of bundles and groups -/

/-- The levels that loop operations of a group push at its end (R93). -/
def Ctx.pushLevels (c : Ctx) : Ctx :=
  { c with loops := c.push.map (fun (l : Level) => { l with began := c.issued }) ++ c.loops, push := [] }

/-- The group of context `n` ends (R91 to R94): control follows the transfer taken, the loop end, or the code. A `loop` with count
0 disarms the sticky slots here, with its skip, wherever in the group it stands. DESIGN CHOICE (log 97). -/
def State.endGroup (s : State) (n : Nat) : State :=
  let c := s.ctx n
  let go := fun (s : State) (pc cost : Nat) => s.onCtx n (fun (c : Ctx) => { c with
    pc := pc, fetchAt := s.cycle + 1 + cost, group := [], go := none, took := false, cost := 0 })
  let s1 := s.onCtx n Ctx.pushLevels
  if c.took then (go s1 (c.go.getD c.gnext) c.cost).onCtxs (fun c => { c with sticky := [] }) (s.membersOf n)
  else if c.loops.head?.any (fun l => l.stop == c.gnext && !l.carry) then
    let z := s1.loopStep n
    go z.1 (z.2.getD c.gnext) 0
  else go s1 c.gnext 0

/-- The armed slots of one member after a bundle (R38, R39): `js` its operations. -/
def Ctx.armNext (c : Ctx) (js : List Job) : Ctx :=
  let arm := fun (k : Nat) =>
    match js.find? (fun j => j.slot == k) with
    | some j =>
      let i := j.i.advanced
      if j.again || j.i.sticky then
        [Sticky.mk k i ((match c.armed k with | some x => if j.again then x.k else 0 | none => 0) + 1)]
      else []
    | none => (c.armed k).toList
  { c with sticky := [2, 3, 4, 6].flatMap arm }

/-- The rest of a group after its first bundle: the bundles that have issued already count and arm in their turn (R33, R38,
R98). -/
def State.popGo (s : State) (n : Nat) : List GBundle → State
  | [] => s.onCtx n (fun c => { c with group := [] })
  | b :: l =>
    if b.left = 0 then
      let js := s.jobs n { b with left := b.hdr.rep.toNat + 1 }
      (s.onCtx n (fun c => { c.armNext js with ic := c.ic + 1 })).popGo n l
    else s.onCtx n (fun c => { c with group := b :: l })

def State.popHead (s : State) (n : Nat) : State := s.popGo n ((s.ctx n).group.drop 1)

/-- A bundle of the group has issued before one that stands before it (R98). -/
def Ctx.split (c : Ctx) : Bool := c.group.any (fun b => b.left == 0)

/-- A removed bundle (R40, R133). Its STOP ends the group, and the group goes on in the same cycle. -/
def State.gouge (s : State) (n : Nat) (b : GBundle) : State :=
  let s1 := (s.pullAll (s.ctx n).ic (b.hdr.rep.toNat + 1) (s.membersOf n)).popHead n
  if (s1.ctx n).group.isEmpty then ((s1.endGroup n).onCtx n (fun c => { c with fetchAt := c.fetchAt - 1 })).passPoint n else s1

/-- A context of the machine has a trap, a switch or a stop to take before its next bundle. The repeats of a bundle go on first, and
a group of which a later bundle has issued, so that they stand between two bundles (R98, R344, R359; log 32, DEDUCED). -/
def State.called (s : State) (n : Nat) : Bool :=
  !(s.ctx n).split && !(s.ctx n).between && ((s.ctx n).swOut ||
    (s.membersOf n).any (fun m => (s.ctx m).trapP.isSome || (s.ctx m).stopReq.isSome || (s.ctx m).hostReq))

/-- A result that the gouge made due before its unit has it: the context is held (R133). DEDUCED (log 27). -/
def State.unitHold (s : State) (n t : Nat) : Bool :=
  (s.membersOf n).any (fun m =>
    let a := (s.core (coreOf m)).act
    let c := s.ctx m
    let on := fun {α : Type} (l : List (Later α)) => l.any (fun x => decide (x.due ≤ t ∧ a < x.rdy))
    c.sa.pend.any (fun x => decide (x.due ≤ t ∧ a < x.rdy)) || c.v.pend.any (fun x => decide (x.due ≤ t ∧ a < x.rdy)) ||
      on c.gpend || on c.mpPend || on c.xsPend || on c.fmtPend || on c.qlPend ||
      c.npend.any (fun x => decide (x.due ≤ t ∧ a < x.rdy)))

/-- Fetch up to the bundle that stands next (R27, R31, R40). Fetch that has gone through so many steps in one cycle goes on in
the next, as a fetch stall. DESIGN CHOICE (log 60). -/
def State.fetchGo (ex : Exec) (n : Nat) : Nat → State → Out
  | 0, s => .next (s.onCtx n (fun c => { c with fetchAt := s.cycle + 1 }))
  | k + 1, s =>
    if !s.ready n || s.called n then .next s
    else
      match (s.ctx n).group with
      | [] => andThen (s.event ex .issueGroup { n := n }) (fun s1 =>
          if (s1.ctx n).group.isEmpty then .next s1 else State.fetchGo ex n k s1)
      | b :: _ => if !s.unitHold n (s.ctx n).ic && s.gouged n b (s.ctx n).ic then State.fetchGo ex n k (s.gouge n b) else .next s

/-- The operations that stand next, for R19 and R116. -/
def State.nextJobs (s : State) (n : Nat) : List Job :=
  if s.called n then [] else match (s.ctx n).group with | b :: _ => s.jobs n b | [] => []

/-- A group stands ready, or a trap, a switch or a stop is to be taken: a machine that a fetch fault stalls has neither (R369). -/
def State.stands (s : State) (n : Nat) : Bool := !(s.ctx n).group.isEmpty || s.called n

/-- What is due at its count happens in this cycle. -/
def State.dueNow (s : State) (n : Nat) : Bool := s.ready n && s.stands n && !s.unitHold n (s.ctx n).ic

/-- The receives of a machine's members at its count, B's behind A's of the same core. -/
def State.freezeRecvs (s : State) (t : Nat) : List Nat → State
  | [] => s
  | m :: l =>
    let a := s.leadN (m - 1)
    (s.freezeRecv m t (if m % 2 = 1 && s.dueNow a then some (s.ctx a).ic else none)).freezeRecvs t l

/-- The start of a cycle for the machine that `n` leads: overdue data, fetch, and the freeze on a late landing or receive. -/
def State.fetchTurn (s : State) (ex : Exec) (n : Nat) : Out :=
  if !s.ready n then .next s
  else
    let ms := s.membersOf n
    let s1 := s.onCtxs (fun c => c.both (fun r => { r with sa := r.sa.onTime s.cycle, v := r.v.onTime s.cycle })) ms
    andThen (State.fetchGo ex n 256 s1) (fun s2 =>
      if s2.ready n && s2.stands n then
        let s3 := s2.freezeOn (s2.ctx n).ic (s2.nextJobs n) ms
        .next (if s3.dueNow n then s3.freezeRecvs (s3.ctx n).ic ms else s3)
      else .next s2)

/-- What is due at the count of the machine that `n` leads: in a cycle in which its core, as both contexts left it, is not frozen
(R20). -/
def State.dueTurn (s : State) (n : Nat) : State := if s.dueNow n then s.settleAll (s.ctx n).ic (s.membersOf n) else s

/-- Both, for a machine that comes to its fetch late in a cycle. -/
def State.front (s : State) (ex : Exec) (n : Nat) : Out := andThen (s.fetchTurn ex n) (fun s1 => .next (s1.dueTurn n))

/-! ### Running a bundle -/

/-- What stood against a bundle: the first operation that waits, and the first trap of each member. -/
structure Tally where
  wait  : Option (Nat × LStat) := none
  traps : List (Nat × TrapRec) := []

def Tally.trap (y : Tally) (n : Nat) (t : TrapRec) : Tally :=
  if y.traps.any (fun z => z.1 == n) then y else { y with traps := y.traps ++ [(n, t)] }
def Tally.waits (y : Tally) (n : Nat) (l : LStat) : Tally :=
  if y.wait.isSome then y else { y with wait := some (n, l) }

/-- A member that may not perform an operation defers `NOT_SPECULABLE` (R312). -/
def State.notSpecHere (s : State) (h : Hdr) : State :=
  s.guarded h (fun k => s.withRoom 1 true (s.onCur Ctx.reject) (s.raiseTag k.held (s.trapRec .notSpeculable 0 0)))

/-- One operation, as the carry round in which its bundle `s0` stands lets it act (R310, R312): `lead` is member 0. -/
def State.runOne (s : State) (ex : Exec) (s0 : State) (lead : Nat) (i : Instr) : Out :=
  let c := s0.ctx s.latch.n
  let l := (s0.ctx lead).cloop
  if l.on && (c.carry.inact || c.carry.rejected) && !i.carryOp then .next s
  else if l.on && s.latch.n == lead && l.phase == 0 && !i.carryOp then .next s
  else if l.on && l.phase != 0 && c.carry.lit.isSome && i.notSpec then .next (s.notSpecHere (i.hdr?.getD {}))
  else ex i s

/-- The literals that an operation runs under (R113, R310). -/
def Ctx.underOf (c : Ctx) (i : Instr) (t : Nat) : Tag :=
  match i.hdr? with
  | some h => (match c.guard h t with | some k => k.held | none => [])
  | none => []

/-- The latch of an operation. -/
def State.latchFor (s : State) (lead : Nat) (b : GBundle) (t : Nat) (j : Job) : State :=
  let c := s.ctx lead
  { s with latch := { n := j.n, ic := t, ba := b.addr, next := b.addr + b.len, gaddr := c.gaddr, slot := j.slot, w0 := j.w0,
                      x := j.x, scy := c.scy, under := (s.ctx j.n).underOf j.i t } }

/-- The members that the trap of an operation reaches: a carry operation out of its place traps in every one (R407). -/
def State.trapsIn (s : State) (lead : Nat) (j : Job) (r : TrapRec) : List Nat :=
  if j.i.carryOp && r.code = .illegalEncoding then s.membersOf lead else [j.n]

/-- The operations in turn: one that waits or traps leaves no effect. DEDUCED (log 79). -/
def runJobs (ex : Exec) (s0 : State) (lead : Nat) (b : GBundle) (t : Nat) :
    List Job → State → Tally → Host.Outcome (State × Tally) Fault Refusal
  | [], s, y => .next (s, y)
  | j :: js, s, y =>
    match (s.latchFor lead b t j).runOne ex s0 lead j.i with
    | .next s1 =>
      (match s1.latch.stat with
        | .go => runJobs ex s0 lead b t js s1 y
        | .trap r => runJobs ex s0 lead b t js s ((s0.trapsIn lead j r).foldl (fun y m => y.trap m r) y)
        | l => runJobs ex s0 lead b t js s (y.waits j.n l))
    | .fault f => .fault f
    | .refused r => .refused r

/-- A whole bundle: an empty one first as itself (R26). DEDUCED (log 61). -/
def runBundle (ex : Exec) (lead : Nat) (b : GBundle) (t : Nat) (js : List Job) (s : State) :
    Host.Outcome (State × Tally) Fault Refusal :=
  if b.ops.isEmpty then
    match ex (.emptyBundle b.hdr.stop b.hdr.rep b.hdr.hint) s with
    | .next s1 => runJobs ex s lead b t js s1 {}
    | .fault f => .fault f
    | .refused r => .refused r
  else runJobs ex s lead b t js s {}

/-- Traps of the bundle, each in its member (R131, R354). -/
def State.reportTraps (s : State) : List (Nat × TrapRec) → State
  | [] => s
  | (n, t) :: l => (s.onCtx n (fun c => c.report t)).reportTraps l

/-- An implicit mark before a bundle, in every member (R130, R162, R245). -/
def State.markHere (s : State) (addr : Nat) : List Nat → State
  | [] => s
  | n :: l => ((s.takeMark n addr).onCtx n (fun c => { c with marked := true })).markHere addr l

/-- A held entry that a store held before it keeps back: an atomic that overlaps the store, or an operation behind a fence whose
member the store is (R128, R161). -/
def Ctx.behindStore (c : Ctx) (e : Held) : Bool :=
  c.larder.any (fun x => x.isStore && !x.dead && decide (x.seq < e.seq) &&
    (match e.op.kindOf with
      | some (k, _) => (c.fencedAt k e.seq).contains x.id
      | none => false) ||
    (match e.op, x.op with
      | .atomic a, .store b => !x.dead && decide (x.seq < e.seq) && overlaps a.home a.size b.home b.size
      | _, _ => false))

/-- An implicit mark may be taken: what a mark waits for, and the larder holds nothing but stores, which perform at the mark, so
that it is empty after it, and what cannot leave before them (R104, R130). -/
def Ctx.markable (c : Ctx) (t : Nat) : Bool :=
  c.quiet t && !c.larderOff &&
    (match c.larder.find? (fun e => !e.dead && !e.isStore) with
      | some e => c.behindStore e
      | none => true)

/-- What a waiting bundle does: the policy of R122, the rejection of R310, the implicit mark; `none` where it waits. -/
def State.unblock (s : State) (n : Nat) (b : GBundle) (t m : Nat) (l : LStat) : Option State :=
  let c := s.ctx m
  match l with
  | .stall (id :: _) =>
    match c.open? id with
    | none => none
    | some o =>
      if o.reg = 0 then (if c.opens.all (fun x => x.reg == 0) then some (s.onCtx m Ctx.reject) else none)
      else if c.altm.getLsbD 0 && c.keepsMarks then some (s.onCtx m (fun c => c.collapse id (c.hinted o)))
      else none
  | .mark =>
    let ms := s.membersOf n
    if !ms.all (fun m => (s.ctx m).markable t) then none
    else if ms.any (fun m => (s.ctx m).spills) then some (s.spillAll ms)
    else some (s.markHere b.addr ms)
  | .spill =>
    let ms := s.membersOf n
    if ms.any (fun m => (s.ctx m).spills) then some (s.spillAll ms) else none
  | _ => none

/-- The context waits for others at `fuse` or `rejoin` (R100, R103). -/
def Reach.joins (r : Reach) : Bool := match r with | .fuse _ => true | .rejoin _ => true | _ => false

/-- How many names are put aside for a bundle that another has passed. -/
def namesPer : Nat := 4096

/-- A count falls one later, if its operation has a name from `u` on. -/
def putOff (u id due : Nat) : Nat := if u ≤ id then due + 1 else due

def Pend.putOff {w p : Nat} (u : Nat) (x : Pend w p) : Pend w p := { x with due := Machine.putOff u x.seq x.due }
def Acc.putOff (u n : Nat) (a : Acc) : Acc := if a.n = n then { a with due := Machine.putOff u a.id a.due } else a
def HeldOp.putOff (u seq : Nat) : HeldOp → HeldOp
  | .arrive b slot ba due refs => .arrive b slot ba (Machine.putOff u seq due) refs
  | x => x

/-- What bundles with names from `u` on, issued ahead of context `n`'s first one, have due falls one count later, as each of them
would have issued one count later behind a bundle that waits (R33, R36, R99; log 32, DEDUCED). -/
def State.delayAhead (s : State) (n u : Nat) : State :=
  let s1 := s.onCtx n (fun c => { c with
    sa := { c.sa with pend := c.sa.pend.map (Pend.putOff u) }, v := { c.v with pend := c.v.pend.map (Pend.putOff u) },
    felPend := c.felPend.map (fun (x : FelP) => if c.ic < x.key.1 then { x with due := x.due + 1 } else x),
    arrP := c.arrP.map (fun (x : ArrP) => { x with due := putOff u x.seq x.due }),
    larder := c.larder.map (fun (x : Held) => { x with op := x.op.putOff u x.seq }) })
  let s2 := s1.onCore (coreOf n) (fun d => { d with
    porch := d.porch.map (fun e => if e.n == n then { e with due := putOff u e.id e.due } else e) })
  { s2 with
    outq := s2.outq.map (Acc.putOff u n), net := s2.net.map (Acc.putOff u n),
    resps := s2.resps.map (fun (r : Resp) => { r with acc := r.acc.putOff u n }) }

/-- An empty issue cycle of a bundle that waits (R36); the bundles of its group that have issued ahead of it move with it. -/
def State.idle (s : State) (n : Nat) : State :=
  (match (s.ctx n).group with
    | b :: _ => if (s.ctx n).split then s.delayAhead n (b.names.getD s.uid + namesPer) else s
    | [] => s).emptyCycle n

/-- A waiting bundle: an empty issue cycle, and where its member stands (R36). At `fuse` and `rejoin` the others may come in
this cycle: whether it is empty is decided after their turns. -/
def State.waitHere (s : State) (n m : Nat) (l : LStat) : State :=
  match l with
  | .waitAt r =>
    let new := (s.ctx m).reach != r
    let s1 := s.onCtx m (fun c => { c with reach := r })
    (match r with
      | .invq asid lo len lvl => (if new then s1.invStart m asid lo len lvl else s1).emptyCycle n
      | _ => if r.joins then { s1 with turns := s1.turns ++ [4000 + n] } else s1.idle n)
  | _ => s.idle n

/-! ### After a bundle has issued -/

/-- The counters of one member (R361, R362): `js` its operations. -/
def Ctx.countIssue (c : Ctx) (depth : Nat) (js : List Job) : Ctx :=
  let filled := fun (k : Nat) => js.any (fun j => j.slot == k && !j.i.isNop)
  let one := fun (c : Ctx) (p : Nat) =>
    (upTo 0 8).foldl (fun c k => c.lscAdd p ((if filled k then 2 else 10) + k) 1) (c.lscAdd p 0 1)
  let c1 := (upTo 0 depth).foldl one c
  { c1 with issued := c1.issued + 1, wdogC := c1.wdogC + 1 }

def State.countAll (s : State) (depth : Nat) (js : List Job) : List Nat → State
  | [] => s
  | m :: l => (s.onCtx m (fun c => c.countIssue depth (js.filter (fun j => j.n == m)))).countAll depth js l

def State.armAll (s : State) (js : List Job) : List Nat → State
  | [] => s
  | m :: l => (s.onCtx m (fun c => c.armNext (js.filter (fun j => j.n == m)))).armAll js l

/-- Single step (R359). -/
def Ctx.stepped (c : Ctx) : Ctx := if c.dbg.getLsbD 63 && c.dbg.getLsbD 62 then c.askStop 4 0 else c

/-- The marks of a bundle that held `mark`, `cgo` or `cend`, as it ends (R104, log 21, DEDUCED); a forced stop goes with an explicit
one (R357). DEDUCED (log 65). -/
def State.endMarks (s : State) (lead : Nat) : List Nat → State
  | [] => s
  | m :: l =>
    (if (s.ctx m).marking then
      (s.takeMark m (s.ctx lead).nextPc).onCtx m (fun c => { c with marking := false })
    else s).endMarks lead l

/-- A released member (R102): it takes the next address, a copy of the loop stack, and its own count from the shared
one. Its group ends there: a level or a skip that an earlier bundle of the group left for the group's end is dropped. DESIGN CHOICE
(log 97). -/
def Ctx.partFrom (c lead : Ctx) : Ctx :=
  { c with
    fuseW := 1, fuse0 := 0, pc := lead.nextPc, group := [], push := [], go := none, took := false, parting := false,
    fetchAt := lead.fetchAt, issued := c.issued + 2 ^ 32,
    loops := lead.loops.map (fun (l : Level) => { l with began := c.issued + 2 ^ 32 + l.began - lead.issued }) }

/-- What follows the last issue of the bundle that stood first: `ms` the members that issued it, `was` its machine's width
(R100 to R104, R110, R309, R316, R349, R357). -/
def State.afterBundle (s : State) (n was : Nat) (ms : List Nat) : State :=
  let c := s.ctx n
  let joined := was ≤ 1 && decide (1 < c.fuseW)
  let s1 :=
    if joined && c.fuse0 != n then s.onCtx n (fun c => { c with pc := c.nextPc, group := [], push := [], go := none, took := false })
    else if c.group.isEmpty then s.endGroup n
    else if joined then s.onCtx n (fun c => { c with pc := c.nextPc, group := [] })
    else s
  let forced := ms.any (fun m => (s1.ctx m).marking) && (s1.ctx n).fs && !(s1.ctx n).cloop.on
  let s2 := (s1.endMarks n ms).passPoint n
  let s3 := if forced then s2.onCtxs (fun c => { c with swOut := true }) ms else s2
  let s4 := if (s3.ctx n).cloop.on && (s3.ctx n).cloop.phase == 3 && !(s3.ctx n).swOut then s3.startRound n else s3
  let lead := s4.ctx n
  let s5 := if lead.parting then s4.onCtxs (fun c => c.partFrom lead) ms else s4
  let s6 := s5.onCtxs (fun c =>
    match c.ended with
    | some t => { c with ended := none }.report { t with ra := lead.nextPc }
    | none => c) ms
  if lead.quits then s6.retireAll ms else s6

/-- Units taken in a cycle (R97). -/
def State.takeUnits (s : State) : List Job → State
  | [] => s
  | j :: l => (s.onCore (coreOf j.n) (fun d => { d with units := d.units ++ j.i.units (j.n % 2 == 1) j.slot })).takeUnits l

def State.collides (s : State) (js : List Job) : Bool :=
  js.any (fun j => meets (s.core (coreOf j.n)).units (j.i.units (j.n % 2 == 1) j.slot))

/-- Nothing that the bundle at `addr` waited for or had done before it stands any longer. -/
def Ctx.issuedNow (addr : Nat) (c : Ctx) : Ctx := { c with resumed := if c.resumed = some addr then none else c.resumed, marked := false, reach := .none, pass := false }

/-- The first bundle of the group has issued once. `s0` is the state before it. -/
def State.headDone (s s0 : State) (n : Nat) (b : GBundle) (js : List Job) : State :=
  let ms := s0.membersOf n
  let t := (s0.ctx n).ic + 1
  let s1 := (((s.onCtxs (Ctx.issuedNow b.addr) ms).countAll (s0.ctx n).loops.length js ms).armAll js ms).takeUnits (if b.early then [] else js)
  let s2 := s1.onCtxs (fun c => { c with ic := t }) ms
  if 1 < b.left then s2.onCtx n (fun c => { c with group := { b with left := b.left - 1 } :: c.group.drop 1 })
  else ((s2.popHead n).onCtxs Ctx.stepped ms).afterBundle n (s0.ctx n).fuseW ms

/-! ### Context B takes a later bundle (R98) -/

/-- The state with the armed slots as they stand behind bundles of the group. -/
def State.armedPast (s : State) (n : Nat) : List GBundle → State
  | [] => s
  | b :: l =>
    (s.onCtx n (fun c => c.armNext (s.jobs n { b with left := b.hdr.rep.toNat + 1 }))).armedPast n l

/-- The operations of bundle `idx` of the group. -/
def State.jobsLater (s : State) (n idx : Nat) (b : GBundle) : List Job :=
  (s.armedPast n ((s.ctx n).group.take idx)).jobs n b

/-- Operations that must not change places: they meet in a register, a re-issue of an armed slot included, or in the loop
stack, the comparators, the barriers or the locks. -/
def Job.ordered (a b : Job) : Bool :=
  opsClash (a.slot, a.i) (b.slot, b.i) || (a.i.realm.isSome && a.i.realm == b.i.realm)

/-- A later bundle of B may have its effect before those that it passes, for the same results (R33, R99; log 32, DEDUCED): no operation
of either side must keep its place, and those passed wait for nothing that others do, or what the later ones have due can fall due
later with them. -/
def Ctx.mayPass (c : Ctx) (skipped js : List Job) : Bool :=
  !c.carry.active && (skipped ++ js).all (fun a => a.i.unordered) && !skipped.any (fun a => js.any a.ordered) &&
    (skipped.all (fun a => a.i.steady) || js.all (fun a => a.i.shifts a.slot))

/-- The names that the bundles before position `idx` will give are put aside, so that names follow program order (R34, R127). -/
def nameGo (idx : Nat) : Nat → Nat → List GBundle → List GBundle × Nat
  | _, u, [] => ([], u)
  | i, u, b :: l =>
    if i < idx && b.left != 0 && b.names.isNone then
      let z := nameGo idx (i + 1) (u + namesPer) l
      ({ b with names := some u } :: z.1, z.2)
    else
      let z := nameGo idx (i + 1) u l
      (b :: z.1, z.2)

def State.nameBefore (s : State) (n idx : Nat) : State :=
  let z := nameGo idx 0 s.uid (s.ctx n).group
  { s.onCtx n (fun c => { c with group := z.1 }) with uid := z.2 }

/-- A bundle runs under the names that were put aside for it. -/
def runNamed (ex : Exec) (n : Nat) (b : GBundle) (t : Nat) (js : List Job) (s : State) :
    Host.Outcome (State × Tally) Fault Refusal :=
  match b.names with
  | none => runBundle ex n b t js s
  | some u =>
    match runBundle ex n b t js { s with uid := u } with
    | .next (s1, y) => .next ({ s1 with uid := max s.uid s1.uid }, y)
    | .fault f => .fault f
    | .refused r => .refused r

/-- The bundles that a later one passes, each with its count: each still issues behind its effect, without a wait or a trap. -/
def stillGo (ex : Exec) (n : Nat) : List (GBundle × Nat × List Job) → State → Bool
  | [], _ => true
  | (b, t, js) :: l, s =>
    match runNamed ex n b t js s with
    | .next (s1, y) => y.wait.isNone && y.traps.isEmpty && stillGo ex n l s1
    | _ => false

/-- The bundles of B's group before position `idx` that have not had their effect. -/
def State.passed (s : State) (n idx : Nat) : List (GBundle × Nat × List Job) :=
  ((upTo 0 idx).zip (s.ctx n).group).filterMap (fun z =>
    if z.2.left = 0 then none else some (z.2, (s.ctx n).ic + z.1, s.jobsLater n z.1 z.2))

/-- A later bundle of B's group has issued. -/
def State.laterDone (s : State) (n idx : Nat) (js : List Job) : State :=
  ((s.countAll (s.ctx n).loops.length js [n]).takeUnits js).onCtx n (fun c =>
    { c with group := (upTo 0 c.group.length).zip c.group |>.map (fun z => if z.1 = idx then { z.2 with left := 0 } else z.2) })

/-- A later bundle of B's group has taken its issue: its effect waits for those of the bundles before it. -/
def State.laterEarly (s : State) (n idx : Nat) (js : List Job) : State :=
  (s.takeUnits js).onCtx n (fun c => { c with
    group := (upTo 0 c.group.length).zip c.group |>.map (fun z => if z.1 = idx then { z.2 with early := true } else z.2) })

/-- The count at which B has been blocked for 64 cycles (R98). -/
def State.blockB (s : State) (ex : Exec) (n : Nat) : Out :=
  let k := coreOf n
  let s1 := s.onCore k (fun d => { d with blocked := d.blocked + 1 })
  if (s1.core k).blocked = 64 then s1.event ex .bPrecedence { core := k } else .next s1

/-- A later bundle leaves the group unissued (R40, R98). -/
def State.gougeLater (s : State) (n idx t : Nat) : State :=
  (s.pullOne t 1 n).onCtx n (fun c => { c with group := c.group.take idx ++ c.group.drop (idx + 1) })

/-- B issues the first bundle behind its colliding first one that collides with nothing (R98), each judged at its own count. Where
its effect before that of the bundles it passes (`skip`) could change a result, it takes its issue now and its effect stands in
encoded order (R33, R99). Where that first bundle would wait or trap, B issues none: those behind it have no count of their own
yet. DEDUCED (log 32). -/
def laterB (ex : Exec) (n : Nat) : Nat → Nat → List Job → State → Out
  | 0, _, _, s => s.blockB ex n
  | k + 1, idx, skip, s =>
    match (s.ctx n).group[idx]? with
    | none => s.blockB ex n
    | some b =>
      let t := (s.ctx n).ic + idx
      let js := s.jobsLater n idx b
      if b.left = 0 then laterB ex n k (idx + 1) skip s
      else if b.early then laterB ex n k (idx + 1) (skip ++ js) s
      else if State.gouged (s.armedPast n ((s.ctx n).group.take idx)) n b t then laterB ex n k idx skip (s.gougeLater n idx t)
      else
        let s1 := (s.freezeOn t js [n]).freezeRecv n t none
        if s.interlocked t js then s.blockB ex n
        else if s1.frozen (coreOf n) then .next s1
        else
          let s2 := s1.recvsDue n t (s1.recvsOf n)
          match runNamed ex n b t js (State.nameBefore (s2.overdue t js [n]) n idx) with
          | .fault f => .fault f
          | .refused r => .refused r
          | .next (s3, y) =>
            if y.wait.isSome || !y.traps.isEmpty then s.blockB ex n
            else if s.collides js then laterB ex n k (idx + 1) (skip ++ js) s
            else
              let s4 := if (s.ctx n).mayPass skip js && stillGo ex n (s3.passed n idx) s3 then s3.laterDone n idx js
                else s2.laterEarly n idx js
              .next (s4.onCore (coreOf n) (fun d => { d with blocked := 0 }))

/-! ### The issue of one bundle -/

/-- As many times as a bundle can be looked at in one cycle: each member's open guards can collapse in turn (R115, R122). -/
def retries : Nat := 32

/-- A bundle that traps is issued anew, with all its repeats, when the context comes back to it (R24, R344). -/
def State.restartHead (s : State) (n : Nat) (b : GBundle) : State :=
  if (s.ctx n).between then
    s.onCtx n (fun c => { c with group := { b with left := b.hdr.rep.toNat + 1 } :: c.group.drop 1 })
  else s

/-- Try the first bundle: policies first, then a wait, which comes before a collision (R97), a trap, or its issue. A context of a killed
kernel whose next repeat would wait stops there (R348; log 118, DEDUCED). -/
def issueHead (ex : Exec) (n : Nat) (b : GBundle) : Nat → State → Out
  | 0, s => .next (s.idle n)
  | k + 1, s =>
    let t := (s.ctx n).ic
    let js := s.jobs n b
    match runNamed ex n b t js (s.overdue t js (s.membersOf n)) with
    | .fault f => .fault f
    | .refused r => .refused r
    | .next (s1, y) =>
      match y.wait with
      | some (m, l) =>
        (match s.unblock n b t m l with
          | some s2 => issueHead ex n b k s2
          | none => .next (if (s.ctx n).dies then s.restartHead n b else s.waitHere n m l))
      | none =>
        if !b.early && s.collides js then
          (if n % 2 = 0 then .next s
           else if b.hdr.rep == 0 && y.traps.isEmpty then laterB ex n 4 1 js s
           else s.blockB ex n)
        else if y.traps.isEmpty then .next (s1.headDone s n b js)
        else .next ((s.restartHead n b).reportTraps y.traps)

/-! ### A context's turn -/

/-- A breakpoint at an address, but for the first issue of the bundle there after a resume (R359). -/
def Ctx.breakAt (c : Ctx) (addr : Nat) : Option Nat :=
  if c.dbg.getLsbD 63 && c.resumed != some addr then
    (upTo 0 4).find? (fun i =>
      let w := mget 0 c.bka i
      bit w 63 && decide ((bits w 1 47).toNat * 2 = addr))
  else none

/-- A stop lands before the next bundle (R359). -/
def State.stopsHere (s : State) (n : Nat) : Bool :=
  (s.membersOf n).any (fun m => (s.ctx m).stopReq.isSome || (s.ctx m).hostReq ||
    (match (s.ctx n).group with
      | b :: _ => b.left == b.hdr.rep.toNat + 1 && ((s.ctx m).breakAt b.addr).isSome
      | [] => false))

/-- Nothing of a context is kept behind a fence (R164). -/
def State.fencesPassed (s : State) (n : Nat) : Bool :=
  s.outq.all (fun a => a.n != n || a.after.isEmpty) &&
    s.wings.all (fun e => e.2.reloc.all (fun c => c.n != n || s.allDone n c.after) &&
      e.2.link.all (fun c => c.n != n || s.allDone n c.after))

/-- Of a context's copy commands only suspended ones are left, whose started elements have all performed (R237). -/
def State.copiesLeft (s : State) (n : Nat) : Bool :=
  (s.copiesOf n).all (fun x => x.phase == 2 && x.flight.isEmpty && !s.writing x.id)

/-- Of its routines only paused ones are left (R213). -/
def State.routinesLeft (s : State) (n : Nat) : Bool := (s.core (coreOf n)).queue.all (fun r => r.n != n || r.waitF.isSome)

/-- A context may be switched out (R358, R134, R164, R213, R237). -/
def State.mayLeave (s : State) (n : Nat) : Bool :=
  let c := s.ctx n
  c.settled c.ic && c.larder.isEmpty && s.fencesPassed n && (s.core (coreOf n)).porch.all (fun e => e.n != n) &&
    s.copiesLeft n && s.routinesLeft n

/-- B's counters after its first bundle has had its cycle: issuing ends a block, and the end of its group its
precedence (R98). -/
def State.settleB (s0 s : State) (n : Nat) : State :=
  if n % 2 = 0 then s
  else
    let k := coreOf n
    let s1 := if (s0.ctx n).issued != (s.ctx n).issued then s.onCore k (fun d => { d with blocked := 0 }) else s
    if (s1.ctx n).group.isEmpty then s1.onCore k (fun d => { d with bFirst := false }) else s1

/-- A bundle of the machine that `n` leads, at the merge stage (R98). -/
def State.mergeTurn (s : State) (ex : Exec) (n : Nat) (b : GBundle) : Out :=
  let t := (s.ctx n).ic
  if s.unitHold n t then .next s
  else if s.interlocked t (s.jobs n b) then .next (s.idle n)
  else andThen (issueHead ex n b retries s) (fun s1 => .next (State.settleB s s1 n))

/-- Bundles of B that have taken their issue already have their effect as soon as those before them have (R33, R99). -/
def State.earlyTurn (ex : Exec) (n : Nat) : Nat → State → Out
  | 0, s => .next s
  | k + 1, s =>
    if !(s.ctx n).group.head?.any (fun b => b.early) then .next s
    else andThen (s.front ex n) (fun s1 =>
      match (s1.ctx n).group with
      | b :: _ =>
        if !b.early || !s1.ready n || s1.called n then .next s1
        else andThen (s1.mergeTurn ex n b) (fun s2 =>
          if (s2.ctx n).issued = (s1.ctx n).issued then .next s2 else State.earlyTurn ex n k s2)
      | [] => .next s1)

/-- The issue turn of a machine in one cycle: a trap first, then a switch, then a stop, then its bundle (R347, R358,
R359). -/
def State.issueTurn (s0 : State) (ex : Exec) (n : Nat) : Out :=
  andThen (if (s0.ctx n).group.isEmpty then s0.front ex n else .next s0) (fun s =>
    let ms := s.membersOf n
    let quiet := ms.all (fun m => (s.ctx m).quietHere (s.ctx n).ic)
    let go := match (s.ctx n).group with
      | [] => .next s
      | b :: _ => andThen (s.mergeTurn ex n b) (fun s1 =>
        if (s1.ctx n).issued = (s.ctx n).issued then .next s1 else State.earlyTurn ex n 3 s1)
    if !s.ready n then .next s
    else if (s.ctx n).split || (s.ctx n).between then go
    else
      match ms.find? (fun m => (s.ctx m).trapP.isSome) with
      | some m =>
        if ((s.ctx m).trapP).any (fun t => s.isFatal m t) then .next s
        else if quiet then s.event ex .trapEntry { n := m } else .next (s.emptyCycle n)
      | none =>
        if (s.ctx n).swOut then
          (if ms.all (fun m => s.mayLeave m) then s.event ex .switchOut { n := n } else .next (s.emptyCycle n))
        else if s.stopsHere n then (if quiet then s.event ex .debugStop { n := n } else .next (s.emptyCycle n))
        else go)

/-- B_PRECEDENCE (R98): context B of core `ev.core` issues first until its group has issued. -/
def execBPrecedence (s : State) : Host.Outcome State Fault Refusal :=
  .next (s.onCore s.ev.core (fun d => { d with bFirst := true, blocked := 0 }))

end Sys2Proof.Machine
end

