-- ==== Sys2Proof/Machine/Events.lean ====
section
/-! DEFINITION. Events of the contexts: freezes, larder release, faults, traps, fusion, switches, debug stops, samples,
supersteps, the watchdog (R20, R100, R128, R259, R294, R347, R348, R354, R357 to R359, R363). -/

namespace Sys2Proof.Machine

/-- FREEZE_END (R20, R149): the 16 cycles of core `ev.core` have passed. -/
def execFreezeEnd (s : State) : Host.Outcome State Fault Refusal :=
  .next (s.onCore s.ev.core (fun d => { d with eccUntil := 0 }))

/-- LARDER_RELEASE (R128): the head of the larder of context `ev.n`. -/
def execLarderRelease (s : State) : Host.Outcome State Fault Refusal := .next (s.release s.ev.n)

/-! ### Faults of the core (R294, R354) -/

/-- A fault of a context that keeps no marks kills its kernel; any other is posted, the context rolls back, and fetches
nothing until the entry is done. -/
def State.coreFault (s : State) (n kind : Nat) : State :=
  match (s.ctx n).faultP with
  | none => s
  | some t =>
    if (s.ctx n).keepsMarks then
      let z := s.postFault kind n 0 0 t.wr t.info0.toNat t.ba 0
      (z.1.rollGroup n).onCtx n (fun c => { c with hold := .data z.2, faultP := none })
    else s.fatal n { t with code := .noMark }

/-- PAGE_FAULT (R354): the fault of context `ev.n`. DEDUCED (log 7). -/
def execPageFault (s : State) : Host.Outcome State Fault Refusal := .next (s.coreFault s.ev.n 0x30)

/-- MARK_CHAIN (R294): a core access as a page fault; a routine pauses, a copy command suspends (R214, R235). -/
def execMarkChain (s : State) : Host.Outcome State Fault Refusal :=
  match s.ev.who with
  | .core n => .next (s.coreFault n 0x31)
  | .routine k => execRoutinePause { s with ev := { s.ev with core := k } }
  | .copy cl _ => execCopySuspend { s with ev := { s.ev with core := cl } }

/-! ### Traps -/

/-- TRAP_ENTRY (R347): the trap of context `ev.n` is taken. -/
def execTrapEntry (s : State) : Host.Outcome State Fault Refusal :=
  .next (
    match (s.ctx s.ev.n).trapP with
    | some t => s.takeTrap s.ev.n t
    | none => s)

/-- The first fatal trap of a context, by slot (R348): of those reported as fatal, and of its handled traps where they are. -/
def State.firstFatal (s : State) (n : Nat) : Option TrapRec :=
  let c := s.ctx n
  ((c.trapP.toList ++ c.trapQ).filter (s.isFatal n)).foldl (fun a t => slotFirst a (some t)) c.fatalP

/-- FATAL_TRAP (R348): the fatal trap of context `ev.n` ends its kernel; a context of a kernel that has ended stops behind the repeats
of its bundle, with the commands that these have queued. -/
def execFatalTrap (s : State) : Host.Outcome State Fault Refusal :=
  .next (
    if (s.ctx s.ev.n).dies then (s.dropCommands [s.ev.n]).stopAll [s.ev.n]
    else match s.firstFatal s.ev.n with
    | some t => s.fatal s.ev.n t
    | none => s)

/-! ### Fusion -/

/-- FUSE_JOIN (R100): the members of the group of `ev.idx` cores that context `ev.n` leads go on at member 0's count. -/
def execFuseJoin (s : State) : Host.Outcome State Fault Refusal :=
  .next (
    let t := (s.ctx s.ev.n).ic
    s.onCtxs (fun c => { c with pass := true, ic := t }) ((upTo 0 s.ev.idx).map (fun k => s.ev.n + 2 * k)))

/-! ### Switches (R358) -/

/-- Every command and access of context `n` is now context `m`'s. -/
def Acc.rename (n m : Nat) (a : Acc) : Acc :=
  { a with
    n := if a.n = n then m else a.n,
    merged := a.merged.map (fun (x : Acc1) => if x.n = n then { x with n := m } else x) }

def State.rename (s : State) (n m : Nat) : State :=
  let f := fun (k : Nat) => if k = n then m else k
  { s with
    outq := s.outq.map (Acc.rename n m), net := s.net.map (Acc.rename n m),
    resps := s.resps.map (fun (r : Resp) => { r with acc := r.acc.rename n m }),
    portW := s.portW.map (fun (x : PortW) => { x with acc := x.acc.rename n m }),
    csrLate := s.csrLate.map (fun x => (f x.1, x.2)),
    clusters := s.clusters.map (fun e => (e.1, { e.2 with
      queue := e.2.queue.map (fun (c : CopyCmd) => { c with n := f c.n }) })),
    wings := s.wings.map (fun e => (e.1, { e.2 with
      reloc := e.2.reloc.map (fun (c : RelocCmd) => { c with n := f c.n, stores := c.stores.map (Acc.rename n m) }),
      link := e.2.link.map (fun (c : LinkCmd) => { c with n := f c.n }) })),
    cores := s.cores.map (fun e => (e.1, { e.2 with
      queue := e.2.queue.map (fun (r : Routine) => { r with n := f r.n }) })) }

/-- The suspended commands and paused routines of a switched-out context leave their queues with it (R213, R237). -/
def State.leaveQueues (s : State) (m : Nat) : State :=
  { s with
    clusters := s.clusters.map (fun e => (e.1, { e.2 with
      queue := e.2.queue.map (fun (c : CopyCmd) => { c with away := c.away || c.n == m }) })),
    cores := s.cores.map (fun e => (e.1, { e.2 with
      queue := e.2.queue.map (fun (r : Routine) => { r with away := r.away || r.n == m }) })) }

/-- A place for a switched-out context of number `n` (log 34, DESIGN CHOICE). -/
def State.awayPlace (s : State) (n : Nat) : Nat :=
  (((upTo 1 64).map (fun j => n + 192 * j)).find? (fun m => (s.ctx m).mode == .off)).getD (n + 192 * 65)

/-- The other context of a core. -/
def siblingOf (n : Nat) : Nat := if n % 2 = 0 then n + 1 else n - 1

/-- A context that has halted may leave with the others: its copy commands and its routines are suspended or done (R110, R213,
R237). -/
def State.haltedFree (s : State) (n : Nat) : Bool :=
  (s.ctx n).mode == .halted && s.copiesLeft n && s.routinesLeft n

/-- No other context uses the core's partition: the sibling is off, or has halted and none of its commands writes there any more
(R15, R358). -/
def State.lastOnCore (s : State) (n : Nat) : Bool :=
  let c := s.ctx (siblingOf n)
  c.mode == .off || (c.kernel == (s.ctx n).kernel && s.haltedFree (siblingOf n))

/-- What is saved of the core with context `n`. -/
def State.saveOf (s : State) (n : Nat) : Save :=
  let k := coreOf n
  let d := s.core k
  let mine := d.owns n
  let all := s.lastOnCore n
  { wake := (upTo 0 8).filterMap (fun w => if (mget {} d.wake w).n == n then some (w, mget {} d.wake w) else none),
    arrivedN := d.arrivedN.filter (fun x => mine x.1), consumed := d.consumed.filter (fun x => mine x.1),
    flitT := d.flitT.filter (fun x => mine x.1), locks := (d.locks.filter (fun l => l.1 == n)).map (fun l => l.2),
    pool := all, accg := d.accg, ctxn := d.ctxn, acc := if all then d.acc else [],
    cells := if all then s.mem.cells.filter (fun x => isScratch x.1 && scratchCore x.1 == k) else [],
    poison := if all then s.mem.poison.filter (fun x => isScratch x && scratchCore x == k) else [] }

/-- The core without a context: its comparators, slots and locks are free. -/
def Core.without (d : Core) (n : Nat) : Core :=
  let mine := d.owns n
  { d with
    wake := d.wake.filter (fun x => x.2.n != n), tokens := d.tokens.filter (fun w => (mget {} d.wake w).n != n),
    arrivedN := d.arrivedN.filter (fun x => !mine x.1), consumed := d.consumed.filter (fun x => !mine x.1),
    flitT := d.flitT.filter (fun x => !mine x.1), locks := d.locks.filter (fun l => l.1 != n) }

/-- One context leaves: it keeps its state at its new place. DEDUCED (log 72). -/
def State.switchOne (s : State) (n : Nat) : State :=
  let m := s.awayPlace n
  let c := s.ctx n
  let s1 := { (s.rename n m).leaveQueues m with saves := mput s.saves m (s.saveOf n) }
  let s2 := s1.onCore (coreOf n) (fun d => d.without n)
  (s2.setCtx m { c with
    mode := .switchedOut, swOut := false, pend := false, fs := false, wdogC := 0, fences := [], part := none }).setCtx n {}

def State.switchAll (s : State) : List Nat → State
  | [] => s
  | n :: l => (s.switchOne n).switchAll l

/-- The contexts that had halted leave with the others. -/
def State.haltedAway (s : State) : List Nat → State
  | [] => s
  | n :: l =>
    let m := s.awayPlace n
    let s1 := s.switchOne n
    let v : Save := mget {} s1.saves m
    State.haltedAway { s1 with saves := mput s1.saves m { v with halt := true } } l

/-- Every context of a kernel, one at least, has been switched out, or has halted and may leave (R381). -/
def State.kernelLeft (s : State) (k : Nat) : Bool :=
  let ns := s.ctxsOf k
  ns.any (fun n => (s.ctx n).mode == .switchedOut) && ns.all (fun n => (s.ctx n).mode == .switchedOut || s.haltedFree n)

/-- A kernel that has left is queued again at its PRIO (R381). What it has used of its budget counts from its start (R374). -/
def State.kernelOut (s : State) (k : Nat) : State :=
  if s.kernelLeft k then
    let s := s.haltedAway ((s.ctxsOf k).filter (fun n => (s.ctx n).mode == .halted))
    match s.mod.kernels.find? (fun e => e.1 == k) with
    | none => s
    | some e =>
      let k1 : Kernel := { e.2 with state := .out, preq := false, order := s.uid, since := s.cycle }
      { s with uid := s.uid + 1, mod := { s.mod with kernels := mput s.mod.kernels k k1 } }
  else s

/-- SWITCH_OUT (R358, R381): the machine that context `ev.n` leads leaves its cores; with `ev.idx` 1, kernel `ev.id`, whose contexts
have left or halted, is queued again. -/
def execSwitchOut (s : State) : Host.Outcome State Fault Refusal :=
  .next (
    if s.ev.idx = 1 then s.kernelOut s.ev.id
    else if (s.ctx s.ev.n).mode = .running then s.switchAll (s.membersOf s.ev.n) else s)

/-- The core of a context as its saved state puts it back, with all tokens pending (R250, R358): the counts of its slots are the
saved ones (R334). -/
def Core.restore (d0 : Core) (n : Nat) (v : Save) : Core :=
  let mine := (if v.pool then { d0 with ctxn := v.ctxn } else d0).owns n
  let d := { d0 with
    arrivedN := d0.arrivedN.filter (fun x => !mine x.1), consumed := d0.consumed.filter (fun x => !mine x.1),
    flitT := d0.flitT.filter (fun x => !mine x.1) }
  let d1 := { d with
    wake := v.wake.foldl (fun m x => mput m x.1 { x.2 with n := n }) d.wake,
    tokens := d.tokens ++ (v.wake.filter (fun x => x.2.armed)).map (fun x => x.1),
    arrivedN := v.arrivedN.foldl (fun m x => mput m x.1 x.2) d.arrivedN,
    consumed := v.consumed.foldl (fun m x => mput m x.1 x.2) d.consumed,
    flitT := v.flitT.foldl (fun m x => mput m x.1 x.2) d.flitT,
    locks := d.locks ++ v.locks.map (fun l => (n, l)) }
  if v.pool then { d1 with accg := v.accg, ctxn := v.ctxn, acc := v.acc } else d1

/-- The saved scratchpad of a core is put back (R15, R358). -/
def Mem.restorePool (m : Mem) (k : Nat) (v : Save) : Mem :=
  if v.pool then
    { m with
      cells := v.cells.foldl (fun l x => cellsPut l x.1 x.2)
        (m.cells.filter (fun x => !(isScratch x.1 && scratchCore x.1 == k))),
      poison := v.poison.foldl sIns (m.poison.filter (fun x => !(isScratch x && scratchCore x == k))) }
  else m

/-- The flits held for a context's slots (R334). -/
def State.keptFor (s : State) (n : Nat) : List Flit → State
  | [] => s
  | f :: l =>
    let w := s.wing (wingOf n)
    (if s.slotOwner f.core f.slot = n then
      (s.setWing (wingOf n) { w with kept := w.kept.erase f }).flitIn f
    else s).keptFor n l

/-- When every member of a machine that left at a `cend` step is back, its next round starts (R317). -/
def State.resumeRound (s : State) (n : Nat) : State :=
  let lead := s.leadN n
  let l := (s.ctx lead).cloop
  if l.on && l.phase == 3 && (s.membersOf lead).all (fun m => (s.ctx m).mode == .running) then s.startRound lead else s

/-- A context returns from its place `m` to its own number. -/
def State.switchBack (s : State) (m : Nat) : State :=
  let n := m % 192
  let v := mget {} s.saves m
  let c := s.ctx m
  if c.mode ≠ .switchedOut then s
  else
    let s1 := { (s.rename m n) with
      saves := s.saves.filter (fun e => e.1 != m), ctxs := s.ctxs.filter (fun e => e.1 != m),
      mem := s.mem.restorePool (coreOf n) v }
    let s2 := (s1.onCore (coreOf n) (fun d => d.restore n v)).setCtx n
      { c with mode := if v.halt then .halted else .running, wdogC := 0, fetchAt := s.cycle + 1 }
    (s2.keptFor n (s2.wing (wingOf n)).kept).resumeRound n

/-- SWITCH_IN (R358): the context at place `ev.n` resumes on its logical core. -/
def execSwitchIn (s : State) : Host.Outcome State Fault Refusal := .next (s.switchBack s.ev.n)

/-! ### The watchdog (R357) -/

/-- WATCHDOG_OVERRUN (R357): the count of context `ev.n` exceeds its bound. DEDUCED (log 77). -/
def execWatchdogOverrun (s : State) : Host.Outcome State Fault Refusal :=
  .next (s.onCtx s.ev.n (fun c => { c with ovr := true, fs := c.fs || c.pend, hw := 0x018 :: c.hw }))

/-- WATCHDOG (R357): the kernel of context `ev.n` is killed. -/
def execWatchdog (s : State) : Host.Outcome State Fault Refusal :=
  .next (
    let c := s.ctx s.ev.n
    s.fatal s.ev.n { code := .watchdog, ba := c.nextPc, ra := c.nextPc, scy := c.scy })

/-! ### Debug stops (R359) -/

/-- The cause of a stop before the next bundle of context `n` leads, for one member: WHY and IDX. -/
def Ctx.stopCause (c : Ctx) (addr : Option Nat) : Option (Nat × Nat) :=
  match c.stopReq, addr.bind c.breakAt with
  | some (w, i), some b => if w < 2 then some (w, i) else some (2, b)
  | some x, none => some x
  | none, some b => some (2, b)
  | none, none => if c.hostReq then some (5, 0) else none

/-- The cause of the smallest WHY. DEDUCED (log 66). -/
def firstCause : List (Option (Nat × Nat)) → Option (Nat × Nat)
  | [] => none
  | x :: l =>
    match x, firstCause l with
    | some a, some b => if b.1 < a.1 then some b else some a
    | some a, none => some a
    | none, y => y

/-- `DBG` of a stopped context (R360). -/
def Ctx.stopAt (c : Ctx) (why idx ba : Nat) : Ctx :=
  { c with
    mode := .stopped, stopReq := none, hostReq := false,
    dbg := (c.dbg &&& 0xC000000000000000) ||| BitVec.ofNat 64 (2 ^ 61 + why % 8 * 2 ^ 58 + idx % 4 * 2 ^ 56 + ba / 2 % 2 ^ 47) }

def State.traceStops (s : State) (ba why : Nat) : List Nat → State
  | [] => s
  | n :: l => (s.traceStop n ba why).traceStops ba why l

/-- DEBUG_STOP (R359): the machine that context `ev.n` leads stops before its next bundle. -/
def execDebugStop (s : State) : Host.Outcome State Fault Refusal :=
  .next (
    let n := s.ev.n
    let ms := s.membersOf n
    let ba := (s.ctx n).nextPc
    let z := (firstCause (ms.map (fun m => (s.ctx m).stopCause (some ba)))).getD (5, 0)
    (s.onCtxs (fun c => c.stopAt z.1 z.2 ba) ms).traceStops ba z.1 ms)

/-- DEBUG_RESUME (R359): the machine that context `ev.n` leads goes on with the stopped bundle. -/
def execDebugResume (s : State) : Host.Outcome State Fault Refusal :=
  .next (s.onCtxs (fun c =>
    if c.mode = .stopped then
      { c with mode := .running, resumed := some (s.ctx s.ev.n).nextPc, dbg := c.dbg &&& 0xDFFFFFFFFFFFFFFF }
    else c) (s.membersOf s.ev.n))

/-! ### Samples and supersteps -/

def State.sampleAll (s : State) : List Nat → State
  | [] => s
  | n :: l =>
    (if ((s.ctx n).mode = .running ∨ (s.ctx n).mode = .stopped) ∧ !s.frozen (coreOf n) then s.traceSample n else s).sampleAll l

/-- TRACE_SAMPLE (R363): every resident, unfrozen and unhalted context of wing `ev.core` gives a record. -/
def execTraceSample (s : State) : Host.Outcome State Fault Refusal :=
  .next (
    let w := s.ev.core
    let s1 := s.sampleAll (upTo (48 * w) 48)
    s1.setWing w { s1.wing w with sample := false })

/-- The machine of a context waits at `sstep`: that counts for every member (R259). -/
def State.reachesSstep (s : State) (n : Nat) : Bool := (s.membersOf (s.leadN n)).any (fun m => (s.ctx m).reach == .sstep)

/-- A participant of a superstep has reached it (R259). -/
def State.atSstep (s : State) (n : Nat) : Bool := (s.ctx n).mode == .halted || s.reachesSstep n

/-- A command of the wing's link engine that receives: no transfer of its context's own (R327). -/
def State.isRecv (s : State) (n id : Nat) : Bool := (s.wing (wingOf n)).link.any (fun c => c.id == id && c.op != 0)

/-- Every store, atomic, command, transfer and routine that a context has issued has performed (R169, R259); what a carry round holds is
not waited for (R162). DEDUCED (log 69). -/
def State.allPerformed (s : State) (n : Nat) : Bool :=
  let c := s.ctx n
  c.outs.all (fun o => o.perf || o.kind == 0 || o.kind == 5 || (o.kind == 3 && s.isRecv n o.id)) &&
    (c.carry.active || c.larder.all (fun e => e.dead || e.op.kindOf.isNone))

/-- The superstep of a kernel can complete, as the end of a cycle finds it: every participant has reached it, what each has issued has
performed, and so have its `bset`s (R169, R259). DEDUCED (log 69). -/
def State.sstepReady (s : State) (k : Nat) : Bool :=
  let ns := s.ctxsOf k
  ns.any (fun n => (s.ctx n).reach == .sstep) && ns.all (fun n => s.atSstep n && s.allPerformed n) &&
    s.barIn.all (fun b => b.set.isNone || !ns.contains (2 * b.core + (bbit b.b).toNat))

/-- SUPERSTEP_COMPLETE (R259): every participant of kernel `ev.id` may issue its `sstep`. -/
def execSuperstepComplete (s : State) : Host.Outcome State Fault Refusal :=
  .next (s.onCtxs (fun c => { c with pass := true, reach := .none }) ((s.ctxsOf s.ev.id).filter s.reachesSstep))

end Sys2Proof.Machine
end

