-- ==== Sys2Proof/Machine/Launch.lean ====
section
/-! DEFINITION. The command processor: the ring (R371 to R373), launch records, their checks, start and retirement (R374 to
R383, R390 to R394), pre-emption and preloading (R381, R382), and kernel graphs (R384 to R386). Waiting launches and
activations stand in the module's state. -/

namespace Sys2Proof.Machine

/-- A field of `n` bits of a number. -/
def fieldOf (v lo n : Nat) : Nat := v / 2 ^ lo % 2 ^ n

/-! ### Launch records (R374)

A record and its code object are read from memory whenever a field is needed: at the ring entry, at the start and at retirement.
DESIGN CHOICE (log 99). -/

def State.recTtb (s : State) (r : Nat) : Nat := s.rd (r + 16) 8
def State.recPart (s : State) (r : Nat) : Nat := s.rd (r + 24) 8
def State.recArgs (s : State) (r : Nat) : Nat := s.rd (r + 32) 8
def State.recNarg (s : State) (r : Nat) : Nat := s.rd (r + 40) 4
def State.recFlags (s : State) (r : Nat) : Nat := s.rd (r + 44) 4
def State.recBudget (s : State) (r : Nat) : Nat := s.rd (r + 48) 8
def State.recTvec (s : State) (r : Nat) : Nat := s.rd (r + 56) 8
def State.recTfa (s : State) (r : Nat) : Nat := s.rd (r + 64) 8
def State.recStatus (s : State) (r : Nat) : Nat := s.rd (r + 72) 8
def State.recLbase (s : State) (r : Nat) : Nat := s.rd (r + 80) 4
def State.recRetry (s : State) (r : Nat) : Nat := s.rd (r + 84) 4
def State.recBar (s : State) (r i : Nat) : Nat := s.rd (r + 88 + 4 * i) 4
def State.recPrio (s : State) (r : Nat) : Nat := s.recFlags r % 4

/-- A record breaks outcome 3 (R377): CODE, ARGS and STATUS are device addresses (R374; log 98, DEDUCED). -/
def State.recBad (s : State) (r : Nat) : Bool :=
  decide (r % 64 ≠ 0) || decide (s.rd r 8 = 0) || decide (s.recCode r % 64 ≠ 0 ∨ deviceSize ≤ s.recCode r) || decide (s.recTtb r % 8192 ≠ 0) ||
  decide (2 ^ 16 ≤ s.recPart r) || decide (s.recArgs r % 8 ≠ 0 ∨ deviceSize < s.recArgs r + 8 * s.recNarg r) || decide (1040 < s.recNarg r) ||
  decide (s.recNarg r = 0 ∧ s.recArgs r ≠ 0) || decide (64 ≤ s.recFlags r) ||
  decide (2 ^ 48 ≤ s.recTvec r ∨ s.recTvec r % 2 ≠ 0) || decide (2 ^ 48 ≤ s.recTfa r ∨ s.recTfa r % 128 ≠ 0) ||
  decide (deviceSize < s.recStatus r + 192 ∨ s.recStatus r % 64 ≠ 0) || decide (s.recLbase r % 4 ≠ 0) || decide (16 ≤ s.recRetry r) ||
  (upTo 0 16).any (fun i => decide (2 ^ 17 ≤ s.recBar r i)) || decide (s.rd (r + 152) 104 ≠ 0)

/-! ### Code objects (R390 to R394) -/

/-- A code object breaks outcome 4 (R390, R391). -/
def State.codeBad (s : State) (code : Nat) : Bool :=
  let n := s.rd (code + 6) 2
  decide (s.rd code 4 ≠ 0x4A4F5A4B) || decide (s.rd (code + 4) 2 ≠ 1) || decide (n = 0 ∨ 64 < n) ||
  decide (s.rd (code + 16) 48 ≠ 0) ||
  (upTo 0 n).any (fun i =>
    let ty := s.rd (code + 64 + 16 * i) 4
    let req := s.rd (code + 68 + 16 * i) 4
    decide (1 < req) || decide (s.rd (code + 72 + 16 * i) 4 % 64 ≠ 0) || (decide (ty = 0 ∨ 10 < ty) && decide (req = 1))) ||
  (s.section? code 3).isNone || (s.section? code 4).isNone || (s.section? code 7).isNone ||
  (match s.section? code 1 with
    | none => true
    | some (a, _) => decide (s.rd a 2 ≠ 1) || decide (s.rd (a + 8) 8 &&& dfeat ≠ s.rd (a + 8) 8))

/-- The native stamp matches (R392). -/
def State.stampOk (s : State) (code : Nat) : Bool :=
  match s.section? code 2 with
  | some (a, _) => s.mem.read a 48 == dhashBytes
  | none => false

/-- The placement map: symbol, context number as placed (R379, R394), and the byte that names the context. -/
def State.places (s : State) (r : Nat) : List (Nat × Nat × Nat) :=
  match s.section? (s.recCode r) 7 with
  | none => []
  | some (a, len) => (upTo 0 (len / 8)).map (fun i =>
      let x := s.rd (a + 8 * i + 5) 1
      (s.rd (a + 8 * i) 4, 2 * (s.rd (a + 8 * i + 4) 1 + s.recLbase r) + x % 2, x))

/-- A placement breaks outcome 8 as far as the record alone says (R377). -/
def State.placeBad (s : State) (r : Nat) : Bool :=
  let ps := s.places r
  ps.any (fun p => decide (192 ≤ p.2.1) || decide (2 ≤ p.2.2) || (decide (s.recPart r % 4 = 1) && p.2.2 == 1)) ||
    decide ((ps.map (fun p => p.2.1)).eraseDups.length ≠ ps.length)

/-- The partition word breaks outcome 6 (R15). -/
def partBad (w : Nat) : Bool :=
  decide (w % 4 = 0 ∨ w % 4 = 3) || decide (96 < fieldOf w 8 8) || decide (fieldOf w 2 6 ≠ 0)

/-- A translation entry is refused (R136). An unused one may have any LSZ: 0, above all, which an entry of zeros has.
DEDUCED (log 93). -/
def TEntry.bad (e : TEntry) : Bool :=
  let k := e.kind
  let node := (bits e.w1 48 16).toNat
  let scratch := k == 1 || k == 2 || k == 3
  decide (bits e.w0 48 16 ≠ 0) || k == 7 || (k != 0 && decide (e.lsz < 16 ∨ 40 < e.lsz)) || decide (e.vbase % 2 ^ e.lsz ≠ 0) ||
  decide (e.tbase % 65536 ≠ 0) || (scratch && (decide (23 < e.lsz) || e.mv || e.x)) || (e.rem != (k == 5 || k == 6)) ||
  (k == 6 && decide (node < 2 ^ 15)) || (k == 5 && decide (2 ^ 15 ≤ node)) ||
  (k == 4 && decide (deviceSize < e.tbase + 2 ^ e.lsz)) || ((k == 0 || k == 1 || k == 4) && node != 0) ||
  (k == 2 && decide (4 ≤ node)) || (k == 3 && decide (96 ≤ node))

/-- Every entry of a master table is checked (R136). -/
def State.masterBad (s : State) (base : Nat) : Bool := (upTo 0 512).any (fun i => (s.masterEntry base i).bad)

/-- The table that a master holds; unused entries are not listed (R355). -/
def State.masterTable (s : State) (base : Nat) : TMap TEntry :=
  (upTo 0 512).filterMap (fun i => let e := s.masterEntry base i; if e.kind = 0 then none else some (i, e))

/-- The first check that a record fails (R377); 0 where it passes. -/
def State.launchCheck (s : State) (r : Nat) : Nat :=
  let code := s.recCode r
  if s.recBad r then 3
  else if s.codeBad code then 4
  else if !s.stampOk code then 5
  else if partBad (s.recPart r) then 6
  else if s.masterBad (fieldOf (s.recTtb r) 13 35 * 8192) then 7
  else if s.placeBad r then 8
  else 0

/-! ### Completion (R378) -/

/-- The completion record of a launch: the bytes after the first word, then DONE and the outcome. -/
def State.complete (s : State) (r out cyc reruns : Nat) (spawnX : Bool) (frame : List Byte) : State :=
  let a := s.recStatus r
  let tail := toBytes (s.rd r 8) 8 ++ toBytes cyc 8 ++ toBytes (reruns % 16 + (if spawnX then 16 else 0)) 8 ++ toBytes 0 32 ++
    (frame ++ List.replicate 128 0).take 128
  { s with mem := (s.mem.store (a + 8) tail []).store a (toBytes (2 ^ 63 + out) 8) [] }

/-! ### Launching -/

/-- Activations join the queue (R385). -/
def State.activate (s : State) (as : List Activation) : State := { s with mod := { s.mod with acts := s.mod.acts ++ as } }

/-- The activations of the nodes that a node names. An address of 0 names none. DEDUCED (log 70). -/
def Activation.toward (a : Activation) (ns : List Nat) : List Activation :=
  (ns.filter (fun x => x != 0)).map (fun x => { a with node := x })

/-- The successors of a node. -/
def State.nodeNext (s : State) (a : Nat) : List Nat := (upTo 0 4).map (fun i => s.rd (a + 24 + 8 * i) 8)

/-- The activation that a `spawn` of kernel `k` makes of a node. -/
def State.spawned (s : State) (k node prio : Nat) : Activation :=
  { node := node, prio := prio, by' := some k,
    st := match s.mod.kernels.find? (fun e => e.1 == k) with | some e => s.recStatus e.2.record | none => 0 }

/-- STATE of a node is written. -/
def State.setNode (s : State) (a : Nat) (v : Nat) : State := { s with mem := s.mem.store (a + 8) (toBytes v 8) [] }

/-- A record is checked and queued, or refused with its outcome (R377, R379). PRIO 4 stands for the record's own. -/
def State.launch (s : State) (r prio : Nat) (node : Option Nat) : State :=
  match s.launchCheck r with
  | 0 =>
    let k : Kernel := { record := r, seq := BitVec.ofNat 64 (s.rd r 8), prio := if prio < 4 then prio else s.recPrio r,
                        order := s.uid, since := s.cycle, places := (s.places r).map (fun p => p.2.1),
                        budget := s.recBudget r, retry := s.recRetry r, node := node }
    { s with uid := s.uid + 1, mod := { s.mod with kernels := mput s.mod.kernels (s.uid + 1) k } }
  | out =>
    let s1 := s.complete r out 0 0 false []
    match node with
    | some a => s1.setNode a (s1.rd (a + 8) 8 % 2 ^ 63)
    | none => s1

/-! ### The ring (R371, R372) -/

def State.ringAt (s : State) : Nat :=
  fieldOf s.mod.ring.toNat 6 42 * 64 + 8 * (s.mod.head.toNat % 2 ^ fieldOf s.mod.ring.toNat 0 6)

/-- The next ring entry, while HEAD ≠ TAIL. -/
def State.ringEntry (s : State) : Option Nat := if s.mod.head = s.mod.tail then none else some (s.rd s.ringAt 8)

/-- An entry that is skipped. -/
def ringBad (e : Nat) : Bool := decide (e / 2 ^ 62 = 3) || decide (fieldOf e 48 14 ≠ 0) || decide (e % 64 ≠ 0)

def Module.skipped (m : Module) (k : Nat) : Module :=
  let n := min 0xFFFF (m.skip.toNat + k)
  { m with skip := BitVec.ofNat 16 n, skipNow := m.skipNow + BitVec.ofNat 16 (n - m.skip.toNat) }

/-- HEAD moves past an entry. -/
def State.takeEntry (s : State) : State := { s with mod := { s.mod with head := s.mod.head + 1 } }

/-- START (R372, R373): a store of `ev.v` to the start word; with `ev.idx` 1 the command processor skips a bad entry. -/
def execStart (s : State) : Host.Outcome State Fault Refusal :=
  .next (
    if s.ev.idx = 1 then { s.takeEntry with mod := s.takeEntry.mod.skipped 1 }
    else
      let tail : BitVec 32 := bits s.ev.v 0 32
      let m := { s.mod with tail := tail }
      let room := 2 ^ fieldOf m.ring.toNat 0 6
      let n := (tail - m.head).toNat
      { s with mod := if room < n then Module.skipped { m with head := tail - BitVec.ofNat 32 room } (n - room) else m })

/-- LAUNCH (R377, R383): the ring entry of the record at `ev.addr`. -/
def execLaunch (s : State) : Host.Outcome State Fault Refusal :=
  .next (
    let s1 := s.takeEntry
    let seq := BitVec.ofNat 64 (s1.rd s.ev.addr 8)
    if seq.toNat ≤ s1.mod.seqTop.toNat then { s1 with mod := s1.mod.skipped 1 }
    else { s1 with mod := { s1.mod with seqTop := seq } }.launch s.ev.addr 4 none)

/-- A node that is not valid: bit 4 of the completion record of the kernel that spawned it (R378, R385, R387), also where that kernel
has retired. -/
def State.badNode (s : State) (a : Activation) : State :=
  match a.by' with
  | none => s
  | some k =>
    if s.mod.kernels.any (fun e => e.1 == k) then
      { s with mod := { s.mod with kernels := s.mod.kernels.map (fun e => if e.1 = k then (e.1, { e.2 with spawnX := true }) else e) } }
    else { s with mem := s.mem.store (a.st + 24) [BitVec.ofNat 8 (s.rd (a.st + 24) 1 ||| 16)] [] }

/-- GRAPH (R385): the ring entry of the node at `ev.addr`. With `ev.idx` 1 the first activation names no valid node, and
the kernel that spawned it is told (R387). -/
def execGraph (s : State) : Host.Outcome State Fault Refusal :=
  .next (
    if s.ev.idx = 1 then
      match s.mod.acts with
      | [] => s
      | a :: l => { s with mod := { s.mod with acts := l } }.badNode a
    else s.takeEntry.activate [{ node := s.ev.addr, prio := 4 }])

/-- A waiting kernel goes, with its outcome (R377, R382). -/
def State.dropKernel (s : State) (id : Nat) : State :=
  { s with mod := { s.mod with kernels := s.mod.kernels.filter (fun e => e.1 != id) } }

/-- A launch without its preload. -/
def Kernel.bare (k : Kernel) : Kernel := { k with pre := false, preOn := [], preArg := [] }

/-- The granules of the context B of cores are empty again. -/
def State.clearPre (s : State) : List Nat → State
  | [] => s
  | c :: l => (if (s.ctx (2 * c + 1)).mode == .off then s.setCtx (2 * c + 1) {} else s).clearPre l

/-- Preloads go for which `f` holds (R382). -/
def State.discard (s : State) (f : Nat × Kernel → Bool) : State :=
  let s1 := s.clearPre ((s.mod.kernels.filter f).flatMap (fun e => e.2.preOn))
  { s1 with mod := { s1.mod with kernels := s1.mod.kernels.map (fun e => if f e then (e.1, e.2.bare) else e) } }

/-- KILL (R372): the kernel of the record at `ev.addr` is killed; one that waits is refused with outcome 2. -/
def execKill (s : State) : Host.Outcome State Fault Refusal :=
  .next (
    let s1 := s.takeEntry
    match s1.mod.kernels.find? (fun e => e.2.record == s.ev.addr) with
    | none => s1
    | some e =>
      if e.2.state = .waiting then
        let s2 := ((s1.discard (fun x => x.1 == e.1)).complete e.2.record 2 0 e.2.reruns e.2.spawnX []).dropKernel e.1
        match e.2.node with
        | some a => s2.setNode a (s2.rd (a + 8) 8 % 2 ^ 63)
        | none => s2
      else s1.killKernel e.1 2 [])

/-! ### Start (R375, R376, R379, R380) -/

/-- A kernel runs on a context. -/
def State.held (s : State) (n : Nat) : Bool := (s.ctx n).mode != .off

/-- A core is shared: its other context runs a kernel. -/
def State.shares (s : State) (n : Nat) : Bool := s.held (siblingOf n)

/-- The cluster is being retired (R403). -/
def State.leaving (s : State) (cl : Nat) : Bool :=
  s.mod.svc.busy && s.mod.svc.act == 3 && decide (s.mod.svc.tgt.toNat = cl)

/-- The contexts of a kernel are free, and shared cores have its partition word (R379). -/
def State.placesFree (s : State) (k : Kernel) : Bool :=
  k.places.all (fun n => !s.held n && !s.leaving (clusterOf n) && (!s.shares n || (s.core (coreOf n)).partWord.toNat == s.recPart k.record))

/-- A launch that has waited 2^20 cycles keeps launches of lower PRIO off its contexts (R379). -/
def State.overtaken (s : State) (k : Kernel) : Bool :=
  s.mod.kernels.any (fun e => e.2.state != .running && decide (k.prio < e.2.prio) && decide (e.2.since + 2 ^ 20 ≤ s.cycle) &&
    e.2.places.any (fun n => k.places.contains n))

/-- The first of two waiting launches: higher PRIO, then earlier in order. -/
def Kernel.before (a b : Kernel) : Bool := decide (b.prio < a.prio) || (a.prio == b.prio && decide (a.order < b.order))

def bestOf : List (Nat × Kernel) → Option (Nat × Kernel)
  | [] => none
  | x :: l =>
    match bestOf l with
    | some y => if y.2.before x.2 then some y else some x
    | none => some x

/-- A launch waits to start, or a kernel that was switched out to resume: while the module is hot, no new launch starts (R405). -/
def State.mayStart (s : State) (k : Kernel) : Bool :=
  k.dying.isNone && (k.state == .out || (k.state == .waiting && !s.mod.hot))

/-- The launch that starts in this cycle (R379). -/
def State.startable (s : State) : Option Nat :=
  if s.mod.stage ≠ 6 || !s.mod.power then none
  else (bestOf (s.mod.kernels.filter (fun e => s.mayStart e.2 && s.placesFree e.2 && !s.overtaken e.2))).map (fun e => e.1)

/-- The argument registers of a record (R375). -/
def State.argRegs (s : State) (r : Nat) : RegFile 64 1 :=
  { base := (upTo 0 (min 16 (s.recNarg r))).map (fun i =>
      (i + 1, [{ val := { v := BitVec.ofNat 64 (s.rd (s.recArgs r + 8 * i) 8) } }])) }

/-- What the registers and the table copies of a context hold at its start: from the record, or as preloaded beside it in the granule
of context B (R375, R376, R382). -/
def State.startImage (s : State) (k : Kernel) (n : Nat) : RegFile 64 1 × TMap TEntry :=
  if k.pre && k.preOn.contains (coreOf n) then ((s.ctx (2 * coreOf n + 1)).sa, (s.ctx (2 * coreOf n + 1)).table.core)
  else (s.argRegs k.record, s.masterTable (fieldOf (s.recTtb k.record) 13 35 * 8192))

/-- A context at its start (R376), with the registers and the table `im`. -/
def State.startCtx (s : State) (id r sym : Nat) (im : RegFile 64 1 × TMap TEntry) : Ctx :=
  let tab := im.2
  let fl := s.recFlags r
  let note := ((s.section? (s.recCode r) 1).map (fun z => z.1)).getD 0
  { sa := im.1, mode := .running, kernel := id, pc := s.entryPc r sym tab, fetchAt := s.cycle + 1,
    ttb := BitVec.ofNat 64 (s.recTtb r), table := { core := tab, eng := tab }, tvec := BitVec.ofNat 64 (s.recTvec r),
    tfa := BitVec.ofNat 64 (s.recTfa r), lvl := fl / 4 % 2 == 1, kl := fl / 4 % 2 == 1,
    nunit := { exact := fl / 8 % 2 == 1 }, ilk := s.rd (note + 16) 1 % 2 == 1, wdb := BitVec.ofNat 32 (s.rd (note + 4) 4) }

/-- The bytes of the argument slots 16 and up (R375). -/
def State.argBytes (s : State) (r : Nat) : List Byte := s.mem.read (s.recArgs r + 128) (8 * (s.recNarg r - 16))

/-- Arguments 16 and up in the scratchpad of core `c`: from memory, or as staged by a preload (R375, R382). -/
def State.argScratch (s : State) (k : Kernel) (c : Nat) : State :=
  if s.recNarg k.record ≤ 16 then s
  else { s with mem := s.mem.store (scratchHome c 0) (if k.pre then k.preArg else s.argBytes k.record) [] }

/-- The `.data` of scratch places, through a context's table (R375, R394, log 35, DEDUCED). -/
def State.dataGo (s : State) (n : Nat) (tab : TMap TEntry) (stop : Nat) : Nat → Nat → State
  | 0, _ => s
  | k + 1, a =>
    if stop ≤ a then s
    else
      let va := s.rd a 8
      let len := s.rd (a + 8) 8
      let next := a + 16 + (len + 7) / 8 * 8
      let s1 := match tLookup tab va with
        | some e =>
          if e.kind ≤ 3 then s.storeAt (e.tgt (coreOf n) va).home (s.mem.read (a + 16) (min len scratchSpan)) [] else s
        | none => s
      s1.dataGo n tab stop k next
termination_by structural k _ => k

def State.loadData (s : State) (r n : Nat) : State :=
  match s.section? (s.recCode r) 9 with
  | some (a, len) => s.dataGo n (s.ctx n).table.core (a + len) (len / 16) a
  | none => s

/-- A core at the start of a kernel on its context `n`: the counts of the slots that it owns from now on are zero (R15, R247, R328, R376, R380). -/
def State.startCore (s : State) (r n : Nat) (shared : Bool) : State :=
  s.onCore (coreOf n) (fun d =>
    let d1 := if shared then d
      else { d with accg := BitVec.ofNat 8 (fieldOf (s.recPart r) 8 8), ctxn := BitVec.ofNat 2 (s.recPart r), acc := [] }
    d1.without n)

/-- The barriers of a cluster preset from a record (R251). -/
def State.presetBars (s : State) (r cl : Nat) : State :=
  let one := fun (i : Nat) =>
    let b := s.recBar r i
    let e := b % 65536
    (i, ({ exp := BitVec.ofNat 16 (if e = 0 then 1 else e), str := b / 65536 % 2 == 1 } : Barrier))
  s.setCluster cl { s.cluster cl with bars := (upTo 0 16).map one }

/-- What a start does once for each placed context. -/
def State.placeAll (s : State) (id r : Nat) (im : Nat → RegFile 64 1 × TMap TEntry) : List (Nat × Nat × Bool) → State
  | [] => s
  | (sym, n, shared) :: l =>
    let s1 := (s.startCore r n shared).setCtx n (s.startCtx id r sym (im n))
    (s1.loadData r n).placeAll id r im l

/-- The argument slots of every placed core, over any `.data` bytes there (R375). -/
def State.argsAll (s : State) (k : Kernel) : List (Nat × Nat × Bool) → State
  | [] => s
  | (_, n, _) :: l => (s.argScratch k (coreOf n)).argsAll k l

def State.fenAll (s : State) (on : Bool) : List Nat → State
  | [] => s
  | ar :: l => (s.setArr ar { s.arr ar with fen := on }).fenAll on l

def State.presetAll (s : State) (r : Nat) : List Nat → State
  | [] => s
  | cl :: l => (s.presetBars r cl).presetAll r l

def State.setKernel (s : State) (id : Nat) (k : Kernel) : State := { s with mod := { s.mod with kernels := mput s.mod.kernels id k } }

/-- A launch that needs a context B holding a preload discards the preload first (R382). -/
def State.discardFor (s : State) (id : Nat) (k : Kernel) : State :=
  s.discard (fun e => e.1 != id && k.places.any (fun m => decide (m % 2 = 1) && e.2.preOn.contains (coreOf m)))

/-- A launch starts on its contexts (R376, R380). -/
def State.startKernel (s : State) (id : Nat) (k : Kernel) : State :=
  let ps := (s.places k.record).map (fun p => (p.1, p.2.1, s.shares p.2.1))
  let arrs := (ps.map (fun p => arrayOf (coreOf p.2.1))).eraseDups.filter (fun ar =>
    (upTo (4 * ar) 4).all (fun n => !s.held n))
  let cls := (ps.map (fun p => clusterOf p.2.1)).eraseDups.filter (fun cl => (upTo (8 * cl) 8).all (fun n => !s.held n))
  if ps.any (fun p => p.2.2) && decide (16 < s.recNarg k.record) then
    let s1 := ((s.discard (fun x => x.1 == id)).complete k.record 8 0 k.reruns k.spawnX []).dropKernel id
    match k.node with
    | some a => s1.setNode a (s1.rd (a + 8) 8 % 2 ^ 63)
    | none => s1
  else
    let s0 := s.discardFor id k
    let s1 := (((s0.fenAll (s.recFlags k.record / 16 % 2 == 1) arrs).presetAll k.record cls).placeAll id k.record (s.startImage k) ps).argsAll k ps
    (s1.clearPre k.preOn).setKernel id
      { k.bare with state := .running, start := if k.start = 0 then s.cycle + 1 else k.start, used := 0 }

/-- The contexts of a kernel that are away. -/
def State.awayAll (s : State) (id : Nat) : List Nat :=
  (s.ctxs.filter (fun e => e.2.kernel == id && e.2.mode == .switchedOut)).map (fun e => e.1)

/-- LAUNCH_START (R379): launch `ev.id` is placed and starts; one that was switched out resumes (R358, R381). -/
def execLaunchStart (s : State) : Host.Outcome State Fault Refusal :=
  .next (
    match s.mod.kernels.find? (fun e => e.1 == s.ev.id) with
    | none => s
    | some e =>
      match e.2.state with
      | .waiting => s.startKernel e.1 e.2
      | .out =>
        let back := (s.awayAll e.1).map (fun m => (Instr.switchIn, ({ n := m } : EvArg)))
        ({ s with todo := s.todo ++ back }.discardFor e.1 e.2).setKernel e.1 { e.2 with state := .running }
      | .running => s)

/-- A launch is the next to take a core: no other that waits, or waits to resume, for a context of that core comes before it (R379,
R382). -/
def State.nextOn (s : State) (k : Kernel) (c : Nat) : Bool :=
  !s.mod.kernels.any (fun e => e.2.state != .running && e.2.before k && e.2.places.any (fun n => coreOf n == c))

/-- The cores of a launch that it may be preloaded on (R382): core with two contexts, whose context A runs a kernel and whose context
B is free and holds no other preload, and which this launch is the next to take. -/
def State.preCores (s : State) (k : Kernel) : List Nat :=
  (k.places.map coreOf).eraseDups.filter (fun c => (s.core c).ctxn == 2 && !s.held (2 * c + 1) && s.held (2 * c) &&
    !s.mod.kernels.any (fun e => e.2.preOn.contains c) && s.nextOn k c)

/-- The table copies and the registers of a launch in the granule of context B of cores (R382). -/
def State.fillPre (s : State) (r : Nat) : List Nat → State
  | [] => s
  | c :: l =>
    let tab := s.masterTable (fieldOf (s.recTtb r) 13 35 * 8192)
    (s.setCtx (2 * c + 1)
      { sa := s.argRegs r, ttb := BitVec.ofNat 64 (s.recTtb r), table := { core := tab, eng := tab } }).fillPre r l

/-- PRELOAD (R382): launch `ev.id` is loaded beside what runs; its argument slots 16 and up are staged. -/
def execPreload (s : State) : Host.Outcome State Fault Refusal :=
  .next (
    match s.mod.kernels.find? (fun e => e.1 == s.ev.id) with
    | none => s
    | some e =>
      let cs := s.preCores e.2
      (s.fillPre e.2.record cs).setKernel e.1 { e.2 with pre := true, preOn := cs, preArg := s.argBytes e.2.record })

/-- A launch may be preloaded (R382). -/
def State.preloadable (s : State) (k : Kernel) : Bool :=
  k.state == .waiting && !k.pre && decide (s.recFlags k.record / 32 % 2 = 0) && !(s.preCores k).isEmpty

/-! ### Pre-emption (R381) -/

/-- A pre-emption is requested of a kernel: its contexts' PEND rises. -/
def State.request (s : State) (id : Nat) (k : Kernel) : State :=
  (s.setKernel id { k with preq := true }).onCtxs (fun c => { c with pend := true })
    ((s.ctxsOf id).filter (fun n => (s.ctx n).mode == .running || (s.ctx n).mode == .stopped))

/-- BUDGET_EXCEEDED (R381): kernel `ev.id` has run past its budget. -/
def execBudgetExceeded (s : State) : Host.Outcome State Fault Refusal :=
  .next (
    match s.mod.kernels.find? (fun e => e.1 == s.ev.id) with
    | none => s
    | some e => s.request e.1 { e.2 with overB := true })

/-- Running kernels that a waiting launch of higher PRIO asks to leave: one that may start. -/
def State.toPreempt (s : State) : List (Nat × Kernel) :=
  s.mod.kernels.filter (fun e => e.2.state == .running && !e.2.preq && e.2.dying.isNone &&
    s.mod.kernels.any (fun w => s.mayStart w.2 && decide (e.2.prio < w.2.prio) &&
      w.2.places.any (fun n => e.2.places.contains n)))

def State.requestAll (s : State) : List (Nat × Kernel) → State
  | [] => s
  | e :: l => (s.request e.1 e.2).requestAll l

/-! ### Retirement -/

/-- Nothing of a kernel is left to finish (R110, R348, R386). -/
def State.finished (s : State) (id : Nat) : Bool :=
  let ns := s.ctxsOf id
  ns.all (fun n => (s.ctx n).mode == .halted && (s.ctx n).outs.all (fun o => o.perf) && (s.ctx n).faultP.isNone &&
    (s.ctx n).fatalP.isNone) &&
  s.clusters.all (fun e => e.2.queue.all (fun c => !ns.contains c.n)) &&
  s.wings.all (fun e => e.2.reloc.all (fun c => !ns.contains c.n) && e.2.link.all (fun c => !ns.contains c.n)) &&
  s.cores.all (fun e => e.2.queue.all (fun r => !ns.contains r.n)) &&
  s.portW.all (fun x => !ns.contains x.acc.n) && s.outq.all (fun a => !ns.contains a.n) && s.net.all (fun a => !ns.contains a.n)

/-- The contexts of a kernel are free again. -/
def State.freeAll (s : State) : List Nat → State
  | [] => s
  | n :: l =>
    let s1 := s.onCore (coreOf n) (fun d => { d with
      wake := d.wake.filter (fun x => x.2.n != n), tokens := d.tokens.filter (fun w => (mget {} d.wake w).n != n),
      locks := d.locks.filter (fun x => x.1 != n), porch := d.porch.filter (fun e => e.n != n) })
    { s1 with ctxs := s1.ctxs.filter (fun e => e.1 != n), saves := s1.saves.filter (fun e => e.1 != n) }.freeAll l

/-- A kernel ends: its completion record, its node, its event (R378, R385, R401; log 101, DEDUCED); a fatal trap with a rerun left queues it
again (R374). -/
def State.retireKernel (s : State) (id : Nat) (k : Kernel) : State :=
  let s1 := s.freeAll (s.ctxsOf id)
  let out := k.dying.getD 0
  if out = 1 && k.reruns < k.retry then
    let s1 := s1.discard (fun e => match k.node, e.2.node with
      | some a, some b => (s.nodeNext a).contains b
      | _, _ => false)
    s1.setKernel id { k with state := .waiting, reruns := k.reruns + 1, dying := none, frame := [], preq := false,
                             overB := false, used := 0, since := s.cycle, start := 0 }
  else
    let s2 := (s1.complete k.record out (s.cycle + 1 - k.start) k.reruns k.spawnX k.frame).dropKernel id
    let s3 := if s.recPrio k.record = 3 then s2.notify 5 else s2
    match k.node with
    | none => s3
    | some a =>
      let s4 := s3.setNode a (s3.rd (a + 8) 8 % 2 ^ 63)
      if out = 0 then s4.activate (Activation.toward { node := a, prio := s.recPrio k.record } (s4.nodeNext a)) else s4

/-- KERNEL_RETIRE (R110): kernel `ev.id` has finished. -/
def execKernelRetire (s : State) : Host.Outcome State Fault Refusal :=
  .next (
    match s.mod.kernels.find? (fun e => e.1 == s.ev.id) with
    | some e => s.retireKernel e.1 e.2
    | none => s)

/-! ### Graph nodes (R384, R385) -/

/-- The first activation, taken. -/
def State.takeAct (s : State) (f : State → Activation → State) : State :=
  match s.mod.acts with
  | [] => s
  | a :: l => f { s with mod := { s.mod with acts := l } } a

def State.nodeKind (s : State) (a : Nat) : Nat := s.rd a 8 % 16

/-- NODE_KERNEL (R385). -/
def execNodeKernel (s : State) : Host.Outcome State Fault Refusal :=
  .next (s.takeAct (fun s a =>
    let st := s.rd (a.node + 8) 8
    if 2 ^ 63 ≤ st then s
    else (s.setNode a.node (st + 2 ^ 63)).launch (s.rd (a.node + 16) 8) a.prio (some a.node)))

/-- NODE_COND (R385). -/
def execNodeCond (s : State) : Host.Outcome State Fault Refusal :=
  .next (s.takeAct (fun s a =>
    let w := s.rd (s.rd (a.node + 16) 8) 8
    s.activate (a.toward [s.rd (a.node + (if w = 0 then 32 else 24)) 8])))

/-- NODE_LOOP (R385). -/
def execNodeLoop (s : State) : Host.Outcome State Fault Refusal :=
  .next (s.takeAct (fun s a =>
    let st := s.rd (a.node + 8) 8
    let body := s.rd (a.node + 24) 8
    let exit := s.rd (a.node + 32) 8
    if st / 2 ^ 62 % 2 = 0 then
      let c := s.rd (s.rd (a.node + 16) 8) 8 % 2 ^ 32
      if c = 0 then (s.setNode a.node 0).activate (a.toward [exit])
      else (s.setNode a.node (2 ^ 62 + c)).activate (a.toward [body])
    else
      let c := (st + 2 ^ 32 - 1) % 2 ^ 32
      if c = 0 then (s.setNode a.node 0).activate (a.toward [exit])
      else (s.setNode a.node (2 ^ 62 + c)).activate (a.toward [body])))

/-- NODE_JOIN (R385). -/
def execNodeJoin (s : State) : Host.Outcome State Fault Refusal :=
  .next (s.takeAct (fun s a =>
    let np := fieldOf (s.rd a.node 8) 8 8
    let c := (s.rd (a.node + 8) 8 + 1) % 2 ^ 32
    if c = np then (s.setNode a.node 0).activate (a.toward (s.nodeNext a.node))
    else s.setNode a.node c))

end Sys2Proof.Machine
end

