-- ==== Sys2Proof/Machine/Platform.lean ====
section
/-! DEFINITION. The platform: bring-up (R398, R399), the command-processor window (R371, R398, R401, R402, R404), service
actions (R400, R402, R403), attestation (R404), the thermal limits (R405), and requests of other nodes (R324, R337). -/

namespace Sys2Proof.Machine

/-! ### Power -/

/-- Everything of the module as it stands when power comes or goes: other nodes' memory, what has been sent, and what the
outside does next stay. Cycles, and the windows with them, count from here (R199). DEDUCED (log 75). -/
def State.repower (s : State) (on : Bool) : State :=
  { State.reset with
    mem := { cells := s.mem.cells.filter (fun x => decide (2 ^ 48 ≤ x.1)), marks := s.mem.marks.filter (fun x => decide (2 ^ 48 ≤ x)) },
    mod := { State.reset.mod with power := on, events := s.mod.events },
    inputs := s.inputs, picks := s.picks, frees := s.frees, uid := s.uid, sent := s.sent }

/-- POWER_UP (R398, R323, R326): the boot ROM trains the links, sets the node id and the tick count, and awaits the image. -/
def execPowerUp (s : State) : Host.Outcome State Fault Refusal :=
  .next (
    let s1 := s.repower true
    { s1 with
      picks := s1.picks + 1,
      mod := { s1.mod with stage := 1, node := Config.nodeId, ticks := Config.domainTicks s1.picks } })

/-- THERMAL_CRITICAL (R405): the hardware removes power. -/
def execThermalCritical (s : State) : Host.Outcome State Fault Refusal := .next (s.repower false)

/-- THERMAL_WARNING (R405): event 4, and no new launch. -/
def execThermalWarning (s : State) : Host.Outcome State Fault Refusal :=
  .next (let s1 := s.notify 4; { s1 with mod := { s1.mod with hot := true } })

/-- TEMPERATURE_FALLS (R405): launches may start again. -/
def execTemperatureFalls (s : State) : Host.Outcome State Fault Refusal :=
  .next { s with mod := { s.mod with hot := false } }

/-! ### Images (R399, R400) -/

/-- The body length that the header names: 4 bytes each for the magic, the length and the version (log 8, DESIGN CHOICE). -/
def State.imageLen (s : State) : Nat := s.mem.nat (imageBase + 4) 4

/-- The layout of R399. -/
def State.imageOk (s : State) : Bool :=
  decide (s.mem.nat imageBase 4 = 0x57465A4B) && decide (s.mem.nat (imageBase + 12) 52 = 0) &&
    decide (64 + s.imageLen + 64 + 3309 ≤ imageSize)

/-- Header and body. -/
def State.imageBody (s : State) : List Byte := s.mem.read imageBase (64 + s.imageLen % imageSize)

/-- Whether the two signatures verify. -/
def State.imageSigs (s : State) : Bool × Bool :=
  let at' := imageBase + 64 + s.imageLen % imageSize
  (Config.ed25519 s.imageBody (s.mem.read at' 64), Config.mlDsa65 s.imageBody (s.mem.read (at' + 64) 3309))

/-- The first failure of an image, in the order 3, 1, 2; 0 where it verifies. -/
def State.imageErr (s : State) : BitVec 8 :=
  if !s.imageOk then 3 else if !s.imageSigs.1 then 1 else if !s.imageSigs.2 then 2 else 0

/-- GO (R398, R400): a store of `ev.v`. -/
def execGo (s : State) : Host.Outcome State Fault Refusal :=
  .next (
    let m := s.mod
    if s.ev.v ≠ 1 then s
    else if m.stage = 1 then { s with mod := { m with stage := 2 } }
    else if m.stage = 6 then
      (if m.svc.busy then { s with mod := { m with svc := { m.svc with res := 1 } } }
       else { s with mod := { m with svc := { busy := true, act := 7 } } })
    else s)

/-- A service action ends with a result (R402). -/
def State.serviceEnd (s : State) (res : BitVec 8) : State :=
  { s with
    mod := { s.mod with svc := { s.mod.svc with res := res, moves := false, rest := [] } },
    todo := s.todo ++ [(.serviceActionComplete, {})] }

/-- FIRMWARE_VERIFY (R399, R400): the image at stage 2 into slot 0, or the one that action 7 stages into the other slot. -/
def execFirmwareVerify (s : State) : Host.Outcome State Fault Refusal :=
  .next (
    let m := s.mod
    let e := s.imageErr
    let z := s.imageSigs
    if m.stage = 2 then
      let sig := bbit z.2 ++ bbit z.1
      if e = 0 then
        { s with mod := { m with stage := 3, sig := sig.setWidth 8, slot := 0, slots := mput m.slots 0 s.imageBody } }
      else { s with mod := { m with stage := 0xFF, err := e, sig := sig.setWidth 8 } }
    else if m.stage = 6 && m.svc.busy && m.svc.act == 7 then
      (if e = 0 then
        State.serviceEnd { s with mod := { m with slots := mput m.slots (1 - m.slot.toNat) s.imageBody, staged := sIns m.staged (1 - m.slot.toNat) } } 0
       else s.serviceEnd 4)
    else s)

/-- READY (R398): firmware finishes its next stage: channels, pools, then the core map, which makes the module READY (log
11, DESIGN CHOICE). -/
def execReady (s : State) : Host.Outcome State Fault Refusal :=
  .next (
    let m := s.mod
    if m.stage = 3 ∨ m.stage = 4 ∨ m.stage = 5 then
      match Config.bringUp m.stage.toNat with
      | some d =>
        { s with mod := { m with stage := 0xFF, err := m.stage + 1, detail := if m.stage = 5 then 0 else d } }
      | none =>
        if m.stage = 5 then
          { s with mod := { m with
              stage := 6, fbBase := (Config.fbBase.setWidth 64) <<< 13,
              ring := ((Config.ringBase.setWidth 64) <<< 6) ||| BitVec.ofNat 64 (4 + Config.ringLsz.toNat % 13),
              phys := (upTo 0 24).map (fun c => (c, Config.coreMap c)) } }
        else { s with mod := { m with stage := m.stage + 1 } }
    else s)

/-! ### The window: stores -/

/-- The physical cluster of a logical one (R9, R346). -/
def State.physOf (s : State) (cl : Nat) : BitVec 3 × Bool := mget ((BitVec.ofNat 3 (cl % 6)), false) s.mod.phys cl

/-- The spare of a logical cluster's wing, while it is not in use (R9, R403). -/
def State.spareOf (s : State) (cl : Nat) : Option (BitVec 3) :=
  let ps := (upTo (cl / 6 * 6) 6).map s.physOf
  if ps.any (fun p => p.2) then none
  else ((upTo 0 7).find? (fun i => !ps.any (fun p => p.1.toNat == i))).map (fun i => BitVec.ofNat 3 i)

/-- The kernels of a cluster that is to be retired are asked to leave (R403, R381). -/
def State.askLeave (s : State) : State :=
  let cl := s.mod.svc.tgt.toNat
  if s.mod.svc.busy && s.mod.svc.act == 3 && decide (cl < 24) && (s.spareOf cl).isSome then
    s.requestAll (s.mod.kernels.filter (fun e => e.2.state == .running && !e.2.preq && e.2.dying.isNone &&
      e.2.places.any (fun n => clusterOf n == cl)))
  else s

/-- A store to `SREQ` (R402): the firmware takes the request up, or refuses it. -/
def State.serviceRequest (s : State) (v : Word) : State :=
  let m := s.mod
  let a := bits v 56 8
  if m.stage ≠ 6 then s
  else if m.svc.busy then { s with mod := { m with svc := { m.svc with res := 1 } } }
  else
    let s1 := { s with mod := { m with svc := { busy := true, act := bits v 56 7, tgt := bits v 0 48 } } }
    if a = 0 ∨ 7 ≤ a.toNat then s1.serviceEnd 5 else s1.askLeave

/-- A store to one word of the window: the event that it is. -/
def State.windowPut (s : State) (o : Nat) (v : Word) : State :=
  let ev := fun (i : Instr) => { s with todo := s.todo ++ [(i, { addr := o, v := v })] }
  match o with
  | 0x000 => ev .start
  | 0x208 => ev .go
  | 0x218 => s.serviceRequest v
  | 0x420 => ev .attestationRequest
  | _ =>
    if o = 0x210 ∨ (0x300 ≤ o ∧ o < 0x340) ∨ (0x400 ≤ o ∧ o < 0x420) then ev .windowRegisterWrite else s

/-- The word at `o` with the bytes of a store at `a` in it. -/
def State.windowMerge (s : State) (o a : Nat) (bs : List Byte) : Word :=
  BitVec.ofNat 64 (leBytes ((upTo o 8).map (fun i =>
    if a ≤ i ∧ i < a + bs.length then bs.getD (i - a) 0 else bits (s.windowWord o) (8 * (i - o)) 8)))

def State.windowGo (s : State) (a : Nat) (bs : List Byte) : List Nat → State
  | [] => s
  | o :: l => (s.windowPut o (s.windowMerge o a bs)).windowGo a bs l

/-- A store of bytes into the window. -/
def State.windowStore (s : State) (a : Nat) (bs : List Byte) : State :=
  if bs.isEmpty then s
  else s.windowGo a bs ((upTo (a / 8) ((a + bs.length - 1) / 8 - a / 8 + 1)).map (fun i => 8 * i))

/-- WINDOW_REGISTER_WRITE (R401, R404): the word at offset `ev.addr` takes `ev.v`. -/
def execWindowRegisterWrite (s : State) : Host.Outcome State Fault Refusal :=
  .next (
    let o := s.ev.addr
    let m := s.mod
    if o = 0x210 then { s with mod := { m with evAddr := s.ev.v } }
    else if 0x300 ≤ o ∧ o < 0x340 then
      { s with mod := { m with grants := mput m.grants ((o - 0x300) / 8) (s.ev.v &&& 0xFFFF) } }
    else if 0x400 ≤ o ∧ o < 0x420 then { s with mod := { m with nonce := mput m.nonce ((o - 0x400) / 8) s.ev.v } }
    else s)

/-! ### Service actions (R402, R403) -/

/-- A service action of a kind is in progress. -/
def State.serving (s : State) (a : BitVec 7) : Bool := s.mod.svc.busy && s.mod.svc.act == a

/-- SERVICE_ACTION_COMPLETE (R402, R401): BUSY falls, and event 3 is sent. -/
def execServiceActionComplete (s : State) : Host.Outcome State Fault Refusal :=
  .next (State.notify { s with mod := { s.mod with svc := { s.mod.svc with busy := false } } } 3)

/-- SWAP_FIRMWARE (R403): the image of the inactive slot, staged and verified by R400, runs; the slot that runs is none with a staged image
(log 11, DESIGN CHOICE). -/
def execSwapFirmware (s : State) : Host.Outcome State Fault Refusal :=
  .next (
    let m := s.mod
    if !s.serving 1 then s
    else if 2 ≤ m.svc.tgt.toNat then s.serviceEnd 5
    else if m.staged.contains m.svc.tgt.toNat && decide (m.svc.tgt.toNat ≠ m.slot.toNat) then State.serviceEnd { s with mod := { m with slot := 1 - m.slot } } 0
    else s.serviceEnd 4)

/-- A pack of device memory installed in one array (R224, R225). -/
def State.installOne (s : State) (pack idx ar : Nat) : Nat × State :=
  let head := s.mem.read pack 64
  let c := leBytes ((head.drop 12).take 2)
  if !goodPack head then (2, s)
  else
    let r : Routine := { id := 0, n := 4 * ar, op := 2, idx := idx }
    let z := s.packOutcome r head (s.mem.read (pack + 64) (8 * c)) (s.mem.read (pack + 64 + 8 * c) 64)
      (s.mem.read (pack + 128 + 8 * c) 3309)
    (z.1, s.setArr ar z.2)

/-- The first code but 0 that an array gives to a pack, or 0. -/
def State.installCode (s : State) (pack idx : Nat) : List Nat → Nat
  | [] => 0
  | ar :: l =>
    let z := s.installOne pack idx ar
    if z.1 = 0 then z.2.installCode pack idx l else z.1

/-- A pack in all arrays, once each takes it: with any code but 0 no store changes (R224). -/
def State.installAll (s : State) (pack idx : Nat) : List Nat → State
  | [] => s
  | ar :: l => (s.installOne pack idx ar).2.installAll pack idx l

/-- INSTALL_ROUTINE (R403): the pack at the target in every array, under an index that the spec does not name (log 11, DESIGN CHOICE). -/
def execInstallRoutine (s : State) : Host.Outcome State Fault Refusal :=
  .next (
    let pack := s.mod.svc.tgt.toNat
    if !s.serving 2 then s
    else if deviceSize ≤ pack + 64 then s.serviceEnd 5
    else
      let idx := s.free.toNat % 256
      let code := s.drawn.installCode pack idx (upTo 0 48)
      let s1 := if code = 0 then s.drawn.installAll pack idx (upTo 0 48) else s.drawn
      { s1 with mem := s1.mem.store pack (toBytes (2 ^ 63 + code) 8) [] }.serviceEnd (if code = 0 then 0 else 5))

/-- No context stands on a cluster. -/
def State.clusterFree (s : State) (cl : Nat) : Bool :=
  (upTo (8 * cl) 8).all (fun n => (s.ctx n).mode == .off) && (s.cluster cl).queue.all (fun c => decide (192 ≤ c.n))

/-- RETIRE_CLUSTER (R403): the cluster that its kernels have left is remapped onto its wing's spare. -/
def execRetireCluster (s : State) : Host.Outcome State Fault Refusal :=
  .next (
    let cl := s.mod.svc.tgt.toNat
    if !s.serving 3 then s
    else if 24 ≤ cl then s.serviceEnd 5
    else
      match s.spareOf cl with
      | none => s.serviceEnd 2
      | some p =>
        if s.clusterFree cl then
          State.serviceEnd { s with mod := { s.mod with phys := mput s.mod.phys cl (p, true) } } 0
        else s)

/-- A kernel that runs uses a non-movable entry with a tile of the channel (R300). -/
def State.fixedInUse (s : State) (ch : Nat) : Bool :=
  s.ctxs.any (fun e => e.2.mode != .off && e.2.table.core.any (fun t => t.2.kind == 4 && !t.2.mv &&
    (Config.chanTiles ch).any (fun hm => decide (t.2.tbase ≤ hm ∧ hm < t.2.tbase + 2 ^ t.2.lsz))))

/-- Where a resident context's movable entry maps the tile of a device address: its virtual address. -/
def State.movableVa (s : State) (hm : Nat) : Option Nat :=
  (s.ctxs.flatMap (fun e => if e.2.mode = .off then [] else e.2.table.core)).findSome? (fun t =>
    if t.2.p && t.2.kind == 4 && t.2.mv && decide (t.2.tbase ≤ hm ∧ hm < t.2.tbase + 2 ^ t.2.lsz) then
      some (t.2.vbase + (hm - t.2.tbase))
    else none)

/-- An entry for one tile of device memory, movable and writable (R135). -/
def tileEntry (va hm : Nat) : TEntry :=
  { w0 := BitVec.ofNat 64 (va - va % 65536 + 16 * 1024 + 0x344), w1 := BitVec.ofNat 64 (hm - hm % 65536) }

/-- The movable tiles that a channel still holds: one that carries a mark has gone (R300). -/
def State.tilesLeft (s : State) (ch : Nat) : List Nat :=
  (Config.chanTiles ch).filter (fun hm => (s.movableVa hm).isSome && !s.mem.marked hm)

/-- The moves that firmware makes to empty a channel: each movable tile that it holds goes elsewhere with its own `tmove`. Where is open
(log 11, DESIGN CHOICE). -/
def State.drainMoves (s : State) (ch : Nat) : List RelocCmd :=
  (s.tilesLeft ch).filterMap (fun hm =>
    let va := (s.movableVa hm).getD 0
    let goal := Config.tileGoes s.picks hm
    if s.mayTake hm goal.1 (goal.2 - goal.2 % 65536) then
      some { id := 0, n := firmwareN, op := 0, src := va - va % 65536, dst := goal.2 - goal.2 % 65536, len := 1,
             since := s.cycle, table := [(0, tileEntry va hm), (1, tileEntry goal.2 goal.1)] }
    else none)

/-- Firmware's moves join the queue of the first wing's engine while it has room (R284); the others follow. -/
def State.enqMoves (s : State) : List RelocCmd → State
  | [] => { s with mod := { s.mod with svc := { s.mod.svc with rest := [] } } }
  | c :: l =>
    if s.relocRoom c then
      State.enqMoves { (s.setWing 0 { s.wing 0 with reloc := (s.wing 0).reloc ++ [{ c with id := s.uid }] }) with uid := s.uid + 1 } l
    else { s with mod := { s.mod with svc := { s.mod.svc with rest := c :: l } } }

/-- No move of firmware's is left. -/
def State.movesDone (s : State) : Bool := s.wings.all (fun e => e.2.reloc.all (fun c => c.n != firmwareN))

/-- DRAIN_CHANNEL (R300, R403): firmware moves every movable tile of the channel away, their marks staying behind, and then
takes the channel out of service. Where a kernel that runs uses non-movable memory of the channel, it is not drained; tiles that are left
are tried again, or the action ends with RES 3 (log 11, DESIGN CHOICE). -/
def execDrainChannel (s : State) : Host.Outcome State Fault Refusal :=
  .next (
    let ch := s.mod.svc.tgt.toNat
    let v := s.mod.svc
    let s1 := { s with picks := s.picks + 1 }
    if !s.serving 4 then s
    else if 384 ≤ ch then s.serviceEnd 5
    else if v.moves && !v.rest.isEmpty then s.enqMoves v.rest
    else if v.moves && !s.movesDone then s
    else if s.fixedInUse ch then s.serviceEnd 3
    else if !v.moves || (!(s.tilesLeft ch).isEmpty && Config.freeBool s.picks) then
      State.enqMoves { s1 with mod := { s1.mod with svc := { v with moves := true } } } (s.drainMoves ch)
    else if (s.tilesLeft ch).isEmpty then State.serviceEnd { s with mod := { s.mod with chanOut := sIns s.mod.chanOut ch } } 0
    else s1.serviceEnd 3)

/-- RETRAIN_PORT (R403). -/
def execRetrainPort (s : State) : Host.Outcome State Fault Refusal :=
  .next (if !s.serving 5 then s else s.serviceEnd (if s.mod.svc.tgt.toNat < 32 then 0 else 5))

/-- RELOAD_CALIBRATION (R403). -/
def execReloadCalibration (s : State) : Host.Outcome State Fault Refusal :=
  .next (if !s.serving 6 then s else s.serviceEnd 0)

/-! ### Attestation (R404) -/

/-- ATTESTATION_REQUEST (R404): a store of `ev.v` at 0x0420. -/
def execAttestationRequest (s : State) : Host.Outcome State Fault Refusal :=
  .next (
    if s.ev.v = 1 && s.mod.stage == 6 then
      { s with
        mod := { s.mod with attest := true },
        mem := s.mem.store (windowBase + 0x500) (toBytes 0 8) [] }
    else s)

/-- The report after its first word (log 8, DESIGN CHOICE): nonce, `DHASH`, the hashes of both slots, the slot running, the versions of the
routines of array 0, the `PHYS_MAP` of core 0 of each cluster, the node id. -/
def State.reportBody (s : State) : List Byte :=
  let m := s.mod
  (upTo 0 4).flatMap (fun i => toBytes (mget 0 m.nonce i).toNat 8) ++ dhashBytes ++
    toBytes (Config.sha3 (mget [] m.slots 0)).toNat 48 ++ toBytes (Config.sha3 (mget [] m.slots 1)).toNat 48 ++
    toBytes m.slot.toNat 8 ++ (upTo 0 256).map (fun i => (bits (mget 0 (s.arr 0).index i) 24 6).setWidth 8) ++
    (upTo 0 24).flatMap (fun cl => toBytes (s.physWord (4 * cl)).toNat 8) ++ toBytes m.node.toNat 8

/-- ATTESTATION_REPORT (R404): the signed report, its first word, 1, last. -/
def execAttestationReport (s : State) : Host.Outcome State Fault Refusal :=
  .next (
    if !s.mod.attest then s
    else
      let b := s.reportBody
      let m1 := s.mem.store (windowBase + 0x508) (b ++ (Config.signEd b).take 64 ++ (Config.signMl b).take 3309) []
      { s with
        mod := { s.mod with attest := false },
        mem := m1.store (windowBase + 0x500) (toBytes 1 8) [] })

/-! ### Requests of other nodes (R324, R337) -/

/-- Where a node address leads. -/
inductive NodePlace where
  | window (o : Nat)
  | image
  | memory
  | none
  deriving DecidableEq, Repr

def State.nodePlace (s : State) (a n : Nat) : NodePlace :=
  if windowBase ≤ a ∧ a + n ≤ windowBase + 0x10000 then .window (a - windowBase)
  else if inImage a n then .image
  else if a + n ≤ deviceSize ||
      (isScratch a && decide (scratchOff a + n ≤ scratchBytes (s.core (scratchCore a)))) then .memory
  else .none

/-- Two's complement operands of an atomic on the window, which reads what it meets (R4, R371). DEDUCED (log 74). -/
def State.windowAtomic (s : State) (o : Nat) (r : FabReq) : State × List Byte :=
  let old := s.windowBytes o r.len
  let z := atomNew r.aopc (8 * r.len) (leBytes old) r.x.toNat r.y.toNat
  let s1 := s.windowRead o r.len
  (if z.2 then s1.windowStore o (toBytes z.1 r.len) else s1, old)

/-- A request waits at a tile under move: at the destination, as a load behind the writes queued to its line (R170, R288), and behind
another that waits at its tile. -/
def State.fabricWaits (s : State) (r : FabReq) : Bool :=
  s.fab.any (fun x => sameTile x.addr r.addr) ||
    (if r.kind = 0 then s.moveBlocks r.addr r.len false else isDevice r.addr && s.moveTo r.addr)

/-- A request that waits: behind the writes queued at an old home, to be served at the new home (R170). -/
def State.fabricHold (s : State) (r : FabReq) : State :=
  let a := match s.moveFrom r.addr with
    | some c => r.addr - c.srcH + c.dstH
    | none => r.addr
  { s with fab := s.fab ++ [{ r with addr := a }] }

/-- A request served at memory: at a marked line, through a movable entry, the home answers with the record's NEWVA, from which the
requester goes on by its own table (R152, R293). A write that meets a tile under move joins the move's queue (R288, R289). DEDUCED
(log 73). -/
def State.fabricAccess (s : State) (r : FabReq) : State :=
  let node := r.node.toNat
  if s.fabricWaits r then s.fabricHold r
  else if r.mv && isDevice r.addr && s.mem.marked r.addr then s.answer node false (toBytes (s.mem.newVa r.addr) 8) true
  else if r.kind = 0 then (s.correct r.addr r.len none).answer node false (s.bytesAt r.addr r.len)
  else
    let a : Acc := { id := s.uid, n := 0, kind := if r.kind = 2 then .atomic else .store, seq := s.uid, ea0 := node, place := 6,
                     home := r.addr, off := scratchOff r.addr, size := r.len, data := r.bytes, aop := r.aopc, x := r.x,
                     y := r.y }
    let s1 := { s with uid := s.uid + 1 }
    if isScratch r.addr then s1.atPort 800 a []
    else if (s.moveFrom r.addr).isSome then s1.queueAt a
    else
      let z := s1.performAt a []
      z.1.completed a z.2.2.1 z.2.2.2

/-- FABRIC_REQUEST (R324, R337, R398, R400): the request `ev.req`; with `ev.idx` 1, the one that has waited there. DEDUCED (log 76). -/
def execFabricRequest (s : State) : Host.Outcome State Fault Refusal :=
  .next (
    let r := s.ev.req
    let s := if s.ev.idx = 1 then { s with fab := s.fab.erase r } else s
    let node := r.node.toNat
    let no := s.answer node true []
    if !s.mod.power then s
    else
      match s.nodePlace r.addr r.len with
      | .window o =>
        if !s.mod.windowOpen o r.len then no
        else if r.kind = 0 then (s.windowRead o r.len).answer node false (s.windowBytes o r.len)
        else if !s.mod.mayStore node then no
        else if r.kind = 1 then (s.windowStore o r.bytes).answer node false []
        else let z := s.windowAtomic o r; z.1.answer node false z.2
      | .image =>
        if s.mod.imageOpen node then
          let z := s.imageDo r.kind r.addr r.len r.bytes r.aopc r.x.toNat r.y.toNat
          z.1.answer node false z.2
        else no
      | .memory => if s.mod.stage = 6 then s.fabricAccess r else no
      | .none => no)

end Sys2Proof.Machine
end

