-- ==== Sys2Proof/Machine/Net.lean ====
section
/-! DEFINITION. Accesses on their way: leaving the core (R157, R161), merging in the routers (R167, R243), performing at
their homes (R152 to R157, R170, R288, R324), and answers arriving (R143, R154, R167). -/

namespace Sys2Proof.Machine

/-- The access answers with data. -/
def Acc.returns (a : Acc) : Bool := a.ret || a.kind == .load || a.kind == .tchase || a.kind == .tstat

/-! ### Answers -/

/-- DATA_ARRIVAL (R143): the data of the request named `ev.id`. -/
def execDataArrival (s : State) : Host.Outcome State Fault Refusal :=
  .next (
    match s.resps.find? (fun r => r.acc.id == s.ev.id && r.acc.returns) with
    | some r => s.landData r
    | none => s)

/-- ACKNOWLEDGMENT_ARRIVAL (R154, R167, R356): of the access named `ev.id`; with `ev.idx` 1, of node `ev.id`'s
invalidation, to context `ev.n`. -/
def execAcknowledgmentArrival (s : State) : Host.Outcome State Fault Refusal :=
  .next (
    if s.ev.idx = 1 then s.onCtx s.ev.n (fun c => { c with invN := c.invN.filter (fun i => i != s.ev.id) })
    else
      match s.resps.find? (fun r => r.acc.id == s.ev.id && !r.acc.returns) with
      | some r => s.landAck r
      | none => s)

/-! ### Order at a home (R155, R156) -/

/-- The requests that an access carries: each one's context and place by release (R156, R167, R168). -/
def Acc.parts (a : Acc) : List (Nat × Nat) := (a.n, a.rel) :: a.merged.map (fun m => (m.n, m.rel))

/-- A request of an access, in the class and over the bytes of another, stands before one of the other's in its context's
order. -/
def Acc.before (b a : Acc) : Bool :=
  b.cls == a.cls && b.kind != .activation && b.kind != .tchase && b.kind != .tstat &&
  b.parts.any (fun x => a.parts.any (fun y => x.1 == y.1 && decide (x.2 < y.2))) &&
  (overlaps a.home a.size b.home b.size || overlaps a.ea0 a.size b.ea0 b.size)

/-- The accesses that have not performed: on their way, at a moving tile, or at a port. -/
def State.unperformed (s : State) : List Acc :=
  s.outq ++ s.net ++ s.wings.flatMap (fun e => e.2.reloc.flatMap (fun c => c.stores)) ++
    (s.portW.map (fun x => x.acc)).filter (fun a => a.dst != .engine)

/-- An earlier access of the context, or of a constituent's, must perform first (R156). -/
def State.behindOther (s : State) (a : Acc) : Bool := s.unperformed.any (fun b => b.id != a.id && b.before a)

/-! ### Leaving the core -/

/-- An access may leave (R157, R161, R388). -/
def State.mayDepart (s : State) (a : Acc) : Bool :=
  s.allDone a.n a.after && !((a.kind == .store || a.kind == .atomic || a.kind == .activation) && s.loadsBefore a.n a.seq)

/-- Two atomics that a router may merge (R243, R167). One that has chased goes on alone: its displacement is its own (R86). -/
def Acc.mergesWith (a b : Acc) : Bool :=
  a.kind == .atomic && b.kind == .atomic && a.home == b.home && a.ea == b.ea && a.aop == b.aop && a.size == b.size &&
  a.cls == b.cls && a.mrg && b.mrg && !a.ret && !b.ret && a.hops == 0 && b.hops == 0 && a.n != b.n && !b.merged.any (fun m => m.n == a.n)

/-- The merged request (R243): it carries `a` as a constituent. -/
def Acc.mergeIn (a b : Acc) : Acc :=
  { b with
    x := BitVec.ofNat 64 (atomMerge b.aop (8 * b.size) b.x.toNat a.x.toNat),
    merged := b.merged ++ [⟨a.id, a.n, a.rel, a.arr, a.slot, a.ba, a.base⟩] }

/-- An access goes into the network, where a router may merge it (log 14, DESIGN CHOICE). -/
def State.depart1 (s : State) (a : Acc) : State :=
  let s1 := { s with outq := s.outq.filter (fun x => x.id != a.id) }
  match s1.net.find? (fun b => a.mergesWith b) with
  | none => { s1 with net := s1.net ++ [a] }
  | some b =>
    let s2 := { s1 with picks := s1.picks + 1 }
    if Config.freeBool s.picks && !s1.behindOther a then
      { s2 with net := s2.net.map (fun x => if x.id == b.id then a.mergeIn x else x) }
    else { s2 with net := s2.net ++ [a] }

/-- OUTBOUND_DEPART (R157): the access named `ev.id` leaves its core. -/
def execOutboundDepart (s : State) : Host.Outcome State Fault Refusal :=
  .next (
    match s.outq.find? (fun a => a.id == s.ev.id) with
    | some a => s.depart1 a
    | none => s)

/-! ### At the home -/

def State.leaveNet (s : State) (a : Acc) : State := { s with net := s.net.filter (fun x => x.id != a.id) }

/-- A trap or fault that an access meets, on its way back to its core (R152, R304, R324). -/
def State.bounce (s : State) (a : Acc) (code : TrapCode) (i0 : Nat) : State :=
  let wr := a.kind == .store || a.kind == .atomic
  let t : TrapRec := { code := code, slot := a.slot, ba := a.ba, scy := a.scy, info0 := BitVec.ofNat 64 i0, wr := wr,
                       forceFatal := code == .remoteError }
  { s.leaveNet a with resps := s.resps ++ [⟨a, [], [], some t, 0, false⟩] }

/-- The word of `tchase` (R153). -/
def State.tchaseWord (s : State) (a : Acc) : Nat :=
  a.ea % 2 ^ 48 + a.hops * 2 ^ 48 + (if a.mv && s.mem.marked (s.ownHome a.home) then 2 ^ 63 else 0)

/-- A marked line: the access retargets and translates again (R152). -/
def State.chase (s : State) (a : Acc) : State :=
  let ea := s.mem.newVa (s.ownHome a.home) + a.ea % 65536
  match accessCheck (s.ctx a.n).table.core (coreOf a.n) (BitVec.ofNat 64 ea) a.size false
      (a.kind == .store || a.kind == .atomic) with
  | .inl code => s.bounce a code ea
  | .inr t =>
    let a1 := { a with ea := ea, place := t.place, home := t.home, off := t.off, mv := t.mv, hops := a.hops + 1,
                       moved := a.moved + (BitVec.ofNat 64 ea - BitVec.ofNat 64 a.ea) }
    { s with net := s.net.map (fun x => if x.id == a.id then a1 else x) }

/-- An answer leaves the home. -/
def State.answerAcc (s : State) (a : Acc) (bs : List Byte) (bad : List Bool) : State :=
  { s.leaveNet a with resps := s.resps ++ [⟨a, bs, bad, none, 0, false⟩] }

/-- A home that may hold a movable tile: device memory, here or at another node. -/
def tileHome (hm : Nat) : Bool := isDevice (hm % 2 ^ 48)

/-- A read at the home (R154): `tchase` and `tstat` read no data (R153, R295). -/
def State.homeRead (s : State) (a : Acc) (hm : Nat) : State :=
  match a.kind with
  | .tchase => s.answerAcc a (toBytes (s.tchaseWord a) 8) []
  | .tstat => { s with frees := s.frees + 1 }.answerAcc a (toBytes (s.tstatWord a hm) 8) []
  | _ =>
    ((s.recordOor a.n false a.place (scratchCore hm) a.off a.size a.ba).correct hm a.size none).answerAcc a (s.bytesAt hm a.size)
      (s.badAt hm a.size)

/-- A write or an atomic at the home (R154, R242): a scratchpad's at its port in this cycle, one through a KIND 5 entry of the own
node in the place of other nodes. DESIGN CHOICE (log 108). -/
def State.homeWrite (s : State) (a : Acc) (hm : Nat) : State :=
  let s1 := s.leaveNet a
  let a1 := { a with home := hm }
  if isScratch hm then s1.atPort (if a.place = 2 then portRank a.n (scratchCore hm) false else 800) a1 []
  else
    let r := s1.performAt a1 []
    r.1.completed a1 r.2.2.1 r.2.2.2

/-- The window of this node as its own contexts reach it (R324, R337). -/
def State.homeWindow (s : State) (a : Acc) (o : Nat) : State :=
  let done := fun (s : State) (bs : List Byte) => s.answerAcc a bs []
  if !s.mod.windowOpen o a.size then s.bounce a .remoteError a.ea
  else
    match a.kind with
    | .store =>
      if s.mod.mayStore s.mod.node.toNat then done (s.windowStore o a.data) [] else s.bounce a .remoteError a.ea
    | .atomic =>
      if s.mod.mayStore s.mod.node.toNat then
        let z := s.windowAtomic o { len := a.size, aopc := a.aop, x := a.x, y := a.y }
        done z.1 z.2
      else s.bounce a .remoteError a.ea
    | .tchase => done s (toBytes (s.tchaseWord a) 8)
    | .tstat => done s (toBytes 0 8)
    | _ => done (s.windowRead o a.size) (s.windowBytes o a.size)

/-- The image area of this node as its own contexts reach it (R400). -/
def State.homeImage (s : State) (a : Acc) (hm : Nat) : State :=
  if !s.mod.imageOpen s.mod.node.toNat then s.bounce a .remoteError a.ea
  else
    match a.kind with
    | .tchase => s.answerAcc a (toBytes (s.tchaseWord a) 8) []
    | .tstat => s.answerAcc a (toBytes 0 8) []
    | .store => let z := s.imageDo 1 hm a.size a.data 0 0 0; z.1.answerAcc a [] []
    | .atomic => let z := s.imageDo 2 hm a.size [] a.aop a.x.toNat a.y.toNat; z.1.answerAcc a z.2 []
    | _ => s.answerAcc a (s.imageDo 0 hm a.size [] 0 0 0).2 []

/-- A store or an atomic that reaches a tile under move is queued there (R170, R288). -/
def State.queueStore (s : State) (a : Acc) : State := (s.leaveNet a).queueAt a

/-- An access at its home. -/
def State.homeAccess (s : State) (a : Acc) : State :=
  let hm := s.ownHome a.home
  let wr := a.kind == .store || a.kind == .atomic
  match a.kind with
  | .activation =>
    (s.leaveNet a).activate [s.spawned (s.ctx a.n).kernel a.home a.x.toNat]
  | _ =>
    if a.home ≠ hm && inWindow hm a.size then s.homeWindow a (hm - windowBase)
    else if a.home ≠ hm && inImage hm a.size then s.homeImage a hm
    else if s.refused a.home a.size wr then s.bounce a .remoteError a.ea
    else if a.mv && tileHome hm && s.mem.marked hm && !(a.kind == .tstat) && !(a.kind == .tchase && a.hops == 3) then
      (if a.hops = 3 then s.bounce a .markChain a.ea0 else s.chase a)
    else if wr then
      (if isDevice hm && (s.moveFrom hm).isSome then s.queueStore a else s.homeWrite a hm)
    else s.homeRead a hm

/-- The access may perform now (R155, R156, R288). -/
def State.mayPerform (s : State) (a : Acc) : Bool :=
  !s.behindOther a &&
    (let hm := s.ownHome a.home
     a.kind == .activation || a.kind == .tchase || a.kind == .tstat || !isDevice hm ||
      (a.mv && s.mem.marked hm) ||
      !(s.moveTo hm || (a.kind == .load && s.moveBlocks hm a.size false)))

/-- HOME_ACCESS (R154): the access named `ev.id`. `tchase` and `tstat`, which access no data (R153, R295), answer for any address.
DEDUCED (log 20). -/
def execHomeAccess (s : State) : Host.Outcome State Fault Refusal :=
  match s.net.find? (fun a => a.id == s.ev.id) with
  | none => .next s
  | some a =>
    if a.place = 3 && !isDevice a.home then
      (match a.kind with
        | .tchase | .tstat => .next (s.homeRead a a.home)
        | _ => .fault (.noSuchHome a.home))
    else .next (s.homeAccess a)

end Sys2Proof.Machine
end

