-- ==== Sys2Proof/Machine/Cycle.lean ====
section
/-! DEFINITION. Which events are due or may happen now, the end of a cycle, and what one step of the machine does (R3, R20,
R34, R98, R117, R145, R199, R252, R341, R347, R357, R379). The meanings of the instructions come in as `ex`. -/

namespace Sys2Proof.Machine

abbrev Due := List (Instr × EvArg)

/-- An event without arguments. -/
def noArg : EvArg := {}

/-! ### The contexts that run -/

/-- The contexts that lead a machine, in ascending order. -/
def State.leads (s : State) : List Nat :=
  (s.ctxs.filter (fun e => decide (e.1 < 192) && e.2.mode == .running && s.leadN e.1 == e.1)).map (fun e => e.1)

/-- A fault that an agent waits on, if any, is done. -/
def State.clearOf (s : State) (f : Option Nat) : Bool :=
  match f with
  | some i => !s.faultOpen i
  | none => true

/-! ### Engines -/

/-- What the head of a copy engine's queue may do next (R226, R233, R235, R236). The engines of R20 that a correctable-error freeze
of a core stops are the pipes of its own array, in the windows it owns: the copy engines, which a cluster shares, pack installs
and the retirement of finished routines run on. DESIGN CHOICE (log 95). -/
def State.copyDue (s : State) (cl : Nat) (c : CopyCmd) : Due :=
  let arg : EvArg := { core := cl, id := c.id }
  let writes : Due := (upTo 1 c.flight.length).map (fun j => (.copyStart, { arg with idx := j }))
  let ready := s.clearOf c.waitF && (c.phase != 0 || s.allDone c.n c.after)
  let start : Due :=
    if c.halted || decide (c.total ≤ c.elemAt) || !ready || c.phase == 3 then []
    else
      match s.nextElem { c with phase := 1, waitF := none } with
      | .ok _ _ => [(.copyStart, arg)]
      | .stop _ => [(.copyStart, arg)]
      | .page 0x31 _ _ => [(.markChain, { arg with who := .copy cl c.eng })]
      | .page _ _ _ => [(.copySuspend, arg)]
      | .block => []
  let word :=
    match c.sw with
    | some ea => c.op != 6 || c.halted || (match s.statusWay (s.ctx c.n).table.eng c.n ea with | .block => false | _ => true)
    | none => true
  let done : Due :=
    if (c.halted || decide (c.total ≤ c.elemAt)) && c.flight.isEmpty && !s.writing c.id && ready && word then
      [(.copyRetire, arg)]
    else []
  writes ++ start ++ done

def State.copiesDue (s : State) : Due :=
  s.clusters.flatMap (fun e => (upTo 0 4).flatMap (fun g =>
    match s.copyHead e.1 g with
    | some c => s.copyDue e.1 c
    | none => []))

/-- A started element of a copy engine has yet to read from a tile or to write into it. -/
def State.flightTo (s : State) (a : Nat) : Bool :=
  s.clusters.any (fun e => e.2.queue.any (fun c => c.flight.any (fun f => sameTile (s.ownHome f.home) a ||
    f.src.any (fun x => sameTile (s.ownHome x.home) a))))

/-- What the head of a relocation queue may do next (R288, R290). -/
def State.relocDue (s : State) (w : Nat) (c : RelocCmd) : Due :=
  let arg : EvArg := { core := w, id := c.id }
  let word :=
    match c.sw with
    | some ea => (match s.statusWay c.table c.n ea with | .block => false | _ => true)
    | none => true
  if !s.clearOf c.waitF || !s.allDone c.n c.after then []
  else if c.phase = 1 ∨ c.phase = 2 then [(.moveDrain, arg)]
  else if 3 ≤ c.phase ∧ c.phase ≤ 5 then [(.moveCopy, arg)]
  else if c.op = 0 && c.phase == 0 && decide (c.tile < c.len) then
    (match s.tileCheck c with
      | .ok a b => if s.flightTo a || s.flightTo b then [] else [(.moveFreeze, arg)]
      | _ => [(.moveFreeze, arg)])
  else if word then [(.relocationRetire, arg)]
  else []

def State.relocsDue (s : State) : Due :=
  s.wings.flatMap (fun e => match e.2.reloc with | c :: _ => s.relocDue e.1 c | [] => [])

/-- A reduction may be made, or meets a fault that has yet to be posted (R332, R351): every receive before it can be counted. -/
def State.reduces (s : State) (c : LinkCmd) : Bool :=
  let z := s.countTo true c.id ((s.slotRecvs c).filter (fun x => decide (x.id < c.id)))
  z.2 && (z.1.countOne true c).isSome

/-- What a link command may do next (R330, R332). -/
def State.linkDue (s : State) (w : Nat) (c : LinkCmd) : Due :=
  let arg : EvArg := { core := w, id := c.id }
  if c.op = 0 then
    if c.gone then (if c.sent.isEmpty then [(.lsendRetire, arg)] else [])
    else if decide (c.tick.toNat ≤ s.mod.ticks.toNat) && s.clearOf c.waitF && s.allDone c.n c.after &&
        !s.loadsBefore c.n c.id then [(.lsendDeparture, arg)]
    else []
  else if c.op = 2 && !c.gone && s.reduces c then [(.lredReduce, arg)]
  else []

def State.linksDue (s : State) : Due :=
  s.wings.flatMap (fun e => e.2.link.flatMap (fun c => s.linkDue e.1 c)) ++
    s.wire.map (fun x => (.flitArrival, { addr := x.1, flit := x.2 }))

/-- What a routine does next, if this cycle is one of its own (R199, R201, R207, R212, R214). -/
def State.routineDue (s : State) (k : Nat) (r : Routine) : Due :=
  let arg : EvArg := { core := k, id := r.id }
  let owned := s.ownedCycle k (s.frozen k)
  let way := fun (i : Instr) =>
    match s.nextPipe { r with waitF := none } with
    | .ok _ _ _ => [(i, arg)]
    | .stop _ => [(i, arg)]
    | .page 0x31 _ _ => [(.markChain, { arg with who := .routine k })]
    | .page _ _ _ => [(.routinePause, arg)]
    | .block => []
  if r.ended then (if r.busy = 0 && !s.writing r.id then [(.routineRetire, arg)] else [])
  else if !s.clearOf r.waitF then []
  else if r.op = 2 then (if s.allDone r.n r.after then way .packInstall else [])
  else if !r.begun then
    (if decide (r.since + 2 ≤ s.cycle) && owned && s.allDone r.n r.after then way .routineStart else [])
  else if r.busy = 0 && decide (r.winAt ≤ s.cycle) && owned then
    (match uopOf (r.prog.getD r.uw 0) with
      | some i => way i
      | none => way (.uopNop ⟨false, 0⟩))
  else []

/-- The routines of every core that `f` takes. -/
def State.routinesDue (s : State) (f : Routine → Bool) : Due :=
  s.cores.flatMap (fun e =>
    match s.arrayHead e.1 with
    | some r => if f r then s.routineDue e.1 r else []
    | none => [])

/-- Routines that have ended retire. -/
def State.endedDue (s : State) : Due := s.routinesDue (fun r => r.ended)
/-- Packs go at a time of their own. -/
def State.packsDue (s : State) : Due := s.routinesDue (fun r => r.op == 2 && !r.ended)

/-- A microword that reads or writes memory: it takes one owned cycle or more (R212), how many is free (log 18). -/
def opensTime (i : Instr) : Bool :=
  match i with
  | .uopStep _ => true
  | .uopDrn _ => true
  | _ => false

/-- A routine that runs whole at its start, `load` or `pack`: its reads and writes take as long as a step's. -/
def Routine.whole (r : Routine) : Bool := r.op == 0 && r.std && decide (6 ≤ r.idx)

/-- The microword of a core's array that stands next, if it runs in this cycle. -/
def State.wordTurn (s : State) (ex : Exec) (k : Nat) : Out :=
  match s.arrayHead k with
  | none => .next s
  | some r =>
    if r.op = 2 || r.ended || !r.begun then .next s
    else
      match s.routineDue k r with
      | [] => .next s
      | (i, a) :: _ => if !opensTime i || Config.freeBool s.frees then s.drawn.event ex i a else .next s.drawn

/-- The turn of a core's array at the end of a cycle, when it is known whether the core is frozen in it: its routine starts, and its
first microword runs in its first cycle (R201). -/
def State.arrayTurn (s : State) (ex : Exec) (k : Nat) : Out :=
  match s.arrayHead k with
  | none => .next s
  | some r =>
    if r.begun || r.op = 2 || r.ended then s.wordTurn ex k
    else
      match s.routineDue k r with
      | [] => .next s
      | (i, a) :: _ =>
        if r.whole && !Config.freeBool s.frees then .next s.drawn
        else andThen (s.drawn.event ex i a) (fun s1 => s1.wordTurn ex k)

/-- The arrays whose mode changes in this cycle (R200). -/
def State.modesDue (s : State) : Due :=
  (((s.arrays.map (fun e => e.1)) ++ s.ctxs.map (fun e => coreOf e.1 / 2)).eraseDups.filter (fun ar =>
    (s.arr ar).mode != s.modeGoal ar && [2 * ar, 2 * ar + 1].all (fun k => (s.routinesAt k).isEmpty))).map
    (fun ar => (.arrayModeChange, { core := ar }))

/-! ### Contexts -/

/-- Members of a fused machine that wait for one another (R100). -/
def State.fuseDue (s : State) : Due :=
  [2, 4].flatMap (fun w => (upTo 0 (96 / w)).filterMap (fun i =>
    let n := 2 * w * i
    let ms := (upTo 0 w).map (fun k => n + 2 * k)
    if (s.ctx n).mode == .running && ms.all (fun m => s.ready m && (s.ctx m).mode == .running && (s.ctx m).reach == .fuse w &&
        !(s.ctx m).pass && (s.ctx m).settled (s.ctx m).ic) then some (.fuseJoin, { n := n, idx := w })
    else none))

/-- The watchdog of a machine (R357), but of one whose kernel has been killed (R348). -/
def State.dogDue (s : State) (n : Nat) : Due :=
  let c := s.ctx n
  let b := c.wdb.toNat
  if c.dies then []
  else if (c.pend && decide (2 * b < c.wdogC)) || decide (16 * b < c.wdogC) then [(.watchdog, { n := n })]
  else if decide (b < c.wdogC) && (!c.ovr || (c.pend && !c.fs)) then [(.watchdogOverrun, { n := n })]
  else []

def State.freezesDue (s : State) : Due :=
  (s.cores.filter (fun e => e.2.eccUntil != 0 && decide (e.2.eccUntil < s.cycle))).map (fun e => (.freezeEnd, { core := e.1 }))

/-! ### The module -/

/-- Kernels that are leaving, and budgets (R381). -/
def State.kernelsDue (s : State) : Due :=
  s.mod.kernels.flatMap (fun e =>
    if e.2.state != .running then []
    else (if s.kernelLeft e.1 then [(.switchOut, { id := e.1, idx := 1 })] else []) ++
      (if e.2.budget != 0 && decide (e.2.budget < e.2.used) && !e.2.overB then [(.budgetExceeded, { id := e.1 })] else []))

/-- Data of own and peer scratch, in its own cycle (R144). -/
def State.exactDue (s : State) : Due :=
  (s.resps.filter (fun r => r.exact && decide (r.at' ≤ s.cycle))).map (fun r => (.dataArrival, { id := r.acc.id }))

/-- The events that happen in this cycle, whatever else does. -/
def State.mustDo (s : State) : Due :=
  (if s.mod.stage = 0 && s.mod.power then [(.powerUp, noArg)] else []) ++
  s.exactDue ++ s.freezesDue ++ s.kernelsDue ++ s.leads.flatMap s.dogDue ++
  (match s.startable with | some k => [(.launchStart, { id := k })] | none => []) ++
  ((s.wings.filter (fun e => e.2.sample)).map (fun e => (.traceSample, { core := e.1 }))) ++
  s.modesDue ++ s.endedDue

/-- The next ring entry (R372). -/
def State.ringDue (s : State) : Due :=
  match s.ringEntry with
  | none => []
  | some e =>
    if ringBad e then [(.start, { idx := 1 })]
    else
      let a : EvArg := { addr := e % 2 ^ 48 }
      if e / 2 ^ 62 = 0 then [(.launch, a)] else if e / 2 ^ 62 = 1 then [(.graph, a)] else [(.kill, a)]

/-- The first activation (R385). -/
def State.nodeDue (s : State) : Due :=
  match s.mod.acts with
  | [] => []
  | a :: _ =>
    match s.nodeKind a.node with
    | 1 => [(.nodeKernel, noArg)]
    | 2 => [(.nodeCond, noArg)]
    | 3 => [(.nodeLoop, noArg)]
    | 4 => [(.nodeJoin, noArg)]
    | _ => [(.graph, { idx := 1 })]

/-- The command processor at READY (R372, R382, R110). It takes no entry during a swap of firmware (R403). -/
def State.commandsDue (s : State) : Due :=
  if s.mod.stage = 6 && s.mod.power then
    (if s.serving 1 then [] else s.ringDue ++ s.nodeDue) ++
    s.mod.kernels.flatMap (fun e => (if s.preloadable e.2 then [(Instr.preload, ({ id := e.1 } : EvArg))] else []) ++
      (if (e.2.state == .running || (e.2.state == .out && e.2.dying.isSome)) && s.finished e.1 then [(.kernelRetire, { id := e.1 })] else []))
  else []

/-- Firmware (R398 to R404). -/
def State.firmwareDue (s : State) : Due :=
  let m := s.mod
  (if m.stage = 2 || s.serving 7 then [(.firmwareVerify, noArg)] else []) ++
  (if m.stage = 3 ∨ m.stage = 4 ∨ m.stage = 5 then [(.ready, noArg)] else []) ++
  (if s.serving 1 then [(.swapFirmware, noArg)] else []) ++
  (if s.serving 2 then [(.installRoutine, noArg)] else []) ++
  (if s.serving 3 && (decide (24 ≤ m.svc.tgt.toNat) || (s.spareOf m.svc.tgt.toNat).isNone || s.clusterFree m.svc.tgt.toNat) then
    [(.retireCluster, noArg)] else []) ++
  (if s.serving 4 && (!m.svc.moves || (if m.svc.rest.isEmpty then s.movesDone else decide ((s.wing 0).reloc.length < 16))) then
    [(.drainChannel, noArg)] else []) ++
  (if s.serving 5 then [(.retrainPort, noArg)] else []) ++
  (if s.serving 6 then [(.reloadCalibration, noArg)] else []) ++
  (if m.attest then [(.attestationReport, noArg)] else [])

/-- Requests of other nodes that have waited behind a move and may perform: the first at its tile (R288). -/
def State.fabDue (s : State) : Due :=
  ((s.fab.zip (upTo 0 s.fab.length)).filter (fun z =>
    !(State.fabricWaits { s with fab := s.fab.take z.2 } z.1))).map (fun z => (.fabricRequest, { req := z.1, idx := 1 }))

/-- The events that may happen now, at a time that the spec leaves open. DEDUCED (log 18). -/
def State.mayDo (s : State) : Due :=
  ((s.resps.filter (fun r => !r.exact && decide (r.at' ≤ s.cycle) && !r.lacksRoom (s.ctx r.acc.n))).map (fun r =>
    (if r.acc.returns then Instr.dataArrival else Instr.acknowledgmentArrival, ({ id := r.acc.id } : EvArg)))) ++
  s.ctxs.flatMap (fun e => e.2.invN.map (fun i => (.acknowledgmentArrival, { n := e.1, id := i, idx := 1 }))) ++
  ((s.outq.filter s.mayDepart).map (fun a => (.outboundDepart, { id := a.id }))) ++
  ((s.net.filter s.mayPerform).map (fun a => (.homeAccess, { id := a.id }))) ++
  s.fabDue ++ s.copiesDue ++ s.relocsDue ++ s.linksDue ++ s.packsDue ++ s.commandsDue ++ s.firmwareDue

/-! ### The end of a cycle -/

/-- Writes of wide registers take effect (R341); the fault buffer and the trace controls through their events. -/
def State.wideWrites (s : State) : List (Nat × Nat × Word) → State
  | [] => s
  | (n, num, v) :: l =>
    (if num = 0x082 then { s with todo := s.todo ++ [(.fbdMarkDone, { idx := v.toNat % 256 })] }
     else if num = 0x084 then { s with todo := s.todo ++ [(.tscWrite, { n := n, v := v })] }
     else s.csrWiden n num v).wideWrites l

/-- A freeze on a late landing ends when its data has arrived or its request is gone (R19, R143). -/
def State.unfreeze (s : State) (k : Nat) : State :=
  match (s.core k).late with
  | none => s
  | some (n, id) =>
    match s.linkCmd? (wingOf n) id with
    | some _ => s.lateRecv k
    | none =>
      if (s.core k).porch.any (fun e => e.id == id && !e.arrived && !e.dead) then s else s.onCore k (fun d => { d with late := none })

def State.unfreezeAll (s : State) : List Nat → State
  | [] => s
  | k :: l => (s.unfreeze k).unfreezeAll l

/-- The place of an arrival in the order of R257. -/
def BarIn.key (b : BarIn) : Nat := b.core * 16 + (bbit b.b).toNat * 8 + b.slot

def barInsert (x : BarIn) : List BarIn → List BarIn
  | [] => [x]
  | y :: l => if x.key < y.key then x :: y :: l else y :: barInsert x l
def barSort : List BarIn → List BarIn
  | [] => []
  | x :: l => barInsert x (barSort l)

/-- The arrival that first brings the count to EXP (R257). -/
def maker (exp cnt : Nat) : List BarIn → Option BarIn
  | [] => none
  | x :: l => if exp ≤ cnt + 1 then some x else maker exp (cnt + 1) l

/-- One barrier in one cycle (R252, R257): the barrier after it, and the input that made an overrunning completion. -/
def Barrier.step (b : Barrier) (cyc : Nat) (ins : List BarIn) : Barrier × Option BarIn :=
  let sets := ins.filter (fun x => x.set.isSome)
  let arrs := barSort (ins.filter (fun x => x.set.isNone))
  let b1 := sets.foldl (fun (b : Barrier) x =>
    match x.set with
    | some (e, st) => { b with exp := e, str := st, ov := false, seen := true }
    | none => b) b
  let exp := b1.exp.toNat
  let cnt := b1.cnt + arrs.length
  let last := orB arrs.getLast? b1.last
  let old := b1.hidden cyc
  if exp ≤ cnt then
    let ovr := b1.str && !b1.seen
    let who :=
      if exp ≤ b1.cnt then (if b.exp.toNat ≤ b.cnt then b1.last else sets.getLast?)
      else maker exp b1.cnt arrs
    let b2 : Barrier := { b1 with
      ph := b1.ph + 1, cnt := cnt - exp, seen := false, ov := b1.ov || ovr, done := old ++ [⟨cyc, exp, ovr && !b1.ov⟩],
      last := last }
    (b2, if ovr then who else none)
  else ({ b1 with cnt := cnt, done := old, last := last }, none)
where
  orB (x y : Option BarIn) : Option BarIn := match x with | some z => some z | none => y

/-- The overrun that `BOVR` records: the lowest arrival, then the lowest barrier. -/
def firstOver : List BarIn → Option BarIn
  | [] => none
  | x :: l =>
    match firstOver l with
    | some y => if y.key < x.key || (y.key == x.key && decide (y.bar < x.bar)) then some y else some x
    | none => some x

def BarIn.word (x : BarIn) : Word :=
  image [2 ^ 63, fld x.bar 59, fld x.core 52, flag x.b 51, fld (x.slot % 8) 48, x.ba / 2 % 2 ^ 47]

/-- The barriers of one cluster in one cycle. -/
def Cluster.stepBars (q : Cluster) (cyc : Nat) (ins : List BarIn) : Cluster :=
  let run := (upTo 0 16).filterMap (fun i =>
    let b : Barrier := mget {} q.bars i
    let mine := ins.filter (fun x => x.bar == i)
    if mine.isEmpty && decide (b.cnt < b.exp.toNat) && b.done.isEmpty then none else some (i, b.step cyc mine))
  let overs := run.filterMap (fun z => z.2.2.map (fun (x : BarIn) => { x with bar := z.1 }))
  { q with
    bars := run.foldl (fun m z => mput m z.1 z.2.1) q.bars,
    bovr := if q.bovr.getLsbD 63 then q.bovr else match firstOver overs with | some x => x.word | none => q.bovr }

/-- Every barrier in one cycle. -/
def State.stepBarriers (s : State) : State :=
  let now := s.barIn.filter (fun x => decide (x.at' ≤ s.cycle))
  let cls := (s.clusters.map (fun e => e.1) ++ now.map (fun x => x.cluster)).eraseDups
  let one := fun (s : State) (cl : Nat) => s.setCluster cl ((s.cluster cl).stepBars s.cycle (now.filter (fun x => x.cluster == cl)))
  { cls.foldl one s with barIn := s.barIn.filter (fun x => !decide (x.at' ≤ s.cycle)) }

/-- Unit time passes where no freeze holds it, or where the core has issued before the cycle's freeze began; and array cycles of
the cores that own them (R20, R133, R199). -/
def State.tickCores (s : State) : State :=
  { s with cores := s.cores.map (fun e =>
      let fz := s.frozen e.1
      (e.1, { e.2 with
        act := if fz && e.2.units.isEmpty then e.2.act else e.2.act + 1,
        units := [],
        bFirst := e.2.bFirst && (s.ctx (2 * e.1 + 1)).mode == .running,
        queue := if s.ownedCycle e.1 fz then e.2.queue.map (fun (r : Routine) => { r with busy := r.busy - 1 })
          else e.2.queue })) }

/-- The guards that bundles of the next cycle see resolved (R117); a wrong prediction rolls back (R105, R123). -/
def State.resolveAll (s : State) : List Nat → State
  | [] => s
  | n :: l =>
    let z := resolveGo (s.cycle + 1) 64 (s.ctx n)
    let s1 := s.setCtx n z.1
    (if z.2 then s1.rollGroup n else s1).resolveAll l

/-- Traps whose tags have become true (R116). -/
def Ctx.raiseTags (c : Ctx) : Ctx :=
  (c.gtraps.filter (fun g => g.1.isEmpty)).foldl (fun c g => c.report g.2)
    { c with gtraps := c.gtraps.filter (fun g => !g.1.isEmpty) }

/-- Fences whose members have performed arrive, and are out of force (R161); one that a carry round keeps stays in force for what
it holds back until the held entries before it have performed (R406). -/
def State.meetFences (s : State) (n : Nat) : List FencePt → State
  | [] => s
  | f :: l =>
    let c := s.ctx n
    (if f.members.any c.pendingOp then s
     else
      let keep := f.heldB.any c.pendingOp
      let s1 := s.onCtx n (fun c => { c with fences := c.fences.filterMap (fun x =>
        if x.seq ≠ f.seq then some x else if keep then some { x with arr := none } else none) })
      match f.arr with
      | some b => s1.toBarrier n f.slot f.ba b none
      | none => s1).meetFences n l

/-- The cores that wait at one `rejoin` with context `n` (R103). -/
def rejoinCores (n w : Nat) : List Nat := upTo (coreOf n / w * w) w

/-- A context waits at a `rejoin` of width `w`: one that may pass it already waits no more. -/
def Ctx.rejoins (c : Ctx) (w : Nat) : Bool := c.reach == .rejoin w && !c.pass

/-- A context may pass its `rejoin` now (R103). -/
def State.rejoinNow (s : State) (n : Nat) : Bool :=
  match (s.ctx n).reach with
  | .rejoin w => !(s.ctx n).pass &&
    (rejoinCores n w).all (fun k => (s.ctx (2 * k)).rejoins w || (s.ctx (2 * k + 1)).rejoins w)
  | _ => false

/-- A context that may pass its `invq` from the next cycle on (R356). -/
def State.passNow (s : State) (n : Nat) : Bool :=
  match (s.ctx n).reach with
  | .invq _ _ _ _ => s.invDone n
  | _ => false

/-- A context waits at `fuse` with another width than a member of an overlapping group (R101). -/
def State.fuseClash (s : State) (n : Nat) : Bool :=
  match (s.ctx n).reach with
  | .fuse w => (upTo (coreOf n / 4 * 4) 4).any (fun k =>
      (match (s.ctx (2 * k)).reach with
        | .fuse v => v != w && (w == 4 || v == 4)
        | _ => false))
  | _ => false

/-- The `FUSE_STATE` of a context that waits at its bundle. -/
def Ctx.fuseTrap (c : Ctx) : TrapRec := { code := .fuseState, ba := c.nextPc, ra := c.nextPc, scy := c.scy }

/-- The names of guards that accesses on their way still carry. -/
def State.tagIds (s : State) (n : Nat) : List Nat :=
  ((s.outq ++ s.net ++ s.resps.map (fun r => r.acc)).filter (fun a => a.n == n)).flatMap (fun a => a.tag.map (fun l => l.id))

/-- Elapsed cycles (R362), at the levels held when the cycle began, as for the bundle that issued in it; `depth` are held now. A
stopped context's counters stand still (R359). -/
def Ctx.elapse (c : Ctx) (depth : Nat) : Ctx :=
  { (if c.mode = .running then (upTo 0 c.depth0).foldl (fun c k => c.lscAdd k 1 1) c else c) with depth0 := depth }

/-- Porch places of a context whose request belonged to an alternative that is discarded (R142, R143): free where the data is
there, else when it arrives. -/
def State.killPorch (s : State) (n : Nat) : State :=
  let gone := fun (e : PorchE) => e.n == n && (s.ctx n).tagGone e.tag
  if (s.core (coreOf n)).porch.any gone then
    s.onCore (coreOf n) (fun d => { d with porch := d.porch.filterMap (fun e =>
      if gone e then (if e.arrived then none else some { e with dead := true }) else some e) })
  else s

def State.killPorches (s : State) : List Nat → State
  | [] => s
  | n :: l => (s.killPorch n).killPorches l

/-- The data of an access is visible in the core (R157): its entry is done with once it has performed. -/
def Ctx.dropLanded (c : Ctx) (act : Nat) : Ctx :=
  { c with outs := c.outs.filter (fun o => !(o.perf && decide (o.rdy ≠ 0 ∧ o.rdy ≤ act))) }

/-- What the end of a cycle does in one context. -/
def State.endCtx (s : State) (n : Nat) : State :=
  let act := (s.core (coreOf n)).act
  let s1 := s.onCtx n (fun c => { c.raiseTags.dropLanded act with freed := [], hw := [], lnksNow := 0 })
  let s2 := s1.meetFences n (s1.ctx n).fences
  let depth := (s2.leadC n).loops.length
  let ids := s2.tagIds n
  let pass := s2.passNow n
  let clash := s2.fuseClash n
  s2.onCtx n (fun c =>
    let c1 := { c.elapse depth with known := c.known.filter (fun k => ids.contains k.1), pass := c.pass || pass }
    if clash then { c1 with fatalP := slotFirst c1.fatalP (some c1.fuseTrap) } else c1)

def State.endCtxs (s : State) : List Nat → State
  | [] => s
  | n :: l => (s.endCtx n).endCtxs l

/-- Samples fall every 2^PER cycles (R363). -/
def Wing.sampleAt (w : Wing) (cyc : Nat) : Wing :=
  let per := w.tsc.toNat % 32
  if w.tsc.getLsbD 63 && decide (10 ≤ per) && decide (cyc % 2 ^ per = 0) then { w with sample := true } else w

/-- The turns of a cycle: 3000 its events, then 1000 + n the releases, 2000 + n fetch and the freezes, 2200 + n what falls due where
the core is not frozen, and n the issue turns, A before B
but B first on a core where it has precedence (R98, R128). At 3001 the contexts that wait for one another at `fuse` or
`rejoin` go on, and at 4000 + n one that still waits there has an empty cycle. Last come the arrays, 5000 and the core. The larder
of a stopped context drains as well (R359). -/
def State.roundTurns (s : State) : List Nat :=
  let ls := s.leads
  let rel := (s.ctxs.filter (fun e => decide (e.1 < 192) && (e.2.mode == .running || e.2.mode == .stopped) && !e.2.larder.isEmpty)).map
    (fun e => 1000 + e.1)
  let first := ls.filter (fun n => n % 2 == 1 && (s.core (coreOf n)).bFirst)
  let rest := ls.filter (fun n => !first.contains n)
  3000 :: rel ++ ls.map (fun n => 2000 + n) ++ ls.map (fun n => 2200 + n) ++ first ++ rest.filter (fun n => n % 2 == 0) ++ 3001 ::
    rest.filter (fun n => n % 2 == 1) ++ 3001 :: (s.cores.filter (fun e => !e.2.queue.isEmpty)).map (fun e => 5000 + e.1)

/-- A running kernel uses its budget (R381). DEDUCED (log 71). -/
def Kernel.tick (k : Kernel) : Kernel := if k.state = .running then { k with used := k.used + 1 } else k

/-- The tick count moves from stage 1 of R398 on (R326): a step is far smaller than the count. -/
def Module.tick (m : Module) (step : Word) : Module :=
  { m with ticks := if m.stage = 0 then m.ticks else m.ticks + step, kernels := m.kernels.map (fun e => (e.1, e.2.tick)) }

/-- The trace writers of the wings (R365). -/
def State.traceAll (s : State) : List Nat → State
  | [] => s
  | w :: l => (s.traceStep w).traceAll l

/-- A suspended command whose context is back takes the last place of its engine's queue, once there is room (R226, R237).
DESIGN CHOICE (log 111). -/
def State.copyBack (s : State) (c : CopyCmd) : State :=
  let q := s.cluster (clusterOf c.n)
  if decide (c.n < 192) && s.copyRoom c then
    s.setCluster (clusterOf c.n) { q with queue := q.queue.filter (fun x => x.id != c.id) ++ [{ c with away := false }] }
  else s

/-- A paused routine whose context is back takes the last place of its core's queue, once there is room (R201, R213).
DESIGN CHOICE (log 111). -/
def State.routineBack (s : State) (r : Routine) : State :=
  if decide (r.n < 192) && s.routineRoom r then
    s.onCore (coreOf r.n) (fun d => { d with
      queue := d.queue.filter (fun x => x.id != r.id) ++ [{ r with away := false, ord := s.cycle * 1024 + 512 + r.n }] })
  else s

/-- The commands and routines that left with a context come back behind it. -/
def State.commandsBack (s : State) : State :=
  let s1 := (s.clusters.flatMap (fun e => e.2.queue.filter (fun c => c.away))).foldl State.copyBack s
  (s1.cores.flatMap (fun e => e.2.queue.filter (fun r => r.away))).foldl State.routineBack s1

/-- What the ports, the cores, the barriers and the trace writers do at the end of a cycle. -/
def State.endCores (s : State) : State :=
  let s1 := { s with csrLate := [] }.commandsBack.wideWrites s.csrLate
  let s2 := s1.ports.tickCores
  ((s2.haltedRecvs (s2.wings.flatMap (fun e => e.2.link))).stepBarriers).traceAll (s2.wings.map (fun e => e.1))

/-- The supersteps that complete in this cycle: every participant issues its `sstep` in the next one (R259). -/
def State.superstepsDone (s : State) : State :=
  { s with todo := s.todo ++ (s.mod.kernels.filter (fun e => e.2.state == .running && s.sstepReady e.1)).map (fun e =>
      (Instr.superstepComplete, ({ id := e.1 } : EvArg))) }

/-- Guards, traps, fences and waits at the end of a cycle, pre-emption, and supersteps. -/
def State.endContexts (s : State) : State :=
  let ns := s.ctxs.map (fun e => e.1)
  let s0 := (s.resolveAll ns).killPorches ns
  let s1 := (s0.unfreezeAll (s0.cores.map (fun e => e.1))).endCtxs ns
  (s1.requestAll s1.toPreempt).superstepsDone


/-- Time moves. -/
def State.nextCycle (s : State) : State :=
  let t := s.cycle + 1
  let m := { s.mod with ovfNow := 0, skipNow := 0 }.tick (BitVec.ofNat 64 (Config.tickStep s.picks % 2 ^ 32))
  let ws := s.wings.map (fun e => (e.1, e.2.sampleAt t))
  { s with cycle := t, picks := s.picks + 1, wings := ws, mod := m }

/-- The end of a cycle. -/
def State.endCycle (s : State) : State :=
  let s1 := s.endCores.endContexts.nextCycle
  { s1 with turns := s1.roundTurns }

/-! ### One step -/

/-- The first context with a fatal trap or a fault to be acted on: its event. A fatal trap is raised at a bundle boundary, and a context
whose kernel has been killed does nothing more than stop there (R348). -/
def State.troubled (s : State) : Due :=
  s.ctxs.flatMap (fun e =>
    let c := e.2
    if c.dies && s.midRep e.1 then []
    else if !s.midRep e.1 && (c.dies || c.fatalP.isSome || (match c.trapP with | some t => s.isFatal e.1 t | none => false)) then
      [(.fatalTrap, { n := e.1 })]
    else
      match c.faultP with
      | some t => if t.code = .markChain then [(.markChain, { n := e.1, who := .core e.1 })] else [(.pageFault, { n := e.1 })]
      | none => [])

/-- The events of the outside (R324, R328, R337, R356, R359, R398, R405). -/
def external (i : Instr) (a : EvArg) : Bool :=
  match i with
  | .fabricRequest | .powerUp | .thermalWarning | .thermalCritical | .temperatureFalls | .debugResume | .remoteInvalidation => true
  | .flitArrival => a.flit.send.isNone
  | _ => false

/-- What the outside does (R149, R359). A debug stop of the host lands before the next bundle. -/
def State.takeInput (s : State) (ex : Exec) (x : Input) : Out :=
  match x with
  | .event .debugStop a => .next (s.onCtx a.n (fun c => { c with hostReq := true }))
  | .event i a => if external i a then s.event ex i a else .next s
  | .flip hm => .next (if isScratch hm then { s with mem := { s.mem with flips := sIns s.mem.flips (granule hm) } } else s)
  | .remote hm bs => .next (if 2 ^ 48 ≤ hm && s.ownHome hm == hm then { s with mem := s.mem.store hm bs [] } else s)
  | .remoteMark hm on => .next (
      if 2 ^ 48 ≤ hm && s.ownHome hm == hm then
        { s with mem := if on then s.mem.setMarks (hm - hm % 65536) else s.mem.clearMarks (hm - hm % 65536) }
      else s)

/-- The events at the start of a cycle: what the outside does, what must happen, and then what may (log 5, DESIGN CHOICE). -/
def State.eventTurn (s : State) (ex : Exec) : Out :=
  match s.inputs with
  | x :: l => { s with inputs := l }.takeInput ex x
  | [] =>
    match s.mustDo with
    | (i, a) :: _ => s.event ex i a
    | [] =>
      let l := s.mayDo
      match l[Config.pick s.picks % (l.length + 1)]? with
      | some (i, a) => { s with picks := s.picks + 1 }.event ex i a
      | none => .next { s with picks := s.picks + 1, turns := s.turns.drop 1 }

/-- Contexts that need not wait any longer take their turn again. -/
def State.again (s : State) (ns : List Nat) : State :=
  { s with turns := ns ++ s.turns.filter (fun t => !ns.any (fun n => t == 4000 + n)) }

/-- Contexts that wait for one another at `fuse` or `rejoin` go on together (R100, R103). -/
def State.joinTurn (s : State) (ex : Exec) : Out :=
  match s.fuseDue with
  | (i, a) :: _ => (s.again ((upTo 0 a.idx).map (fun k => a.n + 2 * k))).event ex i a
  | [] =>
    match (s.ctxs.map (fun e => e.1)).filter s.rejoinNow with
    | [] => .next { s with turns := s.turns.drop 1 }
    | ns => .next ((s.again ns).onCtxs (fun c => { c with pass := true }) ns)

/-- One turn of a cycle. DEDUCED (log 62). A larder releases on while its core is frozen by a late landing or by a full fault buffer,
not in a correctable-error freeze. DESIGN CHOICE (log 95). -/
def State.takeTurn (s : State) (ex : Exec) (t : Nat) : Out :=
  if t = 3000 then s.eventTurn ex
  else if t = 3001 then s.joinTurn ex
  else
    let s1 := { s with turns := s.turns.drop 1 }
    if 5000 ≤ t then s1.arrayTurn ex (t - 5000)
    else if 4000 ≤ t then .next (s1.emptyCycle (t - 4000))
    else if 2200 ≤ t then .next (s1.dueTurn (t - 2200))
    else if 2000 ≤ t then s1.fetchTurn ex (t - 2000)
    else if 1000 ≤ t then
      (if (s.core (coreOf (t - 1000))).eccFrozen s.cycle then .next s1 else s1.event ex .larderRelease { n := t - 1000 })
    else s1.issueTurn ex t

/-- One step with the meanings `ex`: an event that is due, a turn of the cycle, or the cycle's end with its fatal traps and
faults first. -/
def State.stepWith (s : State) (ex : Exec) : Out :=
  match s.todo with
  | (i, a) :: l => { s with todo := l }.event ex i a
  | [] =>
    match s.turns with
    | t :: _ => s.takeTurn ex t
    | [] =>
      match s.troubled with
      | (i, a) :: _ => s.event ex i a
      | [] => .next s.endCycle

end Sys2Proof.Machine
end

