-- ==== Sys2Proof/Machine/Dispatch.lean ====
section
/-! DEFINITION. The meaning of every instruction: one arm for each constructor of `Instr`. -/

namespace Sys2Proof.Machine

def exec (i : Instr) (s : State) : Host.Outcome State Fault Refusal :=
  match i with
  | .nop h o => Sys2Proof.Machine.execNop h o s
  | .br h o => Sys2Proof.Machine.execBr h o s
  | .bri h o => Sys2Proof.Machine.execBri h o s
  | .call h o => Sys2Proof.Machine.execCall h o s
  | .calli h o => Sys2Proof.Machine.execCalli h o s
  | .ret h o => Sys2Proof.Machine.execRet h o s
  | .loop h o => Sys2Proof.Machine.execLoop h o s
  | .loopv h o => Sys2Proof.Machine.execLoopv h o s
  | .brk h o => Sys2Proof.Machine.execBrk h o s
  | .next h o => Sys2Proof.Machine.execNext h o s
  | .lidx h o => Sys2Proof.Machine.execLidx h o s
  | .lidxC h o => Sys2Proof.Machine.execLidxC h o s
  | .mark h o => Sys2Proof.Machine.execMark h o s
  | .ppt h o => Sys2Proof.Machine.execPpt h o s
  | .halt h o => Sys2Proof.Machine.execHalt h o s
  | .fuse2 h o => Sys2Proof.Machine.execFuse2 h o s
  | .fuse4 h o => Sys2Proof.Machine.execFuse4 h o s
  | .decouple h o => Sys2Proof.Machine.execDecouple h o s
  | .rejoin2 h o => Sys2Proof.Machine.execRejoin2 h o s
  | .rejoin4 h o => Sys2Proof.Machine.execRejoin4 h o s
  | .fmt h o => Sys2Proof.Machine.execFmt h o s
  | .wset h o => Sys2Proof.Machine.execWset h o s
  | .wait h o => Sys2Proof.Machine.execWait h o s
  | .waitNb h o => Sys2Proof.Machine.execWaitNb h o s
  | .arrive h o => Sys2Proof.Machine.execArrive h o s
  | .bwait h o => Sys2Proof.Machine.execBwait h o s
  | .bphase h o => Sys2Proof.Machine.execBphase h o s
  | .bset h o => Sys2Proof.Machine.execBset h o s
  | .bsetS h o => Sys2Proof.Machine.execBsetS h o s
  | .sstep h o => Sys2Proof.Machine.execSstep h o s
  | .spawn h o => Sys2Proof.Machine.execSpawn h o s
  | .ilock h o => Sys2Proof.Machine.execIlock h o s
  | .iunlock h o => Sys2Proof.Machine.execIunlock h o s
  | .pfn h o => Sys2Proof.Machine.execPfn h o s
  | .gres h o => Sys2Proof.Machine.execGres h o s
  | .gresAll h o => Sys2Proof.Machine.execGresAll h o s
  | .gcol h o => Sys2Proof.Machine.execGcol h o s
  | .gcolT h o => Sys2Proof.Machine.execGcolT h o s
  | .gcolF h o => Sys2Proof.Machine.execGcolF h o s
  | .cgo2 h o => Sys2Proof.Machine.execCgo2 h o s
  | .cgo4 h o => Sys2Proof.Machine.execCgo4 h o s
  | .cguess h o => Sys2Proof.Machine.execCguess h o s
  | .cchk h o => Sys2Proof.Machine.execCchk h o s
  | .cend h o => Sys2Proof.Machine.execCend h o s
  | .trap h o => Sys2Proof.Machine.execTrap h o s
  | .sret h o => Sys2Proof.Machine.execSret h o s
  | .csrr h o => Sys2Proof.Machine.execCsrr h o s
  | .csrw h o => Sys2Proof.Machine.execCsrw h o s
  | .dstop h o => Sys2Proof.Machine.execDstop h o s
  | .invqC h o => Sys2Proof.Machine.execInvqC h o s
  | .invqE h o => Sys2Proof.Machine.execInvqE h o s
  | .invqN h o => Sys2Proof.Machine.execInvqN h o s
  | .nopS h o => Sys2Proof.Machine.execNopS h o s
  | .add h o => Sys2Proof.Machine.execAdd h o s
  | .sub h o => Sys2Proof.Machine.execSub h o s
  | .mul h o => Sys2Proof.Machine.execMul h o s
  | .mulh h o => Sys2Proof.Machine.execMulh h o s
  | .mulhu h o => Sys2Proof.Machine.execMulhu h o s
  | .div h o => Sys2Proof.Machine.execDiv h o s
  | .divu h o => Sys2Proof.Machine.execDivu h o s
  | .rem h o => Sys2Proof.Machine.execRem h o s
  | .remu h o => Sys2Proof.Machine.execRemu h o s
  | .and h o => Sys2Proof.Machine.execAnd h o s
  | .or h o => Sys2Proof.Machine.execOr h o s
  | .xor h o => Sys2Proof.Machine.execXor h o s
  | .andn h o => Sys2Proof.Machine.execAndn h o s
  | .shl h o => Sys2Proof.Machine.execShl h o s
  | .shr h o => Sys2Proof.Machine.execShr h o s
  | .sra h o => Sys2Proof.Machine.execSra h o s
  | .rotl h o => Sys2Proof.Machine.execRotl h o s
  | .clz h o => Sys2Proof.Machine.execClz h o s
  | .ctz h o => Sys2Proof.Machine.execCtz h o s
  | .pop h o => Sys2Proof.Machine.execPop h o s
  | .ffs h o => Sys2Proof.Machine.execFfs h o s
  | .min h o => Sys2Proof.Machine.execMin h o s
  | .minu h o => Sys2Proof.Machine.execMinu h o s
  | .max h o => Sys2Proof.Machine.execMax h o s
  | .maxu h o => Sys2Proof.Machine.execMaxu h o s
  | .sel h o => Sys2Proof.Machine.execSel h o s
  | .seq h o => Sys2Proof.Machine.execSeq h o s
  | .sne h o => Sys2Proof.Machine.execSne h o s
  | .slt h o => Sys2Proof.Machine.execSlt h o s
  | .sltu h o => Sys2Proof.Machine.execSltu h o s
  | .sext h o => Sys2Proof.Machine.execSext h o s
  | .zext h o => Sys2Proof.Machine.execZext h o s
  | .bfx h o => Sys2Proof.Machine.execBfx h o s
  | .bfi h o => Sys2Proof.Machine.execBfi h o s
  | .lea h o => Sys2Proof.Machine.execLea h o s
  | .mov h o => Sys2Proof.Machine.execMov h o s
  | .amovAS h o => Sys2Proof.Machine.execAmovAS h o s
  | .amovSA h o => Sys2Proof.Machine.execAmovSA h o s
  | .amovAA h o => Sys2Proof.Machine.execAmovAA h o s
  | .li h o => Sys2Proof.Machine.execLi h o s
  | .lih h o => Sys2Proof.Machine.execLih h o s
  | .gcmp h o => Sys2Proof.Machine.execGcmp h o s
  | .gcmpLe h o => Sys2Proof.Machine.execGcmpLe h o s
  | .gand h o => Sys2Proof.Machine.execGand h o s
  | .gor h o => Sys2Proof.Machine.execGor h o s
  | .gnot h o => Sys2Proof.Machine.execGnot h o s
  | .addImm h o => Sys2Proof.Machine.execAddImm h o s
  | .andImm h o => Sys2Proof.Machine.execAndImm h o s
  | .orImm h o => Sys2Proof.Machine.execOrImm h o s
  | .xorImm h o => Sys2Proof.Machine.execXorImm h o s
  | .shlImm h o => Sys2Proof.Machine.execShlImm h o s
  | .shrImm h o => Sys2Proof.Machine.execShrImm h o s
  | .sraImm h o => Sys2Proof.Machine.execSraImm h o s
  | .rotlImm h o => Sys2Proof.Machine.execRotlImm h o s
  | .mulImm h o => Sys2Proof.Machine.execMulImm h o s
  | .minImm h o => Sys2Proof.Machine.execMinImm h o s
  | .maxImm h o => Sys2Proof.Machine.execMaxImm h o s
  | .sltImm h o => Sys2Proof.Machine.execSltImm h o s
  | .sltuImm h o => Sys2Proof.Machine.execSltuImm h o s
  | .seqImm h o => Sys2Proof.Machine.execSeqImm h o s
  | .sneImm h o => Sys2Proof.Machine.execSneImm h o s
  | .nopL h o => Sys2Proof.Machine.execNopL h o s
  | .ld h o => Sys2Proof.Machine.execLd h o s
  | .ldu h o => Sys2Proof.Machine.execLdu h o s
  | .st h o => Sys2Proof.Machine.execSt h o s
  | .vld h o => Sys2Proof.Machine.execVld h o s
  | .vst h o => Sys2Proof.Machine.execVst h o s
  | .ldt h o => Sys2Proof.Machine.execLdt h o s
  | .vldt h o => Sys2Proof.Machine.execVldt h o s
  | .aadd h o => Sys2Proof.Machine.execAadd h o s
  | .aand h o => Sys2Proof.Machine.execAand h o s
  | .aor h o => Sys2Proof.Machine.execAor h o s
  | .axor h o => Sys2Proof.Machine.execAxor h o s
  | .amin h o => Sys2Proof.Machine.execAmin h o s
  | .amax h o => Sys2Proof.Machine.execAmax h o s
  | .aminu h o => Sys2Proof.Machine.execAminu h o s
  | .amaxu h o => Sys2Proof.Machine.execAmaxu h o s
  | .afadd h o => Sys2Proof.Machine.execAfadd h o s
  | .axchg h o => Sys2Proof.Machine.execAxchg h o s
  | .acas h o => Sys2Proof.Machine.execAcas h o s
  | .fence h o => Sys2Proof.Machine.execFence h o s
  | .drain h o => Sys2Proof.Machine.execDrain h o s
  | .tchase h o => Sys2Proof.Machine.execTchase h o s
  | .nopV h o => Sys2Proof.Machine.execNopV h o s
  | .vadd h o => Sys2Proof.Machine.execVadd h o s
  | .vsub h o => Sys2Proof.Machine.execVsub h o s
  | .vmul h o => Sys2Proof.Machine.execVmul h o s
  | .vfma h o => Sys2Proof.Machine.execVfma h o s
  | .vfms h o => Sys2Proof.Machine.execVfms h o s
  | .vnfma h o => Sys2Proof.Machine.execVnfma h o s
  | .vmin h o => Sys2Proof.Machine.execVmin h o s
  | .vmax h o => Sys2Proof.Machine.execVmax h o s
  | .vabs h o => Sys2Proof.Machine.execVabs h o s
  | .vneg h o => Sys2Proof.Machine.execVneg h o s
  | .vand h o => Sys2Proof.Machine.execVand h o s
  | .vor h o => Sys2Proof.Machine.execVor h o s
  | .vxor h o => Sys2Proof.Machine.execVxor h o s
  | .vshl h o => Sys2Proof.Machine.execVshl h o s
  | .vshr h o => Sys2Proof.Machine.execVshr h o s
  | .vsra h o => Sys2Proof.Machine.execVsra h o s
  | .vcmp h o => Sys2Proof.Machine.execVcmp h o s
  | .vsel h o => Sys2Proof.Machine.execVsel h o s
  | .vsplat h o => Sys2Proof.Machine.execVsplat h o s
  | .vbcast h o => Sys2Proof.Machine.execVbcast h o s
  | .vperm h o => Sys2Proof.Machine.execVperm h o s
  | .vshuf h o => Sys2Proof.Machine.execVshuf h o s
  | .vrot h o => Sys2Proof.Machine.execVrot h o s
  | .vext h o => Sys2Proof.Machine.execVext h o s
  | .vins h o => Sys2Proof.Machine.execVins h o s
  | .vmov h o => Sys2Proof.Machine.execVmov h o s
  | .vredsum h o => Sys2Proof.Machine.execVredsum h o s
  | .vredmax h o => Sys2Proof.Machine.execVredmax h o s
  | .vredmin h o => Sys2Proof.Machine.execVredmin h o s
  | .vscan h o => Sys2Proof.Machine.execVscan h o s
  | .vexp2 h o => Sys2Proof.Machine.execVexp2 h o s
  | .vlog2 h o => Sys2Proof.Machine.execVlog2 h o s
  | .vrcp h o => Sys2Proof.Machine.execVrcp h o s
  | .vrsqrt h o => Sys2Proof.Machine.execVrsqrt h o s
  | .vsqrt h o => Sys2Proof.Machine.execVsqrt h o s
  | .vclz h o => Sys2Proof.Machine.execVclz h o s
  | .vpop h o => Sys2Proof.Machine.execVpop h o s
  | .vcvt h o => Sys2Proof.Machine.execVcvt h o s
  | .vmaxe h o => Sys2Proof.Machine.execVmaxe h o s
  | .vqcvt h o => Sys2Proof.Machine.execVqcvt h o s
  | .vpack h o => Sys2Proof.Machine.execVpack h o s
  | .vunpack h o => Sys2Proof.Machine.execVunpack h o s
  | .nopM h o => Sys2Proof.Machine.execNopM h o s
  | .mset h o => Sys2Proof.Machine.execMset h o s
  | .mget h o => Sys2Proof.Machine.execMget h o s
  | .mcall h o => Sys2Proof.Machine.execMcall h o s
  | .mzero h o => Sys2Proof.Machine.execMzero h o s
  | .mrd h o => Sys2Proof.Machine.execMrd h o s
  | .mwr h o => Sys2Proof.Machine.execMwr h o s
  | .mwait h o => Sys2Proof.Machine.execMwait h o s
  | .mprov h o => Sys2Proof.Machine.execMprov h o s
  | .mpgm h o => Sys2Proof.Machine.execMpgm h o s
  | .nopX h o => Sys2Proof.Machine.execNopX h o s
  | .xdim h o => Sys2Proof.Machine.execXdim h o s
  | .xcopy h o => Sys2Proof.Machine.execXcopy h o s
  | .xgather h o => Sys2Proof.Machine.execXgather h o s
  | .xscatter h o => Sys2Proof.Machine.execXscatter h o s
  | .xfill h o => Sys2Proof.Machine.execXfill h o s
  | .xwait h o => Sys2Proof.Machine.execXwait h o s
  | .tmove h o => Sys2Proof.Machine.execTmove h o s
  | .tstat h o => Sys2Proof.Machine.execTstat h o s
  | .tsweep h o => Sys2Proof.Machine.execTsweep h o s
  | .tunmark h o => Sys2Proof.Machine.execTunmark h o s
  | .tunmarkF h o => Sys2Proof.Machine.execTunmarkF h o s
  | .lsend h o => Sys2Proof.Machine.execLsend h o s
  | .lrecv h o => Sys2Proof.Machine.execLrecv h o s
  | .lred h o => Sys2Proof.Machine.execLred h o s
  | .ltime h o => Sys2Proof.Machine.execLtime h o s
  | .nopN h o => Sys2Proof.Machine.execNopN h o s
  | .nclr h o => Sys2Proof.Machine.execNclr h o s
  | .nmerge h o => Sys2Proof.Machine.execNmerge h o s
  | .nmergeP h o => Sys2Proof.Machine.execNmergeP h o s
  | .nsort h o => Sys2Proof.Machine.execNsort h o s
  | .nsortI h o => Sys2Proof.Machine.execNsortI h o s
  | .ntop h o => Sys2Proof.Machine.execNtop h o s
  | .ntopK h o => Sys2Proof.Machine.execNtopK h o s
  | .ntopV h o => Sys2Proof.Machine.execNtopV h o s
  | .nkth h o => Sys2Proof.Machine.execNkth h o s
  | .nmass h o => Sys2Proof.Machine.execNmass h o s
  | .nhist h o => Sys2Proof.Machine.execNhist h o s
  | .nhistM h o => Sys2Proof.Machine.execNhistM h o s
  | .nhistSet h o => Sys2Proof.Machine.execNhistSet h o s
  | .nhistRd h o => Sys2Proof.Machine.execNhistRd h o s
  | .nthr h o => Sys2Proof.Machine.execNthr h o s
  | .nthrP h o => Sys2Proof.Machine.execNthrP h o s
  | .nrng h o => Sys2Proof.Machine.execNrng h o s
  | .nrngX h o => Sys2Proof.Machine.execNrngX h o s
  | .nsampleTok h o => Sys2Proof.Machine.execNsampleTok h o s
  | .nsampleShard h o => Sys2Proof.Machine.execNsampleShard h o s
  | .nsave h o => Sys2Proof.Machine.execNsave h o s
  | .uopNop u => Sys2Proof.Machine.execUopNop u s
  | .uopStep u => Sys2Proof.Machine.execUopStep u s
  | .uopAdva u => Sys2Proof.Machine.execUopAdva u s
  | .uopAdvb u => Sys2Proof.Machine.execUopAdvb u s
  | .uopLoopu u => Sys2Proof.Machine.execUopLoopu u s
  | .uopAcc u => Sys2Proof.Machine.execUopAcc u s
  | .uopClr u => Sys2Proof.Machine.execUopClr u s
  | .uopDrn u => Sys2Proof.Machine.execUopDrn u s
  | .uopProv u => Sys2Proof.Machine.execUopProv u s
  | .uopWin u => Sys2Proof.Machine.execUopWin u s
  | .uopBpip u => Sys2Proof.Machine.execUopBpip u s
  | .uopTrn u => Sys2Proof.Machine.execUopTrn u s
  | .uopScl u => Sys2Proof.Machine.execUopScl u s
  | .uopArr u => Sys2Proof.Machine.execUopArr u s
  | .uopEnd u => Sys2Proof.Machine.execUopEnd u s
  | .emptyBundle stop rep hint => Sys2Proof.Machine.execEmptyBundle stop rep hint s
  | .issueGroup => Sys2Proof.Machine.execIssueGroup s
  | .bPrecedence => Sys2Proof.Machine.execBPrecedence s
  | .dataArrival => Sys2Proof.Machine.execDataArrival s
  | .freezeEnd => Sys2Proof.Machine.execFreezeEnd s
  | .larderRelease => Sys2Proof.Machine.execLarderRelease s
  | .outboundDepart => Sys2Proof.Machine.execOutboundDepart s
  | .homeAccess => Sys2Proof.Machine.execHomeAccess s
  | .fabricRequest => Sys2Proof.Machine.execFabricRequest s
  | .pageFault => Sys2Proof.Machine.execPageFault s
  | .markChain => Sys2Proof.Machine.execMarkChain s
  | .fetchFault => Sys2Proof.Machine.execFetchFault s
  | .icacheFill => Sys2Proof.Machine.execIcacheFill s
  | .fbdMarkDone => Sys2Proof.Machine.execFbdMarkDone s
  | .trapEntry => Sys2Proof.Machine.execTrapEntry s
  | .fatalTrap => Sys2Proof.Machine.execFatalTrap s
  | .fuseJoin => Sys2Proof.Machine.execFuseJoin s
  | .switchOut => Sys2Proof.Machine.execSwitchOut s
  | .switchIn => Sys2Proof.Machine.execSwitchIn s
  | .watchdogOverrun => Sys2Proof.Machine.execWatchdogOverrun s
  | .watchdog => Sys2Proof.Machine.execWatchdog s
  | .budgetExceeded => Sys2Proof.Machine.execBudgetExceeded s
  | .debugStop => Sys2Proof.Machine.execDebugStop s
  | .debugResume => Sys2Proof.Machine.execDebugResume s
  | .traceSample => Sys2Proof.Machine.execTraceSample s
  | .tscWrite => Sys2Proof.Machine.execTscWrite s
  | .superstepComplete => Sys2Proof.Machine.execSuperstepComplete s
  | .routineStart => Sys2Proof.Machine.execRoutineStart s
  | .routineRetire => Sys2Proof.Machine.execRoutineRetire s
  | .routinePause => Sys2Proof.Machine.execRoutinePause s
  | .arrayModeChange => Sys2Proof.Machine.execArrayModeChange s
  | .packInstall => Sys2Proof.Machine.execPackInstall s
  | .copyStart => Sys2Proof.Machine.execCopyStart s
  | .copyRetire => Sys2Proof.Machine.execCopyRetire s
  | .copySuspend => Sys2Proof.Machine.execCopySuspend s
  | .moveFreeze => Sys2Proof.Machine.execMoveFreeze s
  | .moveDrain => Sys2Proof.Machine.execMoveDrain s
  | .moveCopy => Sys2Proof.Machine.execMoveCopy s
  | .relocationRetire => Sys2Proof.Machine.execRelocationRetire s
  | .lsendDeparture => Sys2Proof.Machine.execLsendDeparture s
  | .flitArrival => Sys2Proof.Machine.execFlitArrival s
  | .lredReduce => Sys2Proof.Machine.execLredReduce s
  | .lsendRetire => Sys2Proof.Machine.execLsendRetire s
  | .start => Sys2Proof.Machine.execStart s
  | .launch => Sys2Proof.Machine.execLaunch s
  | .graph => Sys2Proof.Machine.execGraph s
  | .kill => Sys2Proof.Machine.execKill s
  | .launchStart => Sys2Proof.Machine.execLaunchStart s
  | .preload => Sys2Proof.Machine.execPreload s
  | .kernelRetire => Sys2Proof.Machine.execKernelRetire s
  | .nodeKernel => Sys2Proof.Machine.execNodeKernel s
  | .nodeCond => Sys2Proof.Machine.execNodeCond s
  | .nodeLoop => Sys2Proof.Machine.execNodeLoop s
  | .nodeJoin => Sys2Proof.Machine.execNodeJoin s
  | .powerUp => Sys2Proof.Machine.execPowerUp s
  | .go => Sys2Proof.Machine.execGo s
  | .firmwareVerify => Sys2Proof.Machine.execFirmwareVerify s
  | .ready => Sys2Proof.Machine.execReady s
  | .swapFirmware => Sys2Proof.Machine.execSwapFirmware s
  | .installRoutine => Sys2Proof.Machine.execInstallRoutine s
  | .retireCluster => Sys2Proof.Machine.execRetireCluster s
  | .drainChannel => Sys2Proof.Machine.execDrainChannel s
  | .retrainPort => Sys2Proof.Machine.execRetrainPort s
  | .reloadCalibration => Sys2Proof.Machine.execReloadCalibration s
  | .serviceActionComplete => Sys2Proof.Machine.execServiceActionComplete s
  | .windowRegisterWrite => Sys2Proof.Machine.execWindowRegisterWrite s
  | .attestationRequest => Sys2Proof.Machine.execAttestationRequest s
  | .attestationReport => Sys2Proof.Machine.execAttestationReport s
  | .thermalWarning => Sys2Proof.Machine.execThermalWarning s
  | .thermalCritical => Sys2Proof.Machine.execThermalCritical s
  | .temperatureFalls => Sys2Proof.Machine.execTemperatureFalls s
  | .acknowledgmentArrival => Sys2Proof.Machine.execAcknowledgmentArrival s
  | .remoteInvalidation => Sys2Proof.Machine.execRemoteInvalidation s

end Sys2Proof.Machine
end

