-- ==== Sys2Proof/Machine/Step.lean ====
section
/-! DEFINITION. One step of the machine, and the placing of an instruction where the next step fetches it (log 3, DEDUCED). -/

namespace Sys2Proof.Machine

/-- One step: an event that is due, one turn of the cycle, or the cycle's end (`State.stepWith`). -/
def step (s : State) : Host.Outcome State Fault Refusal := s.stepWith exec

/-- Where `withFetchWord` places its bundle: an address that its executable entry maps to itself. -/
def fetchPlace : Nat := 0x7F0000

/-- A present, writable and executable KIND 4 entry of 64 KiB at that address (R135). -/
def fetchEntry : TEntry := { w0 := 0x7F4384, w1 := 0x7F0000 }

/-- The bytes of a bundle of one operation, with STOP, in the slot that `tableOp` reads it for (R24, R26, log 4, DESIGN CHOICE). -/
def bundleBytes (nbits w : Nat) : List Byte :=
  if nbits ≤ 16 then toBytes w 2 ++ toBytes 0 8
  else
    let k := match tableOp w with | some (k, _) => k | none => 0
    toBytes (2 ^ 13 + 2 ^ (7 - k)) 2 ++ toBytes w 8

/-- The state with an instruction where the next step fetches, on context A of core 0: the module at READY, the context
running, and its turn next. -/
def State.withFetchWord (s : State) (nbits w : Nat) : State :=
  let c := s.ctx 0
  let s1 := s.setCtx 0 { c with
    mode := .running, pc := fetchPlace, fetchAt := 0, group := [], wdb := 0xFFFFFFFF,
    table := { core := mput c.table.core 0 fetchEntry, eng := mput c.table.eng 0 fetchEntry } }
  { s1 with
    mem := s1.mem.store fetchPlace (bundleBytes nbits w) [], mod := { s1.mod with stage := 6 }, todo := [], turns := [0] }

end Sys2Proof.Machine
end

