-- ==== Sys2Proof/Safety.lean ====
section
/-! DEFINITION. The words that claims are made of: the invariants of a sound run, the conditions under which an
operation completes, and what a step may change. -/

namespace Sys2Proof.Machine

/-- Memory has its canonical form: addresses rising, no cell at the fill. -/
def State.MemInv (s : State) : Prop := s.mem.wf = true

/-! ### Conditions of the operation being run -/

/-- The guard of the operation is resolved to the passing sense, and no acceptance literal is open (R113, R310). -/
def State.Fires (s : State) (h : Hdr) : Prop := s.guard h = some {}

/-- The guard of an operation of R125 passes: resolved, or predicted (R113). -/
def State.Passes (s : State) (h : Hdr) : Prop :=
  (∃ k, s.guard h = some k) ∧ ∀ id, id ∈ s.cur.collapsible → id ∉ s.cur.ownOpen h s.latch.ic

/-- The guard of an operation that waits for it is resolved to the passing sense (R113, R126). -/
def State.Settled (s : State) (h : Hdr) : Prop := (∃ k, s.guard h = some k) ∧ s.cur.ownOpen h s.latch.ic = []

/-- A source register holds one alternative (R118). -/
def State.SIs (s : State) (r : Nat) (x : SVal) : Prop := s.sSrc r = [([], x)]
def State.AIs (s : State) (r : Nat) (x : SVal) : Prop := s.aSrc r = [([], x)]
def State.VIs (s : State) (r : Nat) (x : VVal) : Prop := s.vSrc r = [([], x)]

/-- A value without poison and fault mark. -/
def clean {w p : Nat} (v : BitVec w) : Val w p := { v := v }

/-- A source of `gcmp` holds one clean value whose data is there (R116). -/
def State.GcmpReads (s : State) (r : Nat) (x : Word) : Prop :=
  ∃ g, s.cur.sAtLate r s.latch.ic = [{ val := clean x, gen := g }]

/-- An address register holds one alternative of no literals, as the base of an access (R86, R137). -/
def State.BaseIs (s : State) (r : Nat) (x : SVal) : Prop :=
  s.latch.under = [] ∧ ∃ g, s.cur.aAt r s.latch.ic = [{ val := x, gen := g }]

/-- Nothing of the context stands before an access: no held or just released entry, no fence, no marks, no carry round. -/
def State.Calm (s : State) : Prop :=
  s.cur.larder = [] ∧ s.cur.freed = [] ∧ s.cur.fences = [] ∧ s.cur.keepsMarks = false ∧ s.cur.carry = {}

/-! ### What an operation changes -/

/-- A result is on its way to a register: one alternative, visible at count `due` (R34). -/
def Coming {w p : Nat} (f : RegFile w p) (r due : Nat) (v : Val w p) : Prop :=
  ∃ x ∈ f.pend, x.dst = r ∧ x.due = due ∧ x.under = [] ∧ ∃ g, x.alts = [{ val := v, gen := g }]

/-- A timed landing is on its way to a register, for the data of an access (R141, R143). -/
def LandingOf {w p : Nat} (f : RegFile w p) (r due id : Nat) : Prop :=
  ∃ x ∈ f.pend, x.dst = r ∧ x.due = due ∧ x.under = [] ∧ ∃ g, x.alts = [{ ref := some id, gen := g }]

/-- Every scalar and address register but those named reads at every count as before. -/
def State.KeepsS (s t : State) (rs : List Nat) : Prop :=
  ∀ r, r ∉ rs → r ≠ noReg → ∀ k, t.cur.sa.at r k = s.cur.sa.at r k

/-- Every vector register but those named reads at every count as before. -/
def State.KeepsV (s t : State) (rs : List Nat) : Prop := ∀ r, r ∉ rs → ∀ k, t.cur.v.at r k = s.cur.v.at r k

/-- An operation of R125 with a trap: it is raised at the bundle, or, under the literal of a predicted guard, deferred (R131). -/
def State.Raises (s : State) (h : Hdr) (out : Host.Outcome State Fault Refusal) (r : TrapRec) : Prop :=
  ∀ k, s.guard h = some k →
    (k.held = [] → out = .next (s.stat (.trap r))) ∧
    (k.held ≠ [] → s.cur.larder.length < 64 →
      out = .next (s.pushHeld { id := 0, tag := k.held, op := .raise { r with deferred := true } }))

/-- Every byte of memory reads as before. -/
def State.KeepsBytes (s t : State) : Prop := ∀ a, t.mem.get a = s.mem.get a

/-- From `s` to `t` only the context of the operation changes, to `c`, and fresh names are taken: every other context, core,
cluster and array, every special register, the flags of `c` that `c` does not name and every byte of memory stay. -/
def State.Becomes (s t : State) (c : Ctx) : Prop :=
  t = { s with ctxs := t.ctxs, uid := t.uid } ∧ (∀ m, m ≠ s.latch.n → t.ctx m = s.ctx m) ∧ t.cur = c ∧
    ∀ a, t.mem.get a = s.mem.get a

/-- From `s` to `t` the context of the operation changes to `c`, and besides it only lines are brought into caches (R109). -/
def State.BecomesCached (s t : State) (c : Ctx) : Prop :=
  t = { s with ctxs := t.ctxs, uid := t.uid, cores := t.cores, picks := t.picks } ∧
    (∀ m, m ≠ s.latch.n → t.ctx m = s.ctx m) ∧ t.cur = c ∧
    ∀ k, t.core k = { s.core k with lines := (t.core k).lines }

/-- A result of the operation on its way to a register (R34, R52): one alternative, visible `lat` counts on. -/
def State.result {w p : Nat} (s : State) (r lat : Nat) (v : Val w p) : Pend w p :=
  { dst := r, due := s.latch.ic + lat, seq := s.uid, rdy := s.readyAt lat, alts := [{ val := v, gen := s.uid }] }

/-- The arrival that an operation's header asks for, `lat` counts on (R253). -/
def State.arrival (s : State) (h : Hdr) (lat u : Nat) : List ArrP :=
  if h.arr then [⟨s.latch.ic + lat, h.bn.toNat, s.latch.slot, s.latch.ba, [], u⟩] else []

/-- The operation writes scalar register `r` and nothing else, but for its arrival; `s0` takes nothing (R13, R75). -/
def State.WritesS (s t : State) (h : Hdr) (r lat : Nat) (v : SVal) : Prop :=
  s.Becomes t { s.cur with
    sa := if r = 0 then s.cur.sa else s.cur.sa.add (s.result r lat v),
    arrP := s.cur.arrP ++ s.arrival h lat (if r = 0 then s.uid else s.uid + 1) }

/-- The operation writes address register `r`. -/
def State.WritesA (s t : State) (h : Hdr) (r lat : Nat) (v : SVal) : Prop :=
  s.Becomes t { s.cur with
    sa := s.cur.sa.add (s.result (aReg r) lat v), arrP := s.cur.arrP ++ s.arrival h lat (s.uid + 1) }

/-- The operation writes vector register `r` and sends its events to the first-event log (R73). -/
def State.WritesV (s t : State) (h : Hdr) (r lat : Nat) (x : VRes) : Prop :=
  s.Becomes t { s.cur with
    v := s.cur.v.add (s.result r lat x.val),
    felPend := s.cur.felPend ++ x.evs.map (fun e =>
      FelP.mk (s.latch.ic + lat) (s.latch.ic, s.vSlot, e.1) e.2.code s.latch.ba []),
    arrP := s.cur.arrP ++ s.arrival h lat (s.uid + 1) }

/-- The operation writes guard `r`, known, two counts on (R115). -/
def State.WritesG (s t : State) (r : Nat) (b : Bool) : Prop :=
  s.Becomes t { s.cur with gpend := laterIns ⟨r, s.latch.ic + 2, .res b, s.readyAt 2⟩ s.cur.gpend }

/-- A run of `k` steps that meets no fault and no refusal ends in a state. -/
def Runs (k : Nat) (s t : State) : Prop := core.run k s = .next t

end Sys2Proof.Machine
end

