-- ==== Sys2Proof/Certificates/Slice0/Obligations.lean ====
section
/-! DEFINITION. The statements for the provers: what the rules of the spec say of an instruction or of the machine. -/

open Sys2Proof Sys2Proof.Machine

namespace Sys2Proof.Claims

/-! ### The S slot -/

/-- R77: latency and result of the three-register operations. -/
def twoSource : List ((Hdr → TOp → Instr) × Nat × (Word → Word → Word)) := [
  (.add, 1, fun x y => x + y),
  (.sub, 1, fun x y => x - y),
  (.mul, 3, fun x y => x * y),
  (.mulh, 3, fun x y => BitVec.ofInt 64 (x.toInt * y.toInt / 2 ^ 64)),
  (.mulhu, 3, fun x y => BitVec.ofNat 64 (x.toNat * y.toNat / 2 ^ 64)),
  (.and, 1, fun x y => x &&& y),
  (.or, 1, fun x y => x ||| y),
  (.xor, 1, fun x y => x ^^^ y),
  (.andn, 1, fun x y => x &&& ~~~y),
  (.shl, 1, fun x y => x <<< (y.toNat % 64)),
  (.shr, 1, fun x y => x >>> (y.toNat % 64)),
  (.sra, 1, fun x y => x.sshiftRight (y.toNat % 64)),
  (.rotl, 1, fun x y => x.rotateLeft (y.toNat % 64)),
  (.min, 1, fun x y => if x.toInt ≤ y.toInt then x else y),
  (.minu, 1, fun x y => if x ≤ y then x else y),
  (.max, 1, fun x y => if x.toInt ≤ y.toInt then y else x),
  (.maxu, 1, fun x y => if x ≤ y then y else x),
  (.seq, 1, fun x y => if x = y then 1 else 0),
  (.sne, 1, fun x y => if x = y then 0 else 1),
  (.slt, 1, fun x y => if x.toInt < y.toInt then 1 else 0),
  (.sltu, 1, fun x y => if x < y then 1 else 0)]

/-- R78, R79, R77: result of the one-source operations. -/
def oneSource : List ((Hdr → TOp → Instr) × (TOp → Word → Word)) := [
  (.mov, fun _ x => x),
  (.clz, fun o x => let w := 64 / 2 ^ o.sub.toNat; BitVec.ofNat 64 (clzN w (x.toNat % 2 ^ w))),
  (.ctz, fun o x => let w := 64 / 2 ^ o.sub.toNat; BitVec.ofNat 64 (ctzN w x.toNat)),
  (.pop, fun o x => let w := 64 / 2 ^ o.sub.toNat; BitVec.ofNat 64 (popN w x.toNat)),
  (.ffs, fun o x =>
    let w := 64 / 2 ^ o.sub.toNat
    if x.toNat % 2 ^ w = 0 then 0 else BitVec.ofNat 64 (ctzN w x.toNat + 1)),
  (.sext, fun o x => (x.setWidth (8 * 2 ^ o.sub.toNat)).signExtend 64),
  (.zext, fun o x => (x.setWidth (8 * 2 ^ o.sub.toNat)).setWidth 64)]

/-- R83: the immediate forms. -/
def withImmediate : List ((Hdr → IOp → Instr) × Nat × (Word → Word → Word)) := [
  (.addImm, 1, fun x y => x + y),
  (.andImm, 1, fun x y => x &&& y),
  (.orImm, 1, fun x y => x ||| y),
  (.xorImm, 1, fun x y => x ^^^ y),
  (.shlImm, 1, fun x y => x <<< (y.toNat % 64)),
  (.shrImm, 1, fun x y => x >>> (y.toNat % 64)),
  (.sraImm, 1, fun x y => x.sshiftRight (y.toNat % 64)),
  (.rotlImm, 1, fun x y => x.rotateLeft (y.toNat % 64)),
  (.mulImm, 3, fun x y => x * y),
  (.minImm, 1, fun x y => if x.toInt ≤ y.toInt then x else y),
  (.maxImm, 1, fun x y => if x.toInt ≤ y.toInt then y else x),
  (.sltImm, 1, fun x y => if x.toInt < y.toInt then 1 else 0),
  (.sltuImm, 1, fun x y => if x < y then 1 else 0),
  (.seqImm, 1, fun x y => if x = y then 1 else 0),
  (.sneImm, 1, fun x y => if x = y then 0 else 1)]

/-- R81, R82: the divisions: whether signed, the quotient or remainder. -/
def divisions : List ((Hdr → TOp → Instr) × Bool × (Word → Word → Word)) := [
  (.div, true, fun x y => BitVec.ofInt 64 (x.toInt.tdiv y.toInt)),
  (.rem, true, fun x y => BitVec.ofInt 64 (x.toInt.tmod y.toInt)),
  (.divu, false, fun x y => BitVec.ofNat 64 (x.toNat / y.toNat)),
  (.remu, false, fun x y => BitVec.ofNat 64 (x.toNat % y.toNat))]

/-- R82: bits(v), and the latency 18 + ceil(d/4) with d = max(0, bits(x) − bits(y)). -/
def bitsOf (signed : Bool) (v : Word) : Nat := 64 - clzN 64 (if signed then v.toInt.natAbs else v.toNat)
def divLatency (signed : Bool) (x y : Word) : Nat := 18 + (bitsOf signed x - bitsOf signed y + 3) / 4

/-- Poison of a result is the poison of its operands, with the first fault mark (R76, R131). -/
def result2 (f : Word → Word → Word) (x y : SVal) : SVal := ⟨f x.v y.v, x.p ||| y.p, orF x.f y.f⟩
def result1 (f : Word → Word) (x : SVal) : SVal := ⟨f x.v, x.p, x.f⟩

end Sys2Proof.Claims

open Sys2Proof.Claims

/-- R77, R75, R76: a three-register operation writes S[d] with its result and nothing else. -/
def Sys2Proof.Claims.ThreeRegisterResults : Prop :=
  ∀ e ∈ twoSource, ∀ (h : Hdr) (o : TOp) (s : State) (x y : SVal),
    s.Fires h → s.SIs o.a.toNat x → s.SIs o.b.toNat y →
    ∃ t, exec (e.1 h o) s = .next t ∧ s.WritesS t h o.d.toNat e.2.1 (result2 e.2.2 x y)

/-- R78, R79, R77: an operation of one source writes S[d], latency 1. -/
def Sys2Proof.Claims.OneSourceResults : Prop :=
  ∀ e ∈ oneSource, ∀ (h : Hdr) (o : TOp) (s : State) (x : SVal), s.Fires h → s.SIs o.a.toNat x →
    ∃ t, exec (e.1 h o) s = .next t ∧ s.WritesS t h o.d.toNat 1 (result1 (e.2 o) x)

/-- Scalar operations of registers write S[d] with their result (R75, R76, R77, R78, R79). -/
def Obligations.ScalarResults : Prop := Claims.ThreeRegisterResults ∧ Claims.OneSourceResults


/-- R83: an immediate form writes S[d] with the immediate, sign-extended, in place of y. -/
def Sys2Proof.Claims.ImmediateResults : Prop :=
  ∀ e ∈ withImmediate, ∀ (h : Hdr) (o : IOp) (s : State) (x : SVal), s.Fires h → s.SIs o.a.toNat x →
    ∃ t, exec (e.1 h o) s = .next t ∧
      s.WritesS t h o.d.toNat e.2.1
        (result1 (fun v => e.2.2 v (if h.ext then o.imm32.signExtend 64 else o.imm8.signExtend 64)) x)

/-- R80, R84, R85: constants, bit fields, `sel`, and the address operations. -/
def Sys2Proof.Claims.MoveAndFieldResults : Prop :=
  ∀ (h : Hdr) (s : State), s.Fires h →
    (∀ (o : IOp), ∃ t, exec (.li h o) s = .next t ∧
      s.WritesS t h o.d.toNat 1 (clean (if h.ext then o.imm32.signExtend 64 else o.imm8.signExtend 64))) ∧
    (∀ (o : IOp) (x : SVal), s.SIs o.a.toNat x → ∃ t, exec (.lih h o) s = .next t ∧
      s.WritesS t h o.d.toNat 1
        (result1 (fun v => (if h.ext then o.imm32 else o.imm8.signExtend 32) ++ v.setWidth 32) x)) ∧
    (∀ (o : IOp) (x : SVal), s.SIs o.a.toNat x → ∃ t, exec (.bfx h o) s = .next t ∧
      s.WritesS t h o.d.toNat 1 (result1 (fun v =>
        let f := v.extractLsb' o.pos o.len
        if o.imm32.getLsbD 16 then f.signExtend 64 else f.setWidth 64) x)) ∧
    (∀ (o : IOp) (d x : SVal), s.SIs o.d.toNat d → s.SIs o.a.toNat x → ∃ t, exec (.bfi h o) s = .next t ∧
      ∃ v : SVal, s.WritesS t h o.d.toNat 1 v ∧ v.p = (d.p ||| x.p) ∧
        ∀ i, i < 64 → v.v.getLsbD i =
          if o.pos ≤ i ∧ i < o.pos + o.len then x.v.getLsbD (i - o.pos) else d.v.getLsbD i) ∧
    (∀ (o : TOp) (a b c : SVal), s.SIs o.a.toNat a → s.SIs o.b.toNat b → s.SIs o.c.toNat c →
      ∃ t, exec (.sel h o) s = .next t ∧ ∃ v : SVal, s.WritesS t h o.d.toNat 1 v ∧
        v.v = (if c.v = 0 then b.v else a.v) ∧ v.p = (a.p ||| b.p ||| c.p)) ∧
    (∀ (o : IOp) (x : SVal), s.AIs o.a.toNat x → ∃ t, exec (.lea h o) s = .next t ∧
      s.WritesA t h o.d.toNat 1
        (result1 (fun v => v + (if h.ext then o.imm32.signExtend 64 else o.imm8.signExtend 64)) x)) ∧
    (∀ (o : TOp) (x : SVal), s.SIs o.a.toNat x → ∃ t, exec (.amovAS h o) s = .next t ∧ s.WritesA t h o.d.toNat 1 x) ∧
    (∀ (o : TOp) (x : SVal), s.AIs o.a.toNat x → ∃ t, exec (.amovSA h o) s = .next t ∧ s.WritesS t h o.d.toNat 1 x) ∧
    (∀ (o : TOp) (x : SVal), s.AIs o.a.toNat x → ∃ t, exec (.amovAA h o) s = .next t ∧ s.WritesA t h o.d.toNat 1 x)

/-- Immediate forms, constants, bit fields, sel, lea and amov write their one register (R75, R76, R80, R83, R84, R85). -/
def Obligations.ImmediateAndMoveResults : Prop := Claims.ImmediateResults ∧ Claims.MoveAndFieldResults


/-- R81, R82: with the divider free, a division by a divisor that is not a clean zero writes the quotient or remainder and
occupies the divider for its latency. -/
def Sys2Proof.Claims.DivisionQuotients : Prop :=
  ∀ e ∈ divisions, ∀ (h : Hdr) (o : TOp) (s : State) (x y : SVal),
    s.Fires h → s.SIs o.a.toNat x → s.SIs o.b.toNat y → s.cur.divBusy ≤ s.latch.ic →
    (y.v ≠ 0 ∨ y.p ≠ 0) →
    ∃ t v, exec (e.1 h o) s = .next t ∧ v.p = (x.p ||| y.p) ∧ (y.v ≠ 0 → v.v = e.2.2 x.v y.v) ∧
      let lat := divLatency e.2.1 x.v y.v
      s.Becomes t { s.cur with
        sa := if o.d.toNat = 0 then s.cur.sa
              else s.cur.sa.add { s.result o.d.toNat lat v with lock := true },
        divBusy := s.latch.ic + lat,
        arrP := s.cur.arrP ++ s.arrival h lat (if o.d.toNat = 0 then s.uid else s.uid + 1) }

/-- R82: a clean zero divisor raises `DIV_ZERO` at the bundle, and nothing else happens. -/
def Sys2Proof.Claims.DivisionByZeroTraps : Prop :=
  ∀ e ∈ divisions, ∀ (h : Hdr) (o : TOp) (s : State) (x : SVal),
    s.Fires h → s.SIs o.a.toNat x → s.SIs o.b.toNat (clean 0) → s.cur.divBusy ≤ s.latch.ic →
    ∃ r : TrapRec, r.code = .divZero ∧ r.deferred = false ∧ r.ba = s.latch.ba ∧ r.info0 = x.v ∧
      exec (e.1 h o) s = .next (s.stat (.trap r))

/-- Divisions: quotient or remainder, the busy divider, and DIV_ZERO (R75, R76, R81, R82). -/
def Obligations.DivisionResults : Prop := Claims.DivisionQuotients ∧ Claims.DivisionByZeroTraps


/-- R114, R115: a guard operation on known sources writes GD known, two counts on. -/
def Obligations.GuardResults : Prop :=
  ∀ (h : Hdr) (o : TOp) (s : State) (old : Bool), s.Fires h → s.latch.stat = .go →
    s.cur.gAt o.gd s.latch.ic = .res old →
    (∀ x y : Word, s.GcmpReads o.a.toNat x → s.GcmpReads o.b.toNat y →
      (∃ t, exec (.gcmp h o) s = .next t ∧ s.WritesG t o.gd
        (if o.sub = 0 then x = y else if o.sub = 1 then x ≠ y else if o.sub = 2 then x.toInt < y.toInt else x < y)) ∧
      (∃ t, exec (.gcmpLe h o) s = .next t ∧ s.WritesG t o.gd
        (if o.sub = 0 then x.toInt ≤ y.toInt else x ≤ y))) ∧
    (∀ a b : Bool, s.cur.gAt (o.a.toNat % 16) s.latch.ic = .res a → s.cur.gAt (o.b.toNat % 16) s.latch.ic = .res b →
      (∃ t, exec (.gand h o) s = .next t ∧ s.WritesG t o.gd ((a != o.a.getLsbD 4) && (b != o.b.getLsbD 4))) ∧
      (∃ t, exec (.gor h o) s = .next t ∧ s.WritesG t o.gd ((a != o.a.getLsbD 4) || (b != o.b.getLsbD 4)))) ∧
    (∀ a : Bool, s.cur.gAt (o.a.toNat % 16) s.latch.ic = .res a →
      ∃ t, exec (.gnot h o) s = .next t ∧ s.WritesG t o.gd !(a != o.a.getLsbD 4))

namespace Sys2Proof.Claims

/-! ### The C slot -/

/-- A displacement in halfwords of a transfer at the bundle being run (R89, R91). -/
def targetOf (s : State) (h : Hdr) (o : CBOp) : Nat :=
  (BitVec.ofNat 64 s.latch.ba + 2 * (if h.ext then o.imm32.signExtend 64 else o.disp.signExtend 64)).toNat

/-- Fetch is to continue at `tgt` after `cost` fetch cycles (R91, R92); only member 0 of a fused machine decides it (R100). -/
def goingTo (s : State) (tgt cost : Nat) (c : Ctx) : Ctx :=
  if s.isLead then { c with go := some tgt, took := true, cost := cost } else c

/-- A context with the link of its bundle on its way to S[r] (R91). -/
def linked (s : State) (r : Nat) : Ctx :=
  { s.cur with sa := if r = 0 then s.cur.sa else s.cur.sa.add (s.result r 1 (clean (BitVec.ofNat 64 s.latch.next))) }

/-- The first 128 bytes of each successor of a call's target, at most three lines of each, are in the cache, where they may be fetched
and the cache has room (R109). -/
def fetched (s t : State) (tgt : Nat) : Prop :=
  (s.core (coreOf s.latch.n)).lines.length + 12 ≤ cacheLines →
    ∀ x ∈ s.successors s.latch.n tgt, ∀ va ∈ [x, x + 64], s.cur.canFetch (va - va % 64) = true →
      (s.fetchHome s.latch.n (va - va % 64)).isSome = true →
      ∃ bs, (lineKey s.cur.asid va, bs) ∈ (t.core (coreOf s.latch.n)).lines

/-- A context with one scalar result more, of a C-slot operation. -/
def given (s : State) (r lat : Nat) (v : SVal) : Ctx :=
  { s.cur with sa := if r = 0 then s.cur.sa else s.cur.sa.add (s.result r lat v) }

end Sys2Proof.Claims

open Sys2Proof.Claims

/-- R91, R92, R109: a transfer whose guard passes writes its link and continues fetch at its target; a call prefetches the
successors of its target. -/
def Sys2Proof.Claims.TransferTargets : Prop :=
  ∀ (h : Hdr) (s : State), s.Passes h →
    (∀ o : CBOp, ∃ t, exec (.br h o) s = .next t ∧ s.Becomes t (goingTo s (targetOf s h o) 1 s.cur)) ∧
    (∀ o : CBOp, ∃ t, exec (.call h o) s = .next t ∧ s.BecomesCached t (goingTo s (targetOf s h o) 1 (linked s 63)) ∧
      fetched s t (targetOf s h o)) ∧
    (∀ (o : CROp) (x : Word), s.SIs o.a.toNat (clean x) →
      (∃ t, exec (.bri h o) s = .next t ∧ s.Becomes t (goingTo s x.toNat 3 s.cur)) ∧
      (∃ t, exec (.calli h o) s = .next t ∧ s.BecomesCached t (goingTo s x.toNat 3 (linked s o.d.toNat)) ∧
        fetched s t x.toNat) ∧
      (∃ t, exec (.ret h o) s = .next t ∧ s.Becomes t (goingTo s x.toNat 3 s.cur)))

/-- R91, R353: a poisoned target or link source raises `POISON` at the transfer's bundle. -/
def Sys2Proof.Claims.PoisonedTargetTraps : Prop :=
  ∀ (h : Hdr) (s : State) (o : CROp) (x : SVal), s.Passes h → s.SIs o.a.toNat x → x.p = 1 → x.f = none →
    ∃ r : TrapRec, r.code = .poison ∧ r.deferred = false ∧ r.ba = s.latch.ba ∧
      s.Raises h (exec (.bri h o) s) r ∧ s.Raises h (exec (.calli h o) s) r ∧ s.Raises h (exec (.ret h o) s) r

/-- Transfers write their link and continue fetch at their target; a poisoned target traps (R89, R91, R92, R353). -/
def Obligations.TransfersTaken : Prop := Claims.TransferTargets ∧ Claims.PoisonedTargetTraps


/-- R93: a loop operation of member 0 pushes a level when its group ends; a count of 0 skips the body; a seventh level
traps. -/
def Sys2Proof.Claims.LoopsPushed : Prop :=
  ∀ (h : Hdr) (s : State) (o : CLOp) (c : Word), s.Passes h → s.isLead = true →
    (∀ l, s.cur.loops.head? = some l → l.stop ≠ s.cur.gnext) →
    ∀ (i : Instr) (len : Nat),
      ((i = .loop h o ∧ c = (if h.ext then o.imm32.setWidth 64 else o.n.setWidth 64) ∧ len = o.len.toNat) ∨
       (i = .loopv h o ∧ s.SIs o.n.toNat (clean c) ∧ len = (if h.ext then o.imm32.toNat else o.len.toNat))) →
    (c = 0 → ∃ t, exec i s = .next t ∧ s.Becomes t (goingTo s (s.cur.gnext + 2 * len) 1 s.cur)) ∧
    (c ≠ 0 → s.cur.loops.length + s.cur.push.length < 6 → ∃ t, exec i s = .next t ∧
      s.Becomes t { s.cur with
        push := { index := 0, count := c, start := s.cur.gnext, stop := s.cur.gnext + 2 * len } :: s.cur.push }) ∧
    (c ≠ 0 → 6 ≤ s.cur.loops.length + s.cur.push.length →
      ∃ r : TrapRec, r.code = .loopDepth ∧ r.ba = s.latch.ba ∧ s.Raises h (exec i s) r)

/-- R94, R95: `brk k` and `next k` on a stack that holds k levels, and on one that does not. That a `brk` taken costs 1 fetch cycle is the
model's choice: R92 lists no cost for it (log 81, DESIGN CHOICE). -/
def Sys2Proof.Claims.LoopsLeft : Prop :=
  ∀ (h : Hdr) (s : State) (o : CIOp), s.Passes h → s.isLead = true → 1 ≤ o.val h % 8 →
    let k := o.val h % 8
    (s.cur.loops.length < k → ∃ r : TrapRec, r.code = .loopDepth ∧ r.ba = s.latch.ba ∧
      s.Raises h (exec (.brk h o) s) r ∧ s.Raises h (exec (.next h o) s) r) ∧
    (∀ l rest, s.cur.loops.drop (k - 1) = l :: rest →
      (∃ t, exec (.brk h o) s = .next t ∧ s.Becomes t (goingTo s l.stop 1 { s.cur with loops := rest })) ∧
      (∃ t, exec (.next h o) s = .next t ∧ t.mem = s.mem ∧ t.cur.sa = s.cur.sa ∧ t.cur.v = s.cur.v ∧ t.cur.took = true ∧
        t.cur.sticky = [] ∧
        (l.index + 1 < l.count → t.cur.go = some l.start ∧ ∃ l', t.cur.loops = l' :: rest ∧ l'.index = l.index + 1 ∧
          l'.count = l.count ∧ l'.start = l.start ∧ l'.stop = l.stop) ∧
        (¬ l.index + 1 < l.count → (∀ m, rest.head? = some m → m.stop ≠ l.stop) →
          t.cur.go = some l.stop ∧ t.cur.loops = rest)))

/-- Loop operations push levels; brk and next leave them (R93, R94, R95; the cost of brk is the model's, log 81). -/
def Obligations.LoopsPushedAndLeft : Prop := Claims.LoopsPushed ∧ Claims.LoopsLeft


/-- R96: `lidx` and `lidx.c` deliver the index and the count of a level, as it stands, with latency 1; a level at or above the
current depth raises `LOOP_DEPTH`. -/
def Obligations.LoopIndexResults : Prop :=
  ∀ (h : Hdr) (s : State) (o : CIOp), s.Fires h →
    let k := o.val h % 8
    (∀ l : Level, s.seqC.loops[k]? = some l →
      (∃ t, exec (.lidx h o) s = .next t ∧ s.Becomes t (given s o.d.toNat 1 (clean l.index))) ∧
      (∃ t, exec (.lidxC h o) s = .next t ∧ s.Becomes t (given s o.d.toNat 1 (clean l.count)))) ∧
    (s.seqC.loops.length ≤ k → ∃ r : TrapRec, r.code = .loopDepth ∧ r.deferred = false ∧ r.ba = s.latch.ba ∧
      exec (.lidx h o) s = .next (s.stat (.trap r)) ∧ exec (.lidxC h o) s = .next (s.stat (.trap r)))

/-- R104: `mark` copies the registers into the shadow with the next bundle's address and leaves no store in the larder.
R110: `halt` retires every member; that it only asks for this, so that the rest of its bundle comes first, is the model's reading
(log 82, DEDUCED). -/
def Sys2Proof.Claims.MarkAndHalt : Prop :=
  ∀ (h : Hdr) (s : State) (o : CROp), s.Passes h →
    (s.cur.quiet s.latch.ic = true → s.cur.spills = false → s.cur.larderOff = false → ∃ t z, exec (.mark h o) s = .next t ∧ t.cur.shadow = some z ∧
      z.regs = s.cur.toRegs ∧ z.addr = s.latch.next ∧ t.cur.toRegs = s.cur.toRegs ∧
      (∀ e ∈ t.cur.larder, e.isStore = false) ∧ ∀ e ∈ s.cur.larder, e.isStore = false → e.dead = false → e ∈ t.cur.larder) ∧
    ((∀ m ∈ s.members, (s.ctx m).opens = [] ∧ (s.ctx m).spills = false ∧ (s.ctx m).larderOff = false ∧
        ∀ e ∈ (s.ctx m).larder, e.dead = true ∨ e.isStore = true) →
      exec (.halt h o) s = .next (s.onCtx s.seqN (fun c => { c with quits := true }))) ∧
    (∀ m ∈ s.members, ((s.retireAll s.members).ctx m).mode = .halted ∧ ((s.retireAll s.members).ctx m).sa.pend = [] ∧
      ((s.retireAll s.members).ctx m).larder = [])

/-- R106: a `ppt` passes, or with a pre-emption pending waits for its point. A point that passes restarts the watchdog, and takes the
context out when a pre-emption is pending; that it is judged as its bundle ends is the model's reading (log 103, DEDUCED). -/
def Sys2Proof.Claims.PreemptionPoint : Prop :=
  (∀ (h : Hdr) (s : State) (o : CROp), s.Passes h → s.cur.fuseW ≤ 1 →
    (s.cur.pend = false ∨ (s.cur.atPoint = true ∧ s.short s.latch.n = []) →
      ∃ t, exec (.ppt h o) s = .next t ∧ s.Becomes t { s.cur with pointed := true }) ∧
    (s.cur.atPoint = false → s.cur.pend = true → s.cur.carry.active = false → exec (.ppt h o) s = .next (s.stat (.stall [])))) ∧
  ∀ (s : State) (n : Nat), let c := s.ctx n
    c.pointed = true → c.fuseW ≤ 1 →
    (c.atPoint = true → s.short n = [] → (s.passPoint n).ctx n = { c with pointed := false, wdogC := 0, swOut := c.pend }) ∧
    (c.atPoint = false → (s.passPoint n).ctx n = { c with pointed := false }) ∧
    ∀ m, m ≠ n → (s.passPoint n).ctx m = s.ctx m

/-- mark snapshots the registers, halt retires every member, ppt is a pre-emption point (R104, R106, R110, R357). -/
def Obligations.MarksAndEnds : Prop := Claims.MarkAndHalt ∧ Claims.PreemptionPoint


/-- R100 to R103: `fuse`, `decouple` and `rejoin` once their group lets them pass, where they wait, and where they trap (R101). That the
array's goal becomes FEN at the `fuse` is the model's reading of R200 (log 86, DEDUCED). -/
def Obligations.Fusion : Prop :=
  ∀ (h : Hdr) (s : State), s.Passes h →
    (∀ (o : CIOp) (w : Nat) (i : Instr), ((i = .fuse2 h o ∧ w = 2) ∨ (i = .fuse4 h o ∧ w = 4)) →
      (s.latch.n % 2 = 1 ∨ 1 < s.cur.fuseW → ∃ r : TrapRec, r.code = .fuseState ∧ s.Raises h (exec i s) r) ∧
      (s.latch.n % 2 = 0 → s.cur.fuseW ≤ 1 →
        (s.cur.pass = true → ∃ t, exec i s = .next t ∧ t = { s with ctxs := t.ctxs, arrays := t.arrays } ∧
          t.cur = { s.cur with fuseW := w, fuse0 := 2 * (coreOf s.latch.n - coreOf s.latch.n % w), pass := false } ∧
          (∀ m, m ≠ s.latch.n → t.ctx m = s.ctx m) ∧
          let ar := arrayOf (coreOf s.latch.n)
          t.arr ar = { s.arr ar with goal := (s.arr ar).fen } ∧ ∀ a, a ≠ ar → t.arr a = s.arr a) ∧
        (s.cur.pass = false → exec i s = .next (s.stat (.waitAt (.fuse w)))))) ∧
    (∀ o : CROp,
      (s.cur.fuseW ≤ 1 → ∃ r : TrapRec, r.code = .fuseState ∧ s.Raises h (exec (.decouple h o) s) r) ∧
      (1 < s.cur.fuseW → ∃ t, exec (.decouple h o) s = .next t ∧ (t.ctx s.cur.fuse0).parting = true ∧
        (∀ m, m ≠ s.cur.fuse0 → t.ctx m = s.ctx m) ∧ t = { s with ctxs := t.ctxs })) ∧
    (∀ (o : CROp) (w : Nat) (i : Instr), ((i = .rejoin2 h o ∧ w = 2) ∨ (i = .rejoin4 h o ∧ w = 4)) →
      (1 < s.cur.fuseW → ∃ r : TrapRec, r.code = .fuseState ∧ s.Raises h (exec i s) r) ∧
      (s.cur.fuseW ≤ 1 →
        (s.cur.pass = true → ∃ t, exec i s = .next t ∧ s.Becomes t { s.cur with pass := false }) ∧
        (s.cur.pass = false → exec i s = .next (s.stat (.waitAt (.rejoin w))))))

/-- R124, R122: `gres` and `gres all` go on once their guards are resolved, and stall before; `gcol` collapses an open guard in a context that keeps marks. -/
def Obligations.GuardWaits : Prop :=
  ∀ (h : Hdr) (s : State) (o : CROp), s.Passes h →
    let r := o.a.toNat % 16
    (∀ b, s.cur.gAt r s.latch.ic = .res b → exec (.gres h o) s = .next s ∧
      (exec (.gcol h o) s = .next s ∧ exec (.gcolT h o) s = .next s ∧ exec (.gcolF h o) s = .next s)) ∧
    ((∀ q, 1 ≤ q → q ≤ 15 → ∃ b, s.cur.gAt q s.latch.ic = .res b) → exec (.gresAll h o) s = .next s) ∧
    (∀ q id, 1 ≤ q → q ≤ 15 → s.cur.gAt q s.latch.ic = .opn id → exec (.gresAll h o) s = .next (s.stat (.stall []))) ∧
    (∀ id g, s.cur.gAt r s.latch.ic = .opn id → s.cur.open? id = some g →
      exec (.gres h o) s = .next (s.stat (.stall [])) ∧
      (s.cur.keepsMarks = true → g.pred = none →
        (∃ t, exec (.gcol h o) s = .next t ∧ s.Becomes t (s.cur.collapse id (s.cur.hinted g))) ∧
        (∃ t, exec (.gcolT h o) s = .next t ∧ s.Becomes t (s.cur.collapse id true)) ∧
        (∃ t, exec (.gcolF h o) s = .next t ∧ s.Becomes t (s.cur.collapse id false))))

/-- R107 to R109: the instruction cache. A lock of bytes within one line that can be fetched, and of none; an unlock; a
prefetch, which changes nothing but cached lines. That S[d] counts the bytes of the range, not 64 for its line, is the model's choice
(log 109, DEDUCED), and so is a fetch through the marks of a moved tile (log 113, DEDUCED). -/
def Obligations.InstructionCache : Prop :=
  ∀ (h : Hdr) (s : State),
    (∀ (o : CROp) (a b : Word), s.Settled h → s.SIs o.a.toNat (clean a) → s.SIs o.b.toNat (clean b) →
      let k := coreOf s.latch.n
      (b = 0 → ∃ t, exec (.ilock h o) s = .next t ∧ s.Becomes t { given s o.d.toNat 2 (clean 0) with
        gpend := if h.ext = true ∧ o.imm32.toNat % 16 ≠ 0
          then laterIns ⟨o.imm32.toNat % 16, s.latch.ic + 2, .res true, s.readyAt 2⟩ s.cur.gpend else s.cur.gpend }) ∧
      (0 < b.toNat → a.toNat % 64 + b.toNat ≤ 64 → (s.fetchHome s.latch.n (a.toNat - a.toNat % 64)).isSome = true →
        (s.core k).lockedLines < 2048 →
        ∃ t, exec (.ilock h o) s = .next t ∧ t.mem = s.mem ∧
          (s.latch.n, lineKey s.cur.asid (a.toNat - a.toNat % 64)) ∈ (t.core k).locks ∧
          t.cur.sa = (given s o.d.toNat 2 (clean b)).sa) ∧
      (∃ t, exec (.iunlock h o) s = .next t ∧ (∀ m, t.ctx m = s.ctx m) ∧ t.mem = s.mem ∧
        ∀ l, l ∈ (t.core k).locks ↔ l ∈ (s.core k).locks ∧
          ¬ (l.1 = s.latch.n ∧ l.2 / 2 ^ 48 = s.cur.asid.toNat ∧ b ≠ 0 ∧ l.2 % 2 ^ 48 < a.toNat + b.toNat ∧
             a.toNat < l.2 % 2 ^ 48 + 64))) ∧
    (∀ o : CBOp, s.Fires h → ∃ t, exec (.pfn h o) s = .next t ∧ t = { s with cores := t.cores, picks := t.picks } ∧
      ∀ k, t.core k = { s.core k with lines := (t.core k).lines })

namespace Sys2Proof.Claims

/-! ### Barriers, comparators, special registers -/

/-- The context after its status guard `g` is to become `b`, two counts on; `g0` names none (R89). -/
def status (s : State) (g : Nat) (b : Bool) (c : Ctx) : Ctx :=
  if g = 0 then c else { c with gpend := laterIns ⟨g, s.latch.ic + 2, .res b, s.readyAt 2⟩ c.gpend }

/-- An arrival at a barrier of the context's cluster, in two cycles (R252). -/
def arrivalAt (s : State) (bar slot : Nat) (set : Option (BitVec 16 × Bool)) : BarIn :=
  { cluster := clusterOf s.latch.n, bar := bar, at' := s.cycle + 2, core := coreOf s.latch.n, b := s.latch.n % 2 == 1,
    slot := slot, ba := s.latch.ba, set := set }

/-- The registers of wider scope than a context (R341): written in the next cycle. -/
def wideRegister (num : Nat) : Prop := 0x040 ≤ num

/-- `fmt`'s selectors 1 to 8: the place and the width of the field (R66, R69). -/
def formatField (d : Nat) : Nat × Nat := if d = 8 then (30, 2) else (4 * (d - 1), 4)

end Sys2Proof.Claims

open Sys2Proof.Claims

/-- R70, R71: an `fmt` changes `FMT` exactly four counts on, by the whole image or by its one field, and nothing before. -/
def Obligations.FormatWrites : Prop :=
  ∀ (h : Hdr) (s : State) (o : CIOp), s.Settled h → s.cur.fmtPend = [] → o.d.toNat ≤ 8 →
    ∃ t, exec (.fmt h o) s = .next t ∧ s.Becomes t { s.cur with fmtPend := t.cur.fmtPend } ∧
      (∀ k, k < s.latch.ic + 4 → t.cur.fmtAt k = s.cur.fmt) ∧
      (∀ k, s.latch.ic + 4 ≤ k →
        (o.d = 0 → t.cur.fmtAt k = BitVec.ofNat 32 (o.val h)) ∧
        (1 ≤ o.d.toNat → ∀ i, i < 32 →
          let f := formatField o.d.toNat
          (t.cur.fmtAt k).getLsbD i =
            if f.1 ≤ i ∧ i < f.1 + f.2 then (o.val h).testBit (i - f.1) else s.cur.fmt.getLsbD i))

/-- R247: `wset` of an owned comparator: a length of 0 disarms it; a range within the scratchpad whose every page of 64 KiB translates
through one KIND 1 entry arms it from the next cycle; a comparator of the other context, and a range that does not fit, raise
`WAKE_PLACE`. -/
def Sys2Proof.Claims.WakeArmed : Prop :=
  ∀ (h : Hdr) (s : State) (o : CROp) (a b : Word), s.Fires h → s.SIs o.a.toNat (clean a) → s.SIs o.b.toNat (clean b) →
    let k := coreOf s.latch.n
    let w := o.d.toNat
    ((s.core k).owns s.latch.n w = false →
      ∃ r : TrapRec, r.code = .wakePlace ∧ exec (.wset h o) s = .next (s.stat (.trap r))) ∧
    ((s.core k).owns s.latch.n w = true → b = 0 →
      exec (.wset h o) s = .next (s.onCore k (fun d => { d with wakeP := d.wakeP ++ [(w, ⟨false, s.latch.n, 0, 0⟩)] }))) ∧
    (∀ e, (s.core k).owns s.latch.n w = true → b ≠ 0 → tLookup s.cur.table.core a.toNat = some e → e.p = true → e.kind = 1 →
      let off := e.tbase + (a.toNat - e.vbase)
      let page := fun (p : Nat) => a.toNat / 65536 ≤ p ∧ p ≤ (a.toNat + b.toNat - 1) / 65536
      ((∀ p, page p → tLookup s.cur.table.core (p * 65536) = some e) → a.toNat + b.toNat ≤ e.vbase + 2 ^ e.lsz →
        off + b.toNat ≤ scratchBytes (s.core k) →
        exec (.wset h o) s = .next (s.onCore k (fun d => { d with wakeP := d.wakeP ++ [(w, ⟨true, s.latch.n, off, off + b.toNat⟩)] }))) ∧
      ((∃ p, page p ∧ tLookup s.cur.table.core (p * 65536) ≠ some e) ∨ e.vbase + 2 ^ e.lsz < a.toNat + b.toNat ∨
          scratchBytes (s.core k) < off + b.toNat →
        ∃ r : TrapRec, r.code = .wakePlace ∧ exec (.wset h o) s = .next (s.stat (.trap r))))

/-- R249: a token is popped and delivered; without one `wait` waits and `wait.nb` delivers −1. -/
def Sys2Proof.Claims.TokensTaken : Prop :=
  ∀ (h : Hdr) (s : State) (o : CROp), s.Passes h →
    (∀ w, s.token = some w → ∀ i, (i = .wait h o ∨ i = .waitNb h o) → ∃ t, exec i s = .next t ∧
      t.cur = given s o.d.toNat 1 (clean (BitVec.ofNat 64 w)) ∧ t.mem = s.mem ∧
      (t.core (coreOf s.latch.n)).tokens = (s.core (coreOf s.latch.n)).tokens.filter (fun x => x ≠ w)) ∧
    (s.token = none → exec (.wait h o) s = .next (s.stat .wait) ∧
      ∃ t, exec (.waitNb h o) s = .next t ∧ s.Becomes t (given s o.d.toNat 1 (clean (-1))))

/-- wset arms or disarms a comparator; wait and wait.nb take a token (R247, R248, R249). -/
def Obligations.WakeTokens : Prop := Claims.WakeArmed ∧ Claims.TokensTaken


/-- The context is a member of 1 or more of a carry round, whose acceptance literal `id` is open (R310). -/
def Sys2Proof.Claims.unaccepted (s : State) (id : Nat) : Prop := s.cur.carryTag = [⟨id, true⟩]

/-- R252, R253, R256: an arrival, and a `bset` of a nonzero count, reach their barrier in two cycles; 0 is fatal. That a `bset` of an
unaccepted member waits is the model's choice (log 110, DEDUCED). -/
def Sys2Proof.Claims.BarrierArrivals : Prop :=
  ∀ (h : Hdr) (s : State),
    (∀ o : CIOp, s.Fires h → exec (.arrive h o) s = .next { s with
      barIn := s.barIn ++ [arrivalAt s (o.val h % 16) s.latch.slot none] }) ∧
    (∀ (o : CROp) (x : Word), s.Settled h → s.SIs o.a.toNat (clean x) →
      ∀ i strict, ((i = .bset h o ∧ strict = false) ∨ (i = .bsetS h o ∧ strict = true)) →
      (∀ id, unaccepted s id → exec i s = .next (s.stat (.stall [id]))) ∧
      (s.cur.carryTag = [] → x.toNat % 2 ^ 16 ≠ 0 → exec i s = .next { s with
        barIn := s.barIn ++ [arrivalAt s (o.b.toNat % 16) 0 (some (x.setWidth 16, strict))] }) ∧
      (s.cur.carryTag = [] → x.toNat % 2 ^ 16 = 0 → ∃ r : TrapRec, r.code = .barrierArgs ∧ exec i s = .next (s.stat (.trap r))))

/-- R252, R256: what one cycle does to a barrier without a `bset`: arrivals count, and the phase completes when they reach
EXP. -/
def Sys2Proof.Claims.BarrierCompletes : Prop :=
  ∀ (b : Barrier) (cyc : Nat) (ins : List BarIn), (∀ x ∈ ins, x.set = none) →
    let z := (b.step cyc ins).1
    z.exp = b.exp ∧ z.str = b.str ∧
    (b.exp.toNat ≤ b.cnt + ins.length →
      z.ph = b.ph + 1 ∧ z.cnt = b.cnt + ins.length - b.exp.toNat ∧ z.seen = false ∧
      z.ov = (b.ov || (b.str && !b.seen))) ∧
    (b.cnt + ins.length < b.exp.toNat →
      z.ph = b.ph ∧ z.cnt = b.cnt + ins.length ∧ z.seen = b.seen ∧ z.ov = b.ov)

/-- R254: `bwait` by the distance of the phase from its token. That one of an unaccepted member waits for the literal is the model's
choice (log 110, DEDUCED). -/
def Sys2Proof.Claims.BarrierWaits : Prop :=
  ∀ (h : Hdr) (s : State) (o : CROp),
    let cl := clusterOf s.latch.n
    let bar := o.b.toNat % 16
    let b := s.barrier cl bar
    let ph := b.shown s.cycle
    let sees := { b with seen := b.seen || ph == b.ph }
    ∀ x : Word, s.Passes h → s.SIs o.d.toNat (clean x) →
      let delta := (ph - x.setWidth 16).toNat
      (∀ id, unaccepted s id → exec (.bwait h o) s = .next (s.stat (.stall [id]))) ∧
      (s.cur.carryTag = [] → delta = 0 ∨ 2 ^ 15 ≤ delta → exec (.bwait h o) s = .next (s.stat .wait)) ∧
      (s.cur.carryTag = [] → 0 < delta → delta < 2 ^ 15 → ∃ t, exec (.bwait h o) s = .next t ∧ t.barrier cl bar = sees ∧ t.mem = s.mem ∧
        t.cur = status s (if h.ext then o.imm32.toNat % 16 else 0) (decide (2 ≤ delta))
          (given s o.d.toNat 1 (clean (ph.setWidth 64))))

/-- Arrivals and bset reach a barrier in two cycles; phases complete; bwait (R252, R253, R254, R256). -/
def Obligations.BarrierInputs : Prop := Claims.BarrierArrivals ∧ Claims.BarrierCompletes ∧ Claims.BarrierWaits


/-- R252, R255: the fields that `bphase` delivers with latency 2, with the completions of the last two cycles not seen yet, and
when it sets SEEN. That one of an unaccepted member waits for the literal is the model's choice (log 110, DEDUCED). -/
def Obligations.BarrierPhaseRead : Prop :=
  ∀ (h : Hdr) (s : State) (o : CROp), s.Settled h →
    let cl := clusterOf s.latch.n
    let bar := o.b.toNat % 16
    let b := s.barrier cl bar
    let ph := b.shown s.cycle
    let hid := b.hidden s.cycle
    (∀ id, unaccepted s id → exec (.bphase h o) s = .next (s.stat (.stall [id]))) ∧
    (s.cur.carryTag = [] → ∃ t v, exec (.bphase h o) s = .next t ∧ t.barrier cl bar = { b with seen := b.seen || ph == b.ph } ∧ t.mem = s.mem ∧
      t.cur = given s o.d.toNat 2 (clean v) ∧ v.extractLsb' 0 16 = ph ∧
      v.extractLsb' 16 16 = BitVec.ofNat 16 (min (b.cnt + (hid.map BarDone.took).sum) 0xFFFF) ∧ v.extractLsb' 32 16 = b.exp ∧
      v.getLsbD 48 = b.str ∧ (v.getLsbD 49 = true ↔ b.ov = true ∧ ∀ d ∈ hid, d.ovr = false) ∧ v.extractLsb' 50 14 = 0)

/-- R125, R169, R259, R356: `sstep` and `invq` wait for the others, and go on once they are let pass; `sstep` waits for its guard, which
a policy may collapse, and is a fence of every kind and scope chip for what has yet to perform as it goes on. -/
def Obligations.GroupWaits : Prop :=
  ∀ (h : Hdr) (s : State) (o : CROp),
    (∀ id, id ∈ s.cur.ownOpen h s.latch.ic → id ∈ s.cur.collapsible → exec (.sstep h o) s = .next (s.stat (.stall [id]))) ∧
    (s.Passes h → s.cur.pass = true → s.cur.outsOf 0x1F 2 = [] → s.cur.heldOf 0x1F 2 = [] →
      ∃ t, exec (.sstep h o) s = .next t ∧ s.Becomes t { s.cur with pass := false }) ∧
    (s.Passes h → s.cur.pass = true → s.cur.carry.active = false → s.cur.outsOf 0x1F 2 ++ s.cur.heldOf 0x1F 2 ≠ [] →
      ∃ t, exec (.sstep h o) s = .next t ∧ s.Becomes t { s.cur with
        pass := false, fences := s.cur.fences ++ [{ seq := s.uid, members := s.cur.outsOf 0x1F 2 ++ s.cur.heldOf 0x1F 2, ak := 0x1F,
                                                    slot := s.latch.slot, ba := s.latch.ba }] }) ∧
    (s.Passes h → s.cur.pass = false → s.cur.carry.active = false → s.cur.keepsMarks = false → s.cur.larder = [] →
      exec (.sstep h o) s = .next (s.stat (.waitAt .sstep))) ∧
    (∀ d a b : Word, s.Settled h → s.SIs o.d.toNat (clean d) → s.SIs o.a.toNat (clean a) → s.SIs o.b.toNat (clean b) →
      ∀ i lvl, ((i = .invqC h o ∧ lvl = 0) ∨ (i = .invqE h o ∧ lvl = 1) ∨ (i = .invqN h o ∧ lvl = 2)) →
      (s.cur.pass = true → ∃ t, exec i s = .next t ∧ s.Becomes t { s.cur with pass := false }) ∧
      (s.cur.pass = false → s.cur.carry.active = false → s.cur.keepsMarks = false → s.cur.larder = [] → s.cur.outs = [] →
        exec i s = .next (s.stat (.waitAt (.invq (d.setWidth 16) a.toNat b.toNat lvl)))))

/-- R387: `spawn` of a node in device memory sends its activation, at the level that the context's privilege allows; a
misaligned address and one that is no KIND 4 address trap. -/
def Obligations.SpawnSends : Prop :=
  ∀ (h : Hdr) (s : State) (o : CROp) (x : Word), s.Fires h → s.SIs o.a.toNat (clean x) →
    (x.toNat % 64 ≠ 0 → ∃ r : TrapRec, r.code = .misaligned ∧ exec (.spawn h o) s = .next (s.stat (.trap r))) ∧
    (x.toNat % 64 = 0 → (tLookup s.cur.table.core x.toNat = none ∨
        ∃ e, tLookup s.cur.table.core x.toNat = some e ∧ e.p = true ∧ e.kind ≠ 4) →
      ∃ r : TrapRec, r.code = .untranslated ∧ exec (.spawn h o) s = .next (s.stat (.trap r))) ∧
    (∀ e, x.toNat % 64 = 0 → tLookup s.cur.table.core x.toNat = some e → e.p = true → e.kind = 4 →
      ∃ t a, exec (.spawn h o) s = .next t ∧ t = { s with outq := s.outq ++ [a], uid := s.uid + 1 } ∧
        a.kind = .activation ∧ a.n = s.latch.n ∧ a.home = e.tbase + (x.toNat - e.vbase) ∧
        a.x = BitVec.ofNat 64 (if s.cur.lvl then o.sub.toNat else min o.sub.toNat (s.prioOf s.latch.n)))

/-- R341, R4, R6: `csrr` delivers the register as it stands, latency 1, and clears its RC field, but for what the hardware has counted
there in this cycle. That one of an unaccepted member waits for the literal is the model's choice (log 110, DEDUCED). -/
def Sys2Proof.Claims.SpecialRegisterReads : Prop :=
  ∀ (h : Hdr) (s : State) (o : CIOp), s.Settled h →
    let num := (ciVal h o).toNat
    (∀ id, unaccepted s id → exec (.csrr h o) s = .next (s.stat (.stall [id]))) ∧
    (s.cur.carryTag = [] → ∃ t, exec (.csrr h o) s = .next t ∧ t.mem = s.mem ∧
      t.cur.sa = (given s o.d.toNat 1 (clean (s.csrRead s.latch.n num s.latch.ic))).sa ∧
      (num = 0x006 → t.cur.wrong = 0) ∧ (num = 0x00B → t.cur.lnks = s.cur.lnksNow) ∧ (num = 0x081 → t.mod.ovf = s.mod.ovfNow) ∧
      (num ≠ 0x006 → num ≠ 0x00B → num ≠ 0x081 →
        s.Becomes t (given s o.d.toNat 1 (clean (s.csrRead s.latch.n num s.latch.ic)))))

/-- R5, R7, R341: a clean legal write that sets no reserved bit is made at its time; one that sets a reserved bit is illegal
at either level, and a privileged register may not be written below it. -/
def Sys2Proof.Claims.SpecialRegisterWrites : Prop :=
  ∀ (h : Hdr) (s : State) (o : CIOp) (v : Word), s.Settled h → s.SIs o.d.toNat (clean v) →
    let num := (ciVal h o).toNat
    (v &&& csrReserved num ≠ 0 →
      ∃ r : TrapRec, r.code = .illegalEncoding ∧ exec (.csrw h o) s = .next (s.stat (.trap r))) ∧
    (v &&& csrReserved num = 0 → csrPriv num = true → s.cur.lvl = false →
      ∃ r : TrapRec, r.code = .privilege ∧ r.info1 = BitVec.ofNat 64 num ∧ exec (.csrw h o) s = .next (s.stat (.trap r))) ∧
    (v &&& csrReserved num = 0 → (csrPriv num = true → s.cur.lvl = true) → csrBad num v = false →
      ∃ t, exec (.csrw h o) s = .next t ∧ t.mem = s.mem ∧ t.cur.sa = s.cur.sa ∧ t.cur.v = s.cur.v ∧
        (num = 0x000 → t.cur.fmtPend = laterIns ⟨0, s.latch.ic + 4, (0xFFFFFFFF, v.setWidth 32), s.readyAt 4⟩ s.cur.fmtPend) ∧
        (num = 0x001 → t.cur.qlPend = laterIns ⟨0, s.latch.ic + 3, v.setWidth 9, s.readyAt 3⟩ s.cur.qlPend) ∧
        (num = 0x002 → t.cur.qlPend = laterIns ⟨1, s.latch.ic + 3, v.setWidth 9, s.readyAt 3⟩ s.cur.qlPend) ∧
        (3 ≤ num → num < 0x040 → t.cur.csrPend = csrIns (s.latch.ic + 1, num, v) s.cur.csrPend) ∧
        (wideRegister num → t = { s with csrLate := s.csrLate ++ [(s.latch.n, num, v)] }))

/-- R4, R6, R341: what a `csrw` that set no reserved bit leaves when it falls due: RW fields take the value, a W1C field is cleared
by a 1, and RO and RC fields stay. `b` is what stands without the write. -/
def Sys2Proof.Claims.SpecialRegisterDue : Prop :=
  ∀ (s : State) (n t num : Nat) (v : Word), let c := s.ctx n
    v &&& csrReserved num = 0 → c.csrPend = [(t, num, v)] → c.felPend = [] → c.npend = [] →
    let b := { c with csrPend := [] }.commit t
    let d := c.commit t
    let clears := fun (i : Nat) => v.getLsbD i
    (num = 0x003 → d = { b with fel := d.fel, felKey := d.felKey } ∧ ∀ i, i < 64 → d.fel.getLsbD i =
      if 58 ≤ i ∧ i < 63 then v.getLsbD i else c.fel.getLsbD i && !clears 63) ∧
    (num = 0x004 → d = if clears 63 && !c.hw.contains 0x004 then { b with soor := 0, soorx := 0 } else b) ∧
    (num = 0x006 → d = { b with altm := v.extractLsb' 0 2 }) ∧
    (num = 0x007 → d = { b with ilk := v.getLsbD 0 }) ∧
    (num = 0x00A → d = { b with nunit := { b.nunit with ovf := b.nunit.ovf && !clears 62 } }) ∧
    (num = 0x00D → d = { b with tvec := v }) ∧ (num = 0x00E → d = { b with tfa := v }) ∧
    (num = 0x010 → d = { b with lscs := v.extractLsb' 0 5 }) ∧
    (∀ i, i < 6 → num = 0x011 + i →
      d = if c.lscs.toNat ≤ 20 then { b with lsc := mput c.lsc (32 * i + c.lscs.toNat) v } else b) ∧
    (num = 0x018 → s.leadN n = n → (s.dogClear n t).ctx n = { c with ovr := c.ovr && (!clears 63 || c.hw.contains 0x018) } ∧ d = b) ∧
    (num = 0x01A → d = { b with dbg := d.dbg } ∧ ∀ i, i < 64 → d.dbg.getLsbD i = if 62 ≤ i then v.getLsbD i else c.dbg.getLsbD i) ∧
    (∀ i, i < 4 → num = 0x01B + i → d = { b with bka := mput c.bka i v }) ∧
    (∀ i, i < 2 → num = 0x01F + i → d = { b with wpt := mput c.wpt i v }) ∧
    (num ∈ [0x005, 0x008, 0x009, 0x00B, 0x00C, 0x00F, 0x017, 0x019] → d = b)

/-- R4, R6, R341: the same for the registers of a scope wider than a context, in the cycle after the issue. -/
def Sys2Proof.Claims.WideRegisterDue : Prop :=
  ∀ (s : State) (n num : Nat) (v : Word), v &&& csrReserved num = 0 →
    let t := s.wideWrites [(n, num, v)]
    let ar := arrayOf (coreOf n)
    let cl := coreOf n / 4
    let w := wingOf n
    (num = 0x045 → t = s.setArr ar { s.arr ar with fen := v.getLsbD 2 }) ∧
    (num = 0x060 → t = if v.getLsbD 63 then s.setCluster cl { s.cluster cl with bovr := 0 } else s) ∧
    (num = 0x082 → t = { s with todo := s.todo ++ [(.fbdMarkDone, { idx := v.toNat % 256 })] }) ∧
    (num = 0x083 → t = s.setWing w { s.wing w with tsb := v }) ∧
    (num = 0x084 → t = { s with todo := s.todo ++ [(.tscWrite, { n := n, v := v })] }) ∧
    (num = 0x086 → t = s.setWing w { s.wing w with tsl := v.setWidth 32 }) ∧
    (num ∈ [0x040, 0x041, 0x042, 0x043, 0x044, 0x080, 0x081, 0x085] → t = s)

/-- csrr delivers every special register; csrw is made at its time, or traps; and what it leaves when it is due (R4, R5, R6, R7, R338,
R339, R341). -/
def Obligations.SpecialRegisters : Prop :=
  Claims.SpecialRegisterReads ∧ Claims.SpecialRegisterWrites ∧ Claims.SpecialRegisterDue ∧ Claims.WideRegisterDue


/-- R359, R349, R350: `dstop` asks for a debug stop where debugging is enabled; `trap` raises `USER_TRAP` with its operand once
its group ends; `sret` outside a handler is illegal. That a `dstop` of an unaccepted member waits for the literal is the model's choice
(log 110, DEDUCED). -/
def Sys2Proof.Claims.StopAndTrap : Prop :=
  ∀ (h : Hdr) (s : State),
    (∀ (o : CROp) (id : Nat), s.Passes h → unaccepted s id → exec (.dstop h o) s = .next (s.stat (.stall [id]))) ∧
    (∀ o : CROp, s.Passes h → s.cur.carryTag = [] → ∃ t, exec (.dstop h o) s = .next t ∧
      let late := match s.cur.stopReq with
        | some (w, _) => decide (1 < w)
        | none => true
      s.Becomes t (if s.cur.dbg.getLsbD 63 && late then { s.cur with stopReq := some (1, 0) } else s.cur)) ∧
    (∀ o : CIOp, s.Fires h → ∃ t r, exec (.trap h o) s = .next t ∧ s.Becomes t { s.cur with ended := some r } ∧
      r.code = .userTrap ∧ r.info0 = BitVec.ofNat 64 (o.val h) ∧ r.info1 = 0 ∧ r.ba = s.latch.ba ∧ r.ra = s.latch.next ∧
      r.deferred = false) ∧
    (∀ o : CROp, s.Passes h → s.cur.inh = false →
      ∃ r : TrapRec, r.code = .illegalEncoding ∧ r.ba = s.latch.ba ∧ s.Raises h (exec (.sret h o) s) r)

/-- R350: `sret` in a handler delivers `s60` to `s63` from the frame, restores LVL, leaves the handler and continues at RA. -/
def Sys2Proof.Claims.ReturnFromHandler : Prop :=
  ∀ (h : Hdr) (s : State) (o : CROp) (e : TEntry), s.Passes h → s.cur.inh = true → s.isLead = true →
    tLookup s.cur.table.core s.cur.tfa.toNat = some e → e.p = true →
    let at' := (e.tgt (coreOf s.latch.n) s.cur.tfa.toNat).home
    let w := fun i => BitVec.ofNat 64 (leBytes (s.bytesAt (at' + i) 8))
    ∃ t, exec (.sret h o) s = .next t ∧ t.mem = s.mem ∧ t.cur.inh = false ∧ t.cur.lvl = (w 0).getLsbD 16 ∧
      t.cur.larderOff = false ∧ t.cur.go = some (w 16).toNat ∧ t.cur.loops = s.cur.loops ∧ t.cur.v = s.cur.v ∧
      (∀ r, r ∈ [60, 61, 62, 63] → ∃ x ∈ t.cur.sa.pend, x.dst = r ∧ x.due = s.latch.ic + 1 ∧
        ∃ a, x.alts = [a] ∧ a.val.v = w (64 + 8 * (r - 60)))

/-- dstop, trap and sret (R349, R350, R359). -/
def Obligations.StopsAndHandlers : Prop := Claims.StopAndTrap ∧ Claims.ReturnFromHandler


namespace Sys2Proof.Claims

/-! ### The L slot -/

/-- The post-step of an access moves its base, one count on (R140). -/
def stepped (s t : State) (o : MOp) (a : Word) : Prop :=
  o.step ≠ 0 → Coming t.cur.sa (aReg o.base.toNat) (s.latch.ic + 1) (clean (a + o.step.signExtend 64 * BitVec.ofNat 64 o.bytes))

/-- An access leaves its core: at a port in this cycle for own and peer scratch, else through the outbound queue (R144, R157). -/
def leaves (s t : State) (a : Acc) (place : Nat) : Prop :=
  (place ≤ 1 → t.outq = s.outq ∧ ∃ rank, t.portW = s.portW ++ [⟨rank, a, [], true⟩]) ∧
  (2 ≤ place → t.portW = s.portW ∧ t.outq = s.outq ++ [a])

/-- What an access is: whose, where, of what size. -/
def isAccess (s : State) (a : Acc) (kind : AccKind) (tg : Tgt) (n : Nat) : Prop :=
  a.n = s.latch.n ∧ a.kind = kind ∧ a.place = tg.place ∧ a.home = tg.home ∧ a.size = n

/-- The effective address of an access (R140). -/
def addressOf (o : MOp) (a : Word) : Word := a + o.off.signExtend 64 * BitVec.ofNat 64 o.bytes

/-- The latency of own and of peer scratch (R18). -/
def placeLatency (place : Nat) : Nat := if place = 0 then 4 else 12

/-- R240: the atomics by OPC order, with the new value at the home; `w` bits, read signed by `signed`. -/
def signed (w m : Nat) : Int := if 2 * m < 2 ^ w then (m : Int) else (m : Int) - 2 ^ w
def atomics : List ((Hdr → MOp → Instr) × Nat) :=
  [(.aadd, 0), (.aand, 1), (.aor, 2), (.axor, 3), (.amin, 4), (.amax, 5), (.aminu, 6), (.amaxu, 7), (.afadd, 8),
   (.axchg, 9), (.acas, 10)]
def newValue (aop w m x y : Nat) : Nat :=
  match aop with
  | 0 => (m + x) % 2 ^ w
  | 1 => m &&& x
  | 2 => m ||| x
  | 3 => m ^^^ x
  | 4 => if signed w m ≤ signed w x then m else x
  | 5 => if signed w m ≤ signed w x then x else m
  | 6 => min m x
  | 7 => max m x
  | 9 => x
  | _ => if m = x then y else m

end Sys2Proof.Claims

open Sys2Proof.Claims

/-- R138, R140: `ld`, `ldu` and `vld` whose access passes its checks complete: they deliver the bytes of their target after the
latency of their place, step their base, and leave memory and every other register alone. -/
def Obligations.FixedLoads : Prop :=
  ∀ (h : Hdr) (o : MOp) (s : State) (a : Word) (tg : Tgt), s.Fires h → s.Calm → s.BaseIs o.base.toNat (clean a) →
    accessCheck s.cur.table.core (coreOf s.latch.n) (addressOf o a) o.bytes true false = .inr tg →
    let d := o.d.toNat
    let due := s.latch.ic + placeLatency tg.place
    let bs := s.bytesAt tg.home o.bytes
    let bad := s.badAt tg.home o.bytes
    (∀ i sg, ((i = .ld h o ∧ sg = true) ∨ (i = .ldu h o ∧ sg = false)) →
      ∃ t, exec i s = .next t ∧ (d ≠ 0 → Coming t.cur.sa d due (bytesS sg bs bad)) ∧ stepped s t o a ∧
        s.KeepsS t [d, aReg o.base.toNat] ∧ (d = 0 → s.KeepsS t [aReg o.base.toNat]) ∧ (o.step = 0 → s.KeepsS t [d]) ∧
        t.cur.v = s.cur.v ∧ t.cur.g = s.cur.g ∧ t.cur.gpend = s.cur.gpend ∧
        s.KeepsBytes t ∧ t.portW = s.portW ∧ t.outq = s.outq) ∧
    (∃ t, exec (.vld h o) s = .next t ∧ Coming t.cur.v d due (bytesV bs bad) ∧ stepped s t o a ∧
      s.KeepsS t [aReg o.base.toNat] ∧ s.KeepsV t [d] ∧ (o.step = 0 → t.cur.sa = s.cur.sa) ∧ t.cur.g = s.cur.g ∧
      t.cur.gpend = s.cur.gpend ∧ s.KeepsBytes t ∧ t.portW = s.portW ∧ t.outq = s.outq)

/-- R138, R140, R144: `st` and `vst` of clean data send the low bytes of S[d] or V[d] to their home; until the store performs,
every byte reads as before. -/
def Sys2Proof.Claims.StoresSent : Prop :=
  ∀ (h : Hdr) (o : MOp) (s : State) (a : Word) (tg : Tgt), s.Fires h → s.Calm → s.BaseIs o.base.toNat (clean a) →
    accessCheck s.cur.table.core (coreOf s.latch.n) (addressOf o a) o.bytes false true = .inr tg →
    ∀ i (x : Nat), ((∃ v : Word, i = .st h o ∧ s.SIs o.d.toNat (clean v) ∧ x = v.toNat) ∨
      (∃ v : Vec, i = .vst h o ∧ s.VIs o.d.toNat (clean v) ∧ x = v.toNat)) →
    ∃ t acc, exec i s = .next t ∧ isAccess s acc .store tg o.bytes ∧ acc.data = toBytes x o.bytes ∧
      leaves s t acc tg.place ∧ stepped s t o a ∧ s.KeepsS t [aReg o.base.toNat] ∧ t.cur.v = s.cur.v ∧
      t.cur.g = s.cur.g ∧ t.cur.gpend = s.cur.gpend ∧ s.KeepsBytes t

/-- R144, R145, R146: a store that performs writes its bytes in range at its home, and no other byte of memory. -/
def Sys2Proof.Claims.StorePerforms : Prop :=
  ∀ (s : State) (a : Acc) (bad : List Bool), a.kind = .store → s.MemInv →
    let t := (s.performAt a bad).1
    (∀ k, k < a.home ∨ a.home + a.data.length ≤ k → t.mem.get k = s.mem.get k) ∧
    ∀ i (hi : i < a.data.length), (∀ j, j ≤ i → s.inRange (a.home + j) = true) → t.mem.get (a.home + i) = a.data[i]

/-- R151, R353: a store whose data is poisoned in a byte that it writes raises `POISON` at its bundle, or in a context that keeps marks is
held with that trap for its release; nothing is written. -/
def Sys2Proof.Claims.StoresOfPoison : Prop :=
  ∀ (h : Hdr) (o : MOp) (s : State) (a : Word) (tg : Tgt), s.Fires h → s.BaseIs o.base.toNat (clean a) →
    s.cur.larder = [] → s.cur.freed = [] → s.cur.fences = [] → s.cur.carry = {} →
    accessCheck s.cur.table.core (coreOf s.latch.n) (addressOf o a) o.bytes false true = .inr tg →
    ∀ i, ((∃ v : SVal, i = .st h o ∧ s.SIs o.d.toNat v ∧ v.p = 1 ∧ v.f = none) ∨
      (∃ v : VVal, i = .vst h o ∧ s.VIs o.d.toNat v ∧ v.f = none ∧ ∃ j, j < o.bytes / 4 ∧ v.p.getLsbD j = true)) →
    ∃ r : TrapRec, r.code = .poison ∧ r.info0 = addressOf o a ∧ r.info1 = 1 ∧ r.ba = s.latch.ba ∧
      (s.cur.keepsMarks = false → exec i s = .next (s.stat (.trap r))) ∧
      (s.cur.keepsMarks = true → ∃ t e, exec i s = .next t ∧ e ∈ t.cur.larder ∧ e.tag = [] ∧ e.isStore = true ∧
        e.trap = some { r with deferred := true } ∧ s.KeepsBytes t ∧ t.portW = s.portW ∧ t.outq = s.outq)

/-- R150, R151: a clean store that performs clears the poison of the granules whose every byte it writes, 8 bytes in a pool and 32 in device
memory, and leaves that of every other granule. -/
def Sys2Proof.Claims.StoresOverPoison : Prop :=
  ∀ (s : State) (a : Acc), a.kind = .store →
    (∀ j, j < a.data.length → isScratch (a.home + j) = isScratch a.home ∧ s.inRange (a.home + j) = true) →
    ∀ k, let g := if isScratch k then 8 else 32
      let lo := k - k % g
      ((s.performAt a []).1.mem.bad k = true ↔
        s.mem.bad k = true ∧ ¬ (a.home ≤ lo ∧ lo + g ≤ a.home + a.data.length))

/-- st and vst send their bytes to their home, a store that performs writes exactly them, and what poison does (R138, R140, R144, R145,
R150, R151). -/
def Obligations.Stores : Prop :=
  Claims.StoresSent ∧ Claims.StorePerforms ∧ Claims.StoresOfPoison ∧ Claims.StoresOverPoison


/-- R240, R241: an integer atomic that performs on clean bytes puts the new value of R240 at its home, answers the old bytes,
and writes no other byte. -/
def Sys2Proof.Claims.AtomicPerforms : Prop :=
  ∀ (s : State) (a : Acc) (aop : Nat), a.kind = .atomic → a.aop = aop → aop ≤ 10 → aop ≠ 8 → (a.size = 4 ∨ a.size = 8) →
    s.MemInv → (∀ j, j < a.size → s.inRange (a.home + j) = true) → (∀ b ∈ s.badAt a.home a.size, b = false) →
    let r := s.performAt a []
    let w := 8 * a.size
    let m := leBytes (s.bytesAt a.home a.size)
    r.2.2.1 = s.bytesAt a.home a.size ∧
    leBytes (r.1.bytesAt a.home a.size) = newValue aop w m (a.x.toNat % 2 ^ w) (a.y.toNat % 2 ^ w) ∧
    ∀ k, k < a.home ∨ a.home + a.size ≤ k → r.1.mem.get k = s.mem.get k

/-- R138, R141, R153: a timed request takes a porch entry and leaves its register waiting for its data at its due count. -/
def Obligations.TimedRequests : Prop :=
  ∀ (h : Hdr) (o : MOp) (s : State) (a : Word) (tg : Tgt) (n : Nat) (kind : AccKind), s.Fires h → s.Calm →
    s.BaseIs o.base.toNat (clean a) →
    accessCheck s.cur.table.core (coreOf s.latch.n) (addressOf o a) n false false = .inr tg →
    s.firstOor tg.core tg.off n = none ∨ 2 < tg.place → s.porchRoom 1 = true →
    let due := s.latch.ic + max 1 o.lof.toNat
    ∀ i, ((i = .ldt h o ∨ i = .vldt h o) ∧ n = o.bytes ∧ kind = .load) ∨ (i = .tchase h o ∧ n = 8 ∧ kind = .tchase) →
    ∃ t acc, exec i s = .next t ∧ isAccess s acc kind tg n ∧ acc.ea = (addressOf o a).toNat ∧ acc.due = due ∧
      ((i = .vldt h o → LandingOf t.cur.v o.d.toNat due acc.id) ∧
       (i ≠ .vldt h o → o.d.toNat ≠ 0 → LandingOf t.cur.sa o.d.toNat due acc.id)) ∧
      ⟨acc.id, s.latch.n, due, false, false, false, []⟩ ∈ (t.core (coreOf s.latch.n)).porch ∧
      (2 ≤ tg.place → t.outq = s.outq ++ [acc]) ∧ stepped s t o a ∧ s.KeepsS t [o.d.toNat, aReg o.base.toNat] ∧
      s.KeepsBytes t ∧ t.portW = s.portW

/-- R241: an atomic of either form sends its operands to its home; a returning one waits for its data as a timed request does.
No byte changes until it performs. -/
def Sys2Proof.Claims.AtomicsSent : Prop :=
  ∀ e ∈ atomics, ∀ (h : Hdr) (o : MOp) (s : State) (a x y : Word) (tg : Tgt), s.Fires h → s.Calm →
    s.BaseIs o.base.toNat (clean a) → s.SIs o.d.toNat (clean x) → (e.2 = 10 → s.SIs (o.d.toNat + 1) (clean y)) →
    accessCheck s.cur.table.core (coreOf s.latch.n) (addressOf o a) o.bytes false true = .inr tg →
    (o.ret = true → s.porchRoom 1 = true) →
    ∃ t acc, exec (e.1 h o) s = .next t ∧ isAccess s acc .atomic tg o.bytes ∧ acc.aop = e.2 ∧ acc.x = x ∧
      (e.2 = 10 → acc.y = y) ∧ acc.ret = o.ret ∧ leaves s t acc tg.place ∧ stepped s t o a ∧ s.KeepsBytes t ∧
      s.KeepsS t (if o.ret then [o.d.toNat, aReg o.base.toNat] else [aReg o.base.toNat]) ∧ t.cur.v = s.cur.v ∧
      (o.ret = true → o.d.toNat ≠ 0 → LandingOf t.cur.sa o.d.toNat (s.latch.ic + max 1 o.lof.toNat) acc.id) ∧
      (o.ret = true → ⟨acc.id, s.latch.n, s.latch.ic + max 1 o.lof.toNat, false, false, false, []⟩ ∈
        (t.core (coreOf s.latch.n)).porch)

/-- R240, R241: an `afadd` that performs on four clean bytes leaves the FP32 sum rounded by `rne` at its home, which is what `vadd` gives
for these elements (`Claims.ArithmeticValues`), answers the old bytes, writes no other byte and records no event. -/
def Sys2Proof.Claims.FloatAddPerforms : Prop :=
  ∀ (s : State) (a : Acc), a.kind = .atomic → a.aop = 8 → a.size = 4 → s.MemInv →
    (∀ j, j < 4 → s.inRange (a.home + j) = true) → (∀ b ∈ s.badAt a.home 4, b = false) →
    let r := s.performAt a []
    let m := leBytes (s.bytesAt a.home 4)
    r.2.2.1 = s.bytesAt a.home 4 ∧
    leBytes (r.1.bytesAt a.home 4) = (eBin 0 1 0 false false m (a.x.toNat % 2 ^ 32)).1 ∧
    (∀ k, k < a.home ∨ a.home + 4 ≤ k → r.1.mem.get k = s.mem.get k) ∧
    ∀ n, (r.1.ctx n).felPend = (s.ctx n).felPend ∧ (r.1.ctx n).fel = (s.ctx n).fel

/-- Atomics send their operands and perform once at their home (R239, R240, R241). -/
def Obligations.Atomics : Prop := Claims.AtomicsSent ∧ Claims.AtomicPerforms ∧ Claims.FloatAddPerforms


/-- R137: an access checks poison, alignment, translation, presence, place and permission in this order, and the first failure
is its outcome. -/
def Sys2Proof.Claims.AccessOrder : Prop :=
  ∀ (s : State) (base : SVal) (ea : Word) (n : Nat) (fixed wr : Bool),
    let fails := fun (c : TrapCode) => ∃ r : TrapRec, r.code = c ∧ r.ba = s.latch.ba ∧ r.info0 = ea ∧ s.access base ea n fixed wr = .inl r
    base.f = none →
    (base.p = 1 → fails .poison) ∧
    (base.p = 0 → ea.toNat % n ≠ 0 → fails .misaligned) ∧
    (base.p = 0 → ea.toNat % n = 0 → (2 ^ 48 ≤ ea.toNat ∨ ∀ e ∈ s.cur.table.core, e.2.hits ea.toNat = false) →
      fails .untranslated) ∧
    (∀ e, base.p = 0 → ea.toNat % n = 0 → tLookup s.cur.table.core ea.toNat = some e →
      (e.p = false → fails .pageFault) ∧
      (e.p = true → fixed = true → 3 ≤ e.kind → fails .untimedPlace) ∧
      (e.p = true → (fixed = true → e.kind < 3) → wr = true → e.w = false → fails .noWrite) ∧
      (e.p = true → (fixed = true → e.kind < 3) → (wr = true → e.w = true) →
        s.access base ea n fixed wr = .inr (e.tgt (coreOf s.latch.n) ea.toNat)))

/-- R137: every access whose address is no multiple of its size raises `MISALIGNED` at its bundle. -/
def Sys2Proof.Claims.MisalignedAccessTraps : Prop :=
  ∀ (h : Hdr) (o : MOp) (s : State) (a : Word), s.Fires h → s.BaseIs o.base.toNat (clean a) →
    (addressOf o a).toNat % o.bytes ≠ 0 →
    ∃ r w : TrapRec, r.code = .misaligned ∧ r.info0 = addressOf o a ∧ r.ba = s.latch.ba ∧ w.code = .misaligned ∧
      w.info0 = addressOf o a ∧ w.ba = s.latch.ba ∧
      (∀ i ∈ [Instr.ld h o, .ldu h o, .vld h o, .ldt h o, .vldt h o], exec i s = .next (s.stat (.trap r))) ∧
      (∀ x : SVal, s.SIs o.d.toNat x → exec (.st h o) s = .next (s.stat (.trap w))) ∧
      (∀ x : VVal, s.VIs o.d.toNat x → exec (.vst h o) s = .next (s.stat (.trap w)))

/-- The checks of an access, in their order, and the traps of misaligned accesses (R137, R140). -/
def Obligations.AccessChecks : Prop := Claims.AccessOrder ∧ Claims.MisalignedAccessTraps


/-- R161, R163: a `fence` enters force with the operations under way that its scope includes; a `drain` goes on once no store
or atomic of its scope is left. -/
def Obligations.FencesAndDrains : Prop :=
  ∀ (h : Hdr) (o : FOp) (s : State), s.Settled h → s.Calm →
    (∃ t f, exec (.fence h o) s = .next t ∧ s.Becomes t { s.cur with fences := [f] } ∧ f.ak = o.ak ∧
      f.arr = (if h.arr then some h.bn.toNat else none) ∧
      ∀ id, id ∈ f.members ↔ ∃ q ∈ s.cur.outs, q.id = id ∧ q.perf = false ∧ kindBit o.bk q.kind = true ∧
        (3 ≤ q.kind ∨ q.home ≤ o.scope.toNat)) ∧
    ((∀ q ∈ s.cur.outs, q.kind = 1 ∨ q.kind = 2 → q.home ≤ o.scope.toNat → q.perf = true) →
      exec (.drain h o) s = .next (if h.arr then { s with
        barIn := s.barIn ++ [arrivalAt s h.bn.toNat s.latch.slot none] } else s)) ∧
    (∀ q ∈ s.cur.outs, (q.kind = 1 ∨ q.kind = 2) → q.home ≤ o.scope.toNat → q.perf = false →
      exec (.drain h o) s = .next (s.stat .wait))

/-- R309: `cgo` in a machine of its width takes a mark in every member and pushes the carry level, or with a full stack raises
`LOOP_DEPTH` after the mark; elsewhere it traps. -/
def Sys2Proof.Claims.CarryLoopStarts : Prop :=
  ∀ (h : Hdr) (o : CIOp) (s : State) (i : Instr) (w : Nat), ((i = .cgo2 h o ∧ w = 2) ∨ (i = .cgo4 h o ∧ w = 4)) →
    s.isLead = true →
    (s.latch.n % 2 = 1 ∨ s.cur.fuseW ≠ w → ∃ r : TrapRec, r.code = .fuseState ∧ exec i s = .next (s.stat (.trap r))) ∧
    (∀ n0 t0 : Word, s.latch.n % 2 = 0 → s.cur.fuseW = w →
      (∀ m ∈ s.members, (s.ctx m).quiet s.latch.ic = true ∧ (s.ctx m).spills = false) →
      s.SIs 39 (clean n0) → s.SIs o.d.toNat (clean t0) →
      (6 ≤ s.cur.loops.length + s.cur.push.length → ∃ t r, exec i s = .next t ∧ r.code = .loopDepth ∧ r.ba = s.latch.ba ∧
        t.cur.fatalP = slotFirst s.cur.fatalP (some r) ∧ t.cur.loops = s.cur.loops ∧ ∀ m ∈ s.members, (t.ctx m).keepsMarks = true) ∧
      (s.cur.loops.length + s.cur.push.length < 6 → ∃ t l, exec i s = .next t ∧ t.cur.loops = l :: s.cur.loops ∧
        l.index = 0 ∧ l.count = t0 ∧ l.start = s.cur.gnext ∧ l.carry = true ∧ t.cur.cloop.on = true ∧
        t.cur.cloop.i = n0 ∧ t.cur.cloop.r = t0 ∧ t.cur.cloop.w = w ∧ t.cur.cloop.mask.toNat = (ciVal h o).toNat % 2 ^ 10 ∧
        ∀ m ∈ s.members, (t.ctx m).keepsMarks = true))

/-- R311, R314, R316, R407: the phases of a carry round in member 0; an operation out of its phase is illegal. -/
def Sys2Proof.Claims.CarryRound : Prop :=
  ∀ (h : Hdr) (s : State), s.isLead = true →
    let l := s.cur.cloop
    let ms := l.members s.latch.n
    let a := BitVec.ofNat 64 l.taken
    let illegal := fun (i : Instr) => ∃ r : TrapRec, r.code = .illegalEncoding ∧ exec i s = .next (s.stat (.trap r))
    (∀ o : CBOp, s.inPhase 0 = false → illegal (.cguess h o)) ∧
    (∀ o : CROp, s.inPhase 1 = false → illegal (.cchk h o)) ∧
    (∀ o : CBOp, s.inPhase 2 = false ∨ targetOf s h o ≠ l.start → illegal (.cend h o)) ∧
    (∀ o : CBOp, s.inPhase 0 = true → (∀ m ∈ ms, (s.ctx m).carryWaits l s.latch.ic = false) →
      ∃ t, exec (.cguess h o) s = .next t ∧ t.mem = s.mem ∧
        (l.r = 0 → t.cur.cloop = {} ∧ t.cur.loops = s.cur.loops.drop 1 ∧
          t.cur.go = some (targetOf s h o + (s.codeAt s.latch.n (targetOf s h o) l.w).len)) ∧
        (l.r ≠ 0 → t.cur.cloop = { l with phase := 1 })) ∧
    (∀ (o : CROp) (n : Nat), s.inPhase 1 = true →
      (∀ m ∈ ms, (s.ctx m).settled s.latch.ic = true ∧ ∀ g ∈ (s.ctx m).opens, g.reg = 0) →
      s.decideRound l s.latch.ic s.latch.n s.cur.carry.stores 1 (ms.drop 1) = (n, none) →
      ∃ t, exec (.cchk h o) s = .next t ∧ t.mem = s.mem ∧ t.cur.cloop = { l with phase := 2, taken := n }) ∧
    (∀ o : CBOp, s.inPhase 2 = true → targetOf s h o = l.start →
      (∀ m ∈ ms, (s.ctx m).flushed s.cycle = true ∧ (s.ctx m).quiet s.latch.ic = true) →
      ∃ t, exec (.cend h o) s = .next t ∧
        (l.r - a = 0 → t.cur.cloop = {} ∧ t.cur.loops = s.cur.loops.drop 1) ∧
        (l.r - a ≠ 0 → t.cur.cloop = { l with i := l.i + a, r := l.r - a, phase := 3, taken := 0 } ∧
          t.cur.go = some l.start))

/-- cgo starts a carry loop; cguess, cchk and cend are the phases of a round (R309, R311, R314, R316, R407). -/
def Obligations.CarryLoops : Prop := Claims.CarryLoopStarts ∧ Claims.CarryRound


namespace Sys2Proof.Claims

/-! ### The V slots -/

/-- The elements of a V operation: width in bits, and width of one element in the format in force (R68, R172). -/
def lanes (s : State) (o : VOp) : Nat × Nat := (vWidth o, codeWidth (s.vCode o))

/-- The latency of an operation with integer or floating-point elements (R176). -/
def byFormat (i f : Nat) (s : State) (o : VOp) : Nat := if isIntCode (s.vCode o) then i else f

/-- R177 to R180: the operations of two sources, element by element: latency and result of one element. -/
def vectorTwo : List ((Hdr → VOp → Instr) × (State → VOp → Nat) × (State → VOp → Nat → Nat → ERes)) := [
  (.vadd, byFormat 1 3, fun s o => eBin 0 (s.vCode o) (s.vRm o) o.sat (o.sub.getLsbD 0)),
  (.vsub, byFormat 1 3, fun s o => eBin 1 (s.vCode o) (s.vRm o) o.sat (o.sub.getLsbD 0)),
  (.vmul, byFormat 4 4, fun s o => eBin 2 (s.vCode o) (s.vRm o) o.sat (o.sub.getLsbD 0)),
  (.vmin, byFormat 1 3, fun s o => eMinMax false (s.vCode o) (o.sub.getLsbD 0)),
  (.vmax, byFormat 1 3, fun s o => eMinMax true (s.vCode o) (o.sub.getLsbD 0)),
  (.vand, byFormat 1 1, fun _ _ x y => (x &&& y, none)),
  (.vor, byFormat 1 1, fun _ _ x y => (x ||| y, none)),
  (.vxor, byFormat 1 1, fun _ _ x y => (x ^^^ y, none)),
  (.vcmp, byFormat 1 3, fun s o x y =>
    (if eCmp o.sub.toNat (s.vCode o) x y then 2 ^ codeWidth (s.vCode o) - 1 else 0, none))]

/-- R177, R181: the operations of three sources. -/
def vectorThree : List ((Hdr → VOp → Instr) × Nat × (State → VOp → Nat → Nat → Nat → ERes)) := [
  (.vfma, 4, fun s o => eFma 0 (s.vCode o) (s.vRm o) o.sat),
  (.vfms, 4, fun s o => eFma 1 (s.vCode o) (s.vRm o) o.sat),
  (.vnfma, 4, fun s o => eFma 2 (s.vCode o) (s.vRm o) o.sat),
  (.vsel, 1, fun _ _ x y z => (if z ≠ 0 then x else y, none))]

/-- R177, R179, R182: the operations of one source, element by element, in every format. -/
def vectorOne : List ((Hdr → VOp → Instr) × Nat × (State → VOp → Nat → ERes)) := [
  (.vabs, 1, fun s o => eSign false (s.vCode o) o.sat),
  (.vneg, 1, fun s o => eSign true (s.vCode o) o.sat),
  (.vmov, 1, fun _ _ x => (x, none)),
  (.vclz, 1, fun s o x => (clzN (codeWidth (s.vCode o)) x, none)),
  (.vpop, 1, fun s o x => (popN (codeWidth (s.vCode o)) x, none))]

/-- R185: the transcendental operations, of floating-point formats only; latency 8. -/
def transcendental : List ((Hdr → VOp → Instr) × Nat) :=
  [(.vexp2, 0), (.vlog2, 1), (.vrcp, 2), (.vrsqrt, 3), (.vsqrt, 4)]

/-- R179: the shifts by `b` and by the immediate. -/
def shifts : List ((Hdr → VOp → Instr) × Nat) := [(.vshl, 0), (.vshr, 1), (.vsra, 2)]

/-- R184: the reductions and the scan. -/
def reductions : List ((Hdr → VOp → Instr) × (State → VOp → Nat) × (State → VOp → VVal → VRes)) := [
  (.vredsum, byFormat 2 6, fun s o => vReduce (vWidth o) (codeWidth (s.vCode o)) (eBin 0 (s.vCode o) (s.vRm o) false false)),
  (.vredmax, byFormat 2 6, fun s o => vReduce (vWidth o) (codeWidth (s.vCode o)) (eMinMax true (s.vCode o) (o.sub.getLsbD 0))),
  (.vredmin, byFormat 2 6, fun s o => vReduce (vWidth o) (codeWidth (s.vCode o)) (eMinMax false (s.vCode o) (o.sub.getLsbD 0))),
  (.vscan, byFormat 2 8, fun s o => vScan (vWidth o) (codeWidth (s.vCode o)) (eBin 0 (s.vCode o) (s.vRm o) false false))]

/-- R53, R54, R59: the canonical NaN, the largest finite value and the sign bit of the floating-point formats 1 to 5. Infinity follows the largest
finite value, but for E4M3 (4), which has a NaN there. -/
def canonicalNan (code : Nat) : Nat := match code with | 1 => 0x7FC00000 | 2 => 0x7E00 | 3 => 0x7FC0 | 4 => 0x7F | _ => 0x7E
def largestFinite (code : Nat) : Nat := match code with | 1 => 0x7F7FFFFF | 2 => 0x7BFF | 3 => 0x7F7F | 4 => 0x7E | _ => 0x7B
def signBit (code : Nat) : Nat := 2 ^ (codeWidth code - 1)
def magnitude (code x : Nat) : Nat := x % signBit code
def isFinite (code x : Nat) : Prop := magnitude code x ≤ largestFinite code
def isNaN (code x : Nat) : Prop := largestFinite code + (if code = 4 then 0 else 1) < magnitude code x

/-- R178: an exact integer result in `w` bits: its low bits, or with `.sat` clamped, unsigned or signed. -/
def fitted (w : Nat) (sat uns : Bool) (i : Int) : Nat :=
  if sat = false then (i % 2 ^ w).toNat
  else if uns then (max 0 (min i (2 ^ w - 1))).toNat
  else (max (-(2 ^ (w - 1))) (min i (2 ^ (w - 1) - 1)) % 2 ^ w).toNat

/-- R177, R73: results of `vadd` (0), `vsub` (1) and `vmul` (2), worked by hand: operation, format, rounding mode, `.sat`, operands, result, event. -/
def roundedResults : List (Nat × Nat × Nat × Bool × Nat × Nat × Nat × Option Ev) := [
  (0, 1, 0, false, 0x3F800000, 0x33800000, 0x3F800000, some .inexact),
  (0, 1, 2, false, 0x3F800000, 0x33800000, 0x3F800001, some .inexact),
  (0, 1, 0, false, 0x3F800000, 0x34400000, 0x3F800002, some .inexact),
  (0, 1, 1, false, 0x3F800000, 0x34400000, 0x3F800001, some .inexact),
  (1, 1, 0, false, 0x3F800000, 0x3F800001, 0xB4000000, none),
  (0, 1, 0, false, 0x7F7FFFFF, 0x7F7FFFFF, 0x7F800000, some .overflow),
  (0, 1, 1, false, 0x7F7FFFFF, 0x7F7FFFFF, 0x7F7FFFFF, some .overflow),
  (0, 1, 0, true, 0x7F7FFFFF, 0x7F7FFFFF, 0x7F7FFFFF, some .overflow),
  (0, 2, 0, false, 0x3C00, 0x1000, 0x3C00, some .inexact),
  (0, 2, 2, false, 0x3C00, 0x1000, 0x3C01, some .inexact),
  (0, 3, 0, false, 0x3F80, 0x3B80, 0x3F80, some .inexact),
  (0, 4, 0, false, 0x38, 0x18, 0x38, some .inexact),
  (0, 4, 2, false, 0x38, 0x18, 0x39, some .inexact),
  (0, 5, 0, false, 0x3C, 0x30, 0x3C, some .inexact),
  (2, 1, 0, false, 0x00800000, 0x3F000000, 0x00400000, none),
  (2, 1, 0, false, 0x00000001, 0x3F000000, 0x00000000, some .underflow),
  (2, 1, 2, false, 0x00000001, 0x3F000000, 0x00000001, some .underflow),
  (2, 1, 0, false, 0x3F800001, 0x3F800001, 0x3F800002, some .inexact),
  (2, 4, 0, true, 0x7E, 0x40, 0x7E, some .overflow),
  (2, 5, 0, false, 0x3D, 0x3D, 0x3E, some .inexact)]

/-- R53, R180: the order of the numbers that encodings of floating-point formats 1 to 5 stand for: sign and magnitude, both zeros alike. -/
def numberKey (code x : Nat) : Int := if x < signBit code then (x : Int) else -(magnitude code x : Int)
/-- R177: the same with −0 below +0. -/
def zeroKey (code x : Nat) : Int := if x < signBit code then (x : Int) else -(magnitude code x : Int) - 1

/-- R65: node `i` of level `k` of the tree over the elements `x`, and element `i` of the scan after `k` steps. -/
def node (f : Nat → Nat → Nat) (x : Nat → Nat) : Nat → Nat → Nat
  | 0, i => x i
  | k + 1, i => f (node f x k (2 * i)) (node f x k (2 * i + 1))
def scanned (f : Nat → Nat → Nat) (x : Nat → Nat) : Nat → Nat → Nat
  | 0, i => x i
  | k + 1, i => if i < 2 ^ k then scanned f x k i else f (scanned f x k (i - 2 ^ k)) (scanned f x k i)

/-- R185: results of `vexp2` (0), `vlog2` (1), `vrcp` (2), `vrsqrt` (3) and `vsqrt` (4) in FP32: operation, rounding mode, operand, result, event. -/
def transcendentalResults : List (Nat × Nat × Nat × Nat × Option Ev) := [
  (0, 0, 0x40400000, 0x41000000, none), (0, 0, 0x3F000000, 0x3FB504F3, some .inexact), (0, 0, 0xFF800000, 0x00000000, none),
  (0, 0, 0x80000000, 0x3F800000, none), (0, 0, 0x7F800000, 0x7F800000, none),
  (1, 0, 0x40400000, 0x3FCAE00D, some .inexact), (1, 0, 0xFF800000, 0x7FC00000, some .invalid),
  (1, 0, 0xBF800000, 0x7FC00000, some .invalid), (1, 0, 0x80000000, 0xFF800000, some .divZero), (1, 0, 0x7F800000, 0x7F800000, none),
  (2, 0, 0x40400000, 0x3EAAAAAB, some .inexact), (2, 1, 0x40400000, 0x3EAAAAAA, some .inexact), (2, 0, 0xFF800000, 0x80000000, none),
  (2, 0, 0x80000000, 0xFF800000, some .divZero), (2, 0, 0x7F800000, 0x00000000, none),
  (3, 0, 0x40000000, 0x3F3504F3, some .inexact), (3, 0, 0xFF800000, 0x7FC00000, some .invalid),
  (3, 0, 0xBF800000, 0x7FC00000, some .invalid), (3, 0, 0x80000000, 0xFF800000, some .divZero), (3, 0, 0x7F800000, 0x00000000, none),
  (4, 0, 0x40800000, 0x40000000, none), (4, 0, 0x40000000, 0x3FB504F3, some .inexact), (4, 2, 0x40000000, 0x3FB504F4, some .inexact),
  (4, 0, 0xFF800000, 0x7FC00000, some .invalid), (4, 0, 0xBF800000, 0x7FC00000, some .invalid),
  (4, 0, 0x80000000, 0x80000000, none), (4, 0, 0x7F800000, 0x7F800000, none)]

/-- R187, R63: results of `vcvt`: source and destination format, rounding mode, `.sat`, operand, result, event. -/
def convertedResults : List (Nat × Nat × Nat × Bool × Nat × Nat × Option Ev) := [
  (1, 2, 0, false, 0x3F801000, 0x3C00, some .inexact), (1, 2, 2, false, 0x3F801000, 0x3C01, some .inexact),
  (1, 4, 0, true, 0x43EB0000, 0x7E, some .overflow), (1, 4, 0, false, 0x43E80000, 0x7E, some .inexact),
  (1, 4, 1, false, 0x43EB0000, 0x7E, some .inexact),
  (8, 1, 0, false, 0x01000001, 0x4B800000, some .inexact), (8, 1, 2, false, 0x01000001, 0x4B800001, some .inexact),
  (1, 6, 0, true, 0x43480000, 0x7F, some .invalid), (1, 6, 0, false, 0x43480000, 0x80, some .invalid),
  (1, 6, 0, false, 0xBFC00000, 0xFE, some .inexact), (1, 6, 1, false, 0xBFC00000, 0xFF, some .inexact),
  (1, 6, 0, true, 0x7FC00000, 0x00, some .invalid)]

/-- Every V operation but the empty one. -/
def vectorOps : List (Hdr → VOp → Instr) :=
  vectorTwo.map (fun e => e.1) ++ vectorThree.map (fun e => e.1) ++ vectorOne.map (fun e => e.1) ++
    transcendental.map (fun e => e.1) ++ shifts.map (fun e => e.1) ++ reductions.map (fun e => e.1) ++
    [.vsplat, .vbcast, .vperm, .vshuf, .vrot, .vext, .vins, .vcvt, .vmaxe, .vqcvt, .vpack, .vunpack]

end Sys2Proof.Claims

open Sys2Proof.Claims

/-- R177 to R181: element-wise operations of two and three sources write V[d] and nothing else but the first-event log. -/
def Sys2Proof.Claims.VectorSources : Prop :=
  (∀ e ∈ vectorTwo, ∀ (h : Hdr) (o : VOp) (s : State) (x y : VVal), s.Fires h → o.foOk = true →
    s.VIs o.a.toNat x → s.VIs o.breg y → ∃ t, exec (e.1 h o) s = .next t ∧
      s.WritesV t h o.d.toNat (e.2.1 s o) (vMap2 (lanes s o).1 (lanes s o).2 (e.2.2 s o) x y)) ∧
  (∀ e ∈ vectorThree, ∀ (h : Hdr) (o : VOp) (s : State) (x y z : VVal), s.Fires h → o.foOk = true →
    s.VIs o.a.toNat x → s.VIs o.breg y → s.VIs o.c.toNat z → ∃ t, exec (e.1 h o) s = .next t ∧
      s.WritesV t h o.d.toNat e.2.1 (vMap3 (lanes s o).1 (lanes s o).2 (e.2.2 s o) x y z))

/-- R177, R179, R182, R184, R185: operations of one vector. -/
def Sys2Proof.Claims.VectorUnary : Prop :=
  ∀ (h : Hdr) (o : VOp) (s : State) (x : VVal), s.Fires h → o.foOk = true → s.VIs o.a.toNat x →
    (∀ e ∈ vectorOne, ∃ t, exec (e.1 h o) s = .next t ∧
      s.WritesV t h o.d.toNat e.2.1 (vMap1 (lanes s o).1 (lanes s o).2 (e.2.2 s o) x)) ∧
    (∀ e ∈ transcendental, ∀ f, fmtOf (s.vCode o) = some f → isIntCode (s.vCode o) = false →
      ∃ t, exec (e.1 h o) s = .next t ∧
        s.WritesV t h o.d.toNat 8 (vMap1 (lanes s o).1 (lanes s o).2 (eTrans e.2 f (s.vRm o) o.sat) x)) ∧
    (∀ e ∈ reductions, ∃ t, exec (e.1 h o) s = .next t ∧ s.WritesV t h o.d.toNat (e.2.1 s o) (e.2.2 s o x)) ∧
    (∀ e ∈ shifts,
      (o.sub.getLsbD 0 = true → ∃ t, exec (e.1 h o) s = .next t ∧ s.WritesV t h o.d.toNat 1
        (vMap1 (lanes s o).1 (lanes s o).2 (fun v => eShift e.2 (lanes s o).2 v o.breg) x)) ∧
      (∀ y, o.sub.getLsbD 0 = false → s.VIs o.breg y → ∃ t, exec (e.1 h o) s = .next t ∧ s.WritesV t h o.d.toNat 1
        (vMap2 (lanes s o).1 (lanes s o).2 (eShift e.2 (lanes s o).2) x y)))

/-- R178: the integer operations on elements, as their rule gives them: of all operands. -/
def Sys2Proof.Claims.IntegerValues : Prop :=
  ∀ (code rm x y z : Nat) (sat uns : Bool), 6 ≤ code → code ≤ 9 →
    let w := codeWidth code
    x < 2 ^ w → y < 2 ^ w → z < 2 ^ w →
    let v := fun (n : Nat) => if uns then (n : Int) else signed w n
    let sg := fun (n : Nat) => signed w n
    eBin 0 code rm sat uns x y = (fitted w sat uns (v x + v y), none) ∧
    eBin 1 code rm sat uns x y = (fitted w sat uns (v x - v y), none) ∧
    eBin 2 code rm sat uns x y = (fitted w sat uns (v x * v y), none) ∧
    eFma 0 code rm sat x y z = (fitted w sat false (sg x * sg y + sg z), none) ∧
    eFma 1 code rm sat x y z = (fitted w sat false (sg x * sg y - sg z), none) ∧
    eFma 2 code rm sat x y z = (fitted w sat false (sg z - sg x * sg y), none) ∧
    eSign true code sat x = (fitted w sat false (-sg x), none) ∧
    eSign false code sat x = (fitted w sat false |sg x|, none) ∧
    eMinMax true code uns x y = (if v x ≤ v y then y else x, none) ∧
    eMinMax false code uns x y = (if v x ≤ v y then x else y, none)

/-- R177, R185: the floating-point operations on elements, as their rules give them: NaN operands, infinities and zeros in every format,
and results worked by hand. -/
def Sys2Proof.Claims.ArithmeticValues : Prop :=
  (∀ (code rm x y z : Nat) (sat uns : Bool), 1 ≤ code → code ≤ 5 → rm < 4 →
    let nan := canonicalNan code
    let inf := largestFinite code + 1
    let sign := signBit code
    (isNaN code x ∨ isNaN code y → ∀ op, eBin op code rm sat uns x y = (nan, none)) ∧
    (isNaN code x ∨ isNaN code y ∨ isNaN code z → ∀ op, eFma op code rm sat x y z = (nan, none)) ∧
    (isNaN code x → ∀ op f, op < 5 → fmtOf code = some f → eTrans op f rm sat x = (nan, none)) ∧
    (code ≠ 4 → eBin 0 code rm sat uns inf (sign + inf) = (nan, some .invalid) ∧ eBin 1 code rm sat uns inf inf = (nan, some .invalid) ∧
      eBin 2 code rm sat uns 0 inf = (nan, some .invalid) ∧ eBin 0 code rm false uns inf inf = (inf, none) ∧
      eBin 0 code rm true uns inf inf = (largestFinite code, none)) ∧
    (isFinite code x → eBin 1 code rm sat uns x x = (if rm = 3 then sign else 0, none)) ∧
    eBin 0 code rm sat uns 0 0 = (0, none) ∧ eBin 0 code rm sat uns sign sign = (sign, none)) ∧
  (∀ e ∈ roundedResults, eBin e.1 e.2.1 e.2.2.1 e.2.2.2.1 false e.2.2.2.2.1 e.2.2.2.2.2.1 = e.2.2.2.2.2.2) ∧
  eFma 1 1 0 false 0x3F800800 0x3F800800 0x3F801000 = (0x33800000, none) ∧
  eFma 2 1 0 false 0x3F800800 0x3F800800 0x3F801000 = (0xB3800000, none) ∧
  (∀ e ∈ transcendentalResults, ∀ f, fmtOf 1 = some f → eTrans e.1 f e.2.1 false e.2.2.1 = e.2.2.2)

/-- R179: the shifts of an element by a count modulo its width. R180: the compares of integer formats. -/
def Sys2Proof.Claims.ShiftAndCompareValues : Prop :=
  (∀ (w x c : Nat), (w = 8 ∨ w = 16 ∨ w = 32 ∨ w = 64) → x < 2 ^ w →
    eShift 0 w x c = ((BitVec.ofNat w x <<< (c % w)).toNat, none) ∧
    eShift 1 w x c = ((BitVec.ofNat w x >>> (c % w)).toNat, none) ∧
    eShift 2 w x c = (((BitVec.ofNat w x).sshiftRight (c % w)).toNat, none)) ∧
  (∀ (code x y : Nat), 6 ≤ code → code ≤ 9 →
    let w := codeWidth code
    x < 2 ^ w → y < 2 ^ w →
    (eCmp 0 code x y = true ↔ x = y) ∧ (eCmp 1 code x y = true ↔ x ≠ y) ∧
    (eCmp 2 code x y = true ↔ signed w x < signed w y) ∧ (eCmp 3 code x y = true ↔ signed w x ≤ signed w y) ∧
    (eCmp 4 code x y = true ↔ x < y) ∧ (eCmp 5 code x y = true ↔ x ≤ y) ∧ eCmp 6 code x y = false)

/-- R177, R180: compares, minima and maxima of every floating-point format, by the numbers that the encodings stand for. -/
def Sys2Proof.Claims.OrderedValues : Prop :=
  ∀ (code x y : Nat), 1 ≤ code → code ≤ 5 → x < 2 ^ codeWidth code → y < 2 ^ codeWidth code →
    (eCmp 4 code x y = true ↔ x < y) ∧ (eCmp 5 code x y = true ↔ x ≤ y) ∧ (eCmp 6 code x y = true ↔ isNaN code x ∨ isNaN code y) ∧
    (isNaN code x ∨ isNaN code y →
      eCmp 0 code x y = false ∧ eCmp 1 code x y = true ∧ eCmp 2 code x y = false ∧ eCmp 3 code x y = false ∧
      ∀ mx, eMinMax mx code false x y = (canonicalNan code, none)) ∧
    (¬ isNaN code x → ¬ isNaN code y →
      let m := numberKey code
      (eCmp 0 code x y = true ↔ m x = m y) ∧ (eCmp 1 code x y = true ↔ m x ≠ m y) ∧
      (eCmp 2 code x y = true ↔ m x < m y) ∧ (eCmp 3 code x y = true ↔ m x ≤ m y) ∧
      eMinMax true code false x y = (if zeroKey code x ≤ zeroKey code y then y else x, none) ∧
      eMinMax false code false x y = (if zeroKey code x ≤ zeroKey code y then x else y, none))

/-- Element-wise operations, transcendental operations, reductions and shifts write V[d], and the values of their elements (R73, R171, R176,
R177, R178, R179, R180, R181, R184, R185). -/
def Obligations.VectorArithmetic : Prop :=
  Claims.VectorSources ∧ Claims.VectorUnary ∧ Claims.IntegerValues ∧ Claims.ArithmeticValues ∧ Claims.ShiftAndCompareValues ∧
    Claims.OrderedValues


/-- R182, R183: operations that move elements between positions and between scalars and vectors. -/
def Obligations.VectorMoves : Prop :=
  ∀ (h : Hdr) (o : VOp) (s : State), s.Fires h → o.foOk = true →
    let w := codeWidth (s.vCode o)
    let n := vWidth o / w
    (∀ y, s.SIs o.a.toNat y → ∃ t, exec (.vsplat h o) s = .next t ∧ s.WritesV t h o.d.toNat 1 (splatVal (vWidth o) w y)) ∧
    (∀ d y, s.VIs o.d.toNat d → s.SIs o.a.toNat y → ∃ t, exec (.vins h o) s = .next t ∧
      s.WritesV t h o.d.toNat 1 (insVal (vWidth o) w o.imm d y)) ∧
    ∀ x : VVal, s.VIs o.a.toNat x →
    let xs := vParts (vWidth o) w x
    (∃ t, exec (.vbcast h o) s = .next t ∧
      s.WritesV t h o.d.toNat 1 (vPick w xs ((upTo 0 n).map (fun _ => (o.imm % n, false))) x.f)) ∧
    (∃ t, exec (.vrot h o) s = .next t ∧
      s.WritesV t h o.d.toNat 1 (vPick w xs ((upTo 0 n).map (fun i => ((i + n - o.imm % n) % n, false))) x.f)) ∧
    (∀ y, s.VIs o.breg y →
      (∃ t, exec (.vperm h o) s = .next t ∧ s.WritesV t h o.d.toNat 1
        (vPick w xs ((vParts (vWidth o) w y).map (fun e => (e.1 % n, e.2))) (orF x.f y.f))) ∧
      (∃ t, exec (.vshuf h o) s = .next t ∧ s.WritesV t h o.d.toNat 1
        (vPick w (xs ++ vParts (vWidth o) w y) (shufIdx o.sub.toNat n) (orF x.f y.f)))) ∧
    (∃ t, exec (.vext h o) s = .next t ∧ s.WritesS t h o.d.toNat 2 (extVal w n o.imm (o.sub.getLsbD 1) x))

/-- R186 to R192: conversions, the block scale and its latch, and the bit-plane moves. -/
def Sys2Proof.Claims.ConversionResults : Prop :=
  ∀ (h : Hdr) (o : VOp) (s : State) (x : VVal), s.Fires h → o.foOk = true → s.VIs o.a.toNat x →
    let ws := codeWidth s.vaCode
    let wd := codeWidth (s.vdCode o)
    (partOk ws wd o.sub.toNat = true →
      (∃ t, exec (.vcvt h o) s = .next t ∧ s.WritesV t h o.d.toNat 3
        (cvtVal (vWidth o) ws wd o.sub.toNat (eCvt s.vaCode (s.vdCode o) (s.vRm o) o.sat) false x)) ∧
      (∃ t, exec (.vqcvt h o) s = .next t ∧
        let q := s.cur.qlAt s.vSlot s.latch.ic
        s.WritesV t h o.d.toNat 3
          (cvtVal (vWidth o) ws wd o.sub.toNat (eQcvt s.vaCode (s.vdCode o) (s.vRm o) (q.toNat % 256)) (q.getLsbD 8) x))) ∧
    (∃ t, exec (.vmaxe h o) s = .next t ∧
      let r := maxeVal (vWidth o) (s.vCode o) ((s.cur.fmtAt s.latch.ic).toNat / 16 % 16) x
      s.Becomes t { s.cur with
        v := s.cur.v.add (s.result o.d.toNat 3 ⟨BitVec.ofNat 1024 r.1, (bbit r.2).setWidth 32, x.f⟩),
        qlPend := laterIns ⟨s.vSlot, s.latch.ic + 3, bbit r.2 ++ BitVec.ofNat 8 r.1, s.readyAt 3⟩ s.cur.qlPend,
        arrP := s.cur.arrP ++ s.arrival h 3 (s.uid + 1) }) ∧
    (∀ d, o.w = 2 → o.fo = 0 → s.VIs o.d.toNat d →
      (∃ t, exec (.vpack h o) s = .next t ∧
        s.WritesV t h o.d.toNat 1 (planeVal true (o.b.toNat / 4 % 4) (o.b.toNat % 4) d x)) ∧
      (∃ t, exec (.vunpack h o) s = .next t ∧
        s.WritesV t h o.d.toNat 1 (planeVal false (o.b.toNat / 4 % 4) (o.b.toNat % 4) d x)))

/-- R187, R63: the conversions of elements, as their rules give them: integers to integers, a format to itself, and results worked by hand. -/
def Sys2Proof.Claims.ConversionValues : Prop :=
  (∀ (src dst rm x : Nat) (sat : Bool), 6 ≤ src → src ≤ 9 → 6 ≤ dst → dst ≤ 9 → x < 2 ^ codeWidth src →
    eCvt src dst rm sat x = (fitted (codeWidth dst) sat false (signed (codeWidth src) x), none)) ∧
  (∀ (code rm x : Nat) (sat : Bool), 1 ≤ code → code ≤ 5 → rm < 4 → x < 2 ^ codeWidth code →
    (isFinite code x → eCvt code code rm sat x = (x, none)) ∧ (isNaN code x → eCvt code code rm sat x = (canonicalNan code, none))) ∧
  (∀ e ∈ convertedResults, eCvt e.1 e.2.1 e.2.2.1 e.2.2.2.1 e.2.2.2.2.1 = e.2.2.2.2.2)

/-- R172: FO of 0xA to 0xF raises `ILLEGAL_ENCODING` at the bundle in every V operation; that it does so whatever the guard holds is the
model's reading (log 39, DEDUCED). -/
def Sys2Proof.Claims.VectorFormatTraps : Prop :=
  ∀ e ∈ vectorOps, ∀ (h : Hdr) (o : VOp) (s : State), 0xA ≤ o.fo.toNat →
    ∃ r : TrapRec, r.code = .illegalEncoding ∧ r.ba = s.latch.ba ∧ r.deferred = false ∧
      exec (e h o) s = .next (s.stat (.trap r))

/-- Conversions and their values, the block scale and its latch, bit planes; FO that names no format traps (R63, R172, R187, R188, R189, R190,
R192). -/
def Obligations.VectorConversions : Prop := Claims.ConversionResults ∧ Claims.ConversionValues ∧ Claims.VectorFormatTraps


/-- R56, R171, R173: element i of an element-wise result is the operation on element i of the sources; bits above the width of
the operation are zero; a 32-bit word is poisoned exactly when an element in it has a poisoned source. -/
def Sys2Proof.Claims.ElementWise : Prop :=
  ∀ (W w : Nat) (f : Nat → Nat → ERes) (x y : VVal), (w = 8 ∨ w = 16 ∨ w = 32 ∨ w = 64) → (W = 256 ∨ W = 512 ∨ W = 1024) →
    let r := (vMap2 W w f x y).val
    (∀ i, i < W / w → r.v.toNat / 2 ^ (i * w) % 2 ^ w =
      (f (x.v.toNat / 2 ^ (i * w) % 2 ^ w) (y.v.toNat / 2 ^ (i * w) % 2 ^ w)).1 % 2 ^ w) ∧
    r.v.toNat < 2 ^ W ∧
    (∀ j, j < 32 → r.p.getLsbD j = true ↔ ∃ i, i < W / w ∧ (i * w) / 32 ≤ j ∧ j ≤ (i * w + w - 1) / 32 ∧
      ∃ k, (i * w) / 32 ≤ k ∧ k ≤ (i * w + w - 1) / 32 ∧ (x.p.getLsbD k = true ∨ y.p.getLsbD k = true))

/-- R65, R184: a reduction combines the elements in the tree of R65 and the scan in its steps, whatever the combination; in integer formats
that is the sum, the largest or the smallest of all elements, and the sums of the elements up to each one. -/
def Sys2Proof.Claims.ReductionValues : Prop :=
  ∀ (W w k : Nat) (x : VVal), (w = 8 ∨ w = 16 ∨ w = 32 ∨ w = 64) → (W = 256 ∨ W = 512 ∨ W = 1024) → W = w * 2 ^ k →
    let el := fun (i : Nat) => x.v.toNat / 2 ^ (i * w) % 2 ^ w
    let at' := fun (r : VRes) (i : Nat) => r.val.v.toNat / 2 ^ (i * w) % 2 ^ w
    (∀ f : Nat → Nat → ERes,
      let g := fun (a b : Nat) => (f a b).1
      (vReduce W w f x).val.v.toNat = node g el k 0 % 2 ^ w ∧
      (vScan W w f x).val.v.toNat < 2 ^ W ∧ ∀ i, i < 2 ^ k → at' (vScan W w f x) i = scanned g el k i % 2 ^ w) ∧
    (∀ (code rm : Nat) (uns : Bool), 6 ≤ code → code ≤ 9 → codeWidth code = w →
      let v := fun (n : Nat) => if uns then (n : Int) else signed w n
      at' (vReduce W w (eBin 0 code rm false false) x) 0 = ((List.range (2 ^ k)).map el).sum % 2 ^ w ∧
      (∀ i, i < 2 ^ k → at' (vScan W w (eBin 0 code rm false false) x) i = ((List.range (i + 1)).map el).sum % 2 ^ w) ∧
      (let r := at' (vReduce W w (eMinMax true code uns) x) 0
       (∃ i, i < 2 ^ k ∧ el i = r) ∧ ∀ i, i < 2 ^ k → v (el i) ≤ v r) ∧
      (let r := at' (vReduce W w (eMinMax false code uns) x) 0
       (∃ i, i < 2 ^ k ∧ el i = r) ∧ ∀ i, i < 2 ^ k → v r ≤ v (el i)))

/-- Element-wise results, and the reductions and the scan over the elements (R56, R65, R171, R173, R184). -/
def Obligations.VectorLanes : Prop := Claims.ElementWise ∧ Claims.ReductionValues

namespace Sys2Proof.Claims

/-! ### The M and X slots -/

/-- A routine takes the last place but for those of the same cycle in its core's queue, with the operation's bundle and `FMT`;
registers and memory stay (R201, R206). -/
def entersArray (s t : State) (h : Hdr) (q : Routine) : Prop :=
  let k := coreOf s.latch.n
  q ∈ (t.core k).queue ∧ (∀ x ∈ (s.core k).queue, x ∈ (t.core k).queue) ∧
    (t.core k).queue.length = (s.core k).queue.length + 1 ∧ q.n = s.latch.n ∧ q.fmt = s.cur.fmtAt s.latch.ic ∧
    q.ba = s.latch.ba ∧ q.arr = (if h.arr then some h.bn.toNat else none) ∧ t.mem = s.mem ∧ t.cur.toRegs = s.cur.toRegs ∧
    ∀ m, m ≠ s.latch.n → t.ctx m = s.ctx m

/-- What the engines of a command leave alone as it is issued: memory, vectors, guards and every other context. -/
def issuesOnly (s t : State) : Prop :=
  t.mem = s.mem ∧ t.cur.v = s.cur.v ∧ t.cur.g = s.cur.g ∧ t.cur.gpend = s.cur.gpend ∧ t.cur.fmt = s.cur.fmt ∧
    ∀ m, m ≠ s.latch.n → t.ctx m = s.ctx m

/-- A command of a copy engine, a relocation engine, a link engine is of the operation being run. -/
def copyIssued (s t : State) (h : Hdr) (c : CopyCmd) : Prop :=
  let cl := clusterOf s.latch.n
  c ∈ (t.cluster cl).queue ∧ (∀ x ∈ (s.cluster cl).queue, x ∈ (t.cluster cl).queue) ∧ c.n = s.latch.n ∧ c.ba = s.latch.ba ∧
    c.arr = (if h.arr then some h.bn.toNat else none) ∧ c.phase = 0 ∧ c.elemAt = 0 ∧ issuesOnly s t
def relocIssued (s t : State) (h : Hdr) (c : RelocCmd) : Prop :=
  let w := wingOf s.latch.n
  c ∈ (t.wing w).reloc ∧ (∀ x ∈ (s.wing w).reloc, x ∈ (t.wing w).reloc) ∧ c.n = s.latch.n ∧ c.ba = s.latch.ba ∧
    c.arr = (if h.arr then some h.bn.toNat else none) ∧ c.phase = 0 ∧ c.tile = 0 ∧ c.table = s.cur.table.core ∧
    issuesOnly s t ∧ t.cur.sa = s.cur.sa
def linkIssued (s t : State) (h : Hdr) (c : LinkCmd) : Prop :=
  let w := wingOf s.latch.n
  c ∈ (t.wing w).link ∧ (∀ x ∈ (s.wing w).link, x ∈ (t.wing w).link) ∧ c.n = s.latch.n ∧ c.ba = s.latch.ba ∧
    c.arr = (if h.arr then some h.bn.toNat else none) ∧ c.gone = false ∧ issuesOnly s t ∧ t.cur.sa = s.cur.sa

/-- The bases that a copy command reads: its destination, source and index registers and the fill register (R229). -/
def copyReads (s : State) (o : QOp) (op : Nat) (d a j v : Word) : Prop :=
  s.BaseIs o.da.toNat (clean d) ∧ (op ≠ 5 → s.BaseIs o.sa.toNat (clean a)) ∧
    (op = 3 ∨ op = 4 → s.BaseIs (o.d.toNat % 16) (clean j)) ∧ (op = 5 → s.SIs o.d.toNat (clean v))

/-- `xcopy`, `xgather`, `xscatter`, `xfill`, with the number by which a command of the engine names its operation. -/
def copyOps : List ((Hdr → QOp → Instr) × Nat) := [(.xcopy, 2), (.xgather, 3), (.xscatter, 4), (.xfill, 5)]

end Sys2Proof.Claims

open Sys2Proof.Claims

/-- R205: `mset` writes a matrix parameter, visible one count on; `mget` delivers one as it stands. -/
def Sys2Proof.Claims.MatrixParameters : Prop :=
  ∀ (h : Hdr) (o : KROp) (s : State), s.Fires h →
    (∀ x : Word, s.SIs o.d.toNat (clean x) → ∃ t, exec (.mset h o) s = .next t ∧ s.Becomes t { s.cur with
      mpPend := laterIns ⟨o.p.toNat, s.latch.ic + 1, x, s.readyAt 1⟩ s.cur.mpPend,
      arrP := s.cur.arrP ++ s.arrival h 1 s.uid }) ∧
    (∃ t, exec (.mget h o) s = .next t ∧ s.WritesS t h o.d.toNat 1 (clean (s.cur.mpAt o.p.toNat s.latch.ic)))

/-- R201, R206, R208, R220, R221, R224: `mcall` that no fence holds back, `mzero` and `mpgm` take a queue entry with the parameters
as they stand; a call of no routine, bad parameters and tiles beyond the storage trap; a full queue makes the call wait. -/
def Obligations.MatrixCalls : Prop :=
  ∀ (h : Hdr) (o : KCOp) (s : State), s.Fires h →
    let k := coreOf s.latch.n
    let e := (s.arr (arrayOf k)).entry o.idx.toNat
    let r := { s.mkRoutine h 0 o.idx.toNat [] with fi := o.fi, fo := o.fo }
    let traps := fun (i : Instr) (c : TrapCode) =>
      ∃ x : TrapRec, x.code = c ∧ x.ba = s.latch.ba ∧ exec i s = .next (s.stat (.trap x))
    let room := (s.routinesAt k).length < 4
    (e.getLsbD 31 = false → traps (.mcall h o) .noRoutine) ∧
    (e.getLsbD 31 = true → o.idx.toNat < 8 → r.badArgs = true → traps (.mcall h o) .matrixArgs) ∧
    (e.getLsbD 31 = true → o.idx.toNat < 7 → r.badArgs = false → 16 * (s.core k).accg.toNat < r.t0 + r.mt * r.nt →
      traps (.mcall h o) .accRange) ∧
    (e.getLsbD 31 = true → (o.idx.toNat < 8 → r.badArgs = false) →
      (o.idx.toNat < 7 → r.t0 + r.mt * r.nt ≤ 16 * (s.core k).accg.toNat) → s.cur.fenced 4 = [] →
      (room → ∃ t q, exec (.mcall h o) s = .next t ∧ entersArray s t h q ∧ q.op = 0 ∧ q.idx = o.idx.toNat ∧
        q.fi = o.fi ∧ q.fo = o.fo ∧ ∀ j, j < 8 → q.m j = s.cur.mpAt j s.latch.ic) ∧
      (¬ room → exec (.mcall h o) s = .next (s.stat .wait))) ∧
    (let d := s.cur.mpAt (o.f.toNat % 8) s.latch.ic
     let mt := (d.extractLsb' 16 8).toNat
     let nt := (d.extractLsb' 24 8).toNat
     let good := 1 ≤ mt ∧ mt ≤ 128 ∧ 1 ≤ nt ∧ nt ≤ 128 ∧ d.extractLsb' 32 32 = 0
     (¬ good → traps (.mzero h o) .matrixArgs) ∧
     (good → 16 * (s.core k).accg.toNat < (d.extractLsb' 0 16).toNat + mt * nt → traps (.mzero h o) .accRange) ∧
     (good → (d.extractLsb' 0 16).toNat + mt * nt ≤ 16 * (s.core k).accg.toNat → room →
       ∃ t q, exec (.mzero h o) s = .next t ∧ entersArray s t h q ∧ q.op = 1 ∧ q.m 3 = d)) ∧
    (∀ a : SVal, s.AIs (o.f.toNat % 16) a →
      (room → ∃ t q, exec (.mpgm h o) s = .next t ∧ entersArray s t h q ∧ q.op = 2 ∧ q.idx = o.idx.toNat ∧ q.pack = a.v.toNat) ∧
      (¬ room → exec (.mpgm h o) s = .next (s.stat .wait)))

/-- R209, R210, R211, R218: `mwait` and `mprov` wait for the context's calls; `mrd` and `mwr` read and write one accumulator
row that no queued routine uses, and trap beyond the storage. -/
def Sys2Proof.Claims.AccumulatorRows : Prop :=
  ∀ (h : Hdr) (o : KROp) (s : State), s.Fires h →
    let k := coreOf s.latch.n
    (s.callsOf s.latch.n = true → exec (.mwait h o) s = .next (s.stat .wait) ∧ exec (.mprov h o) s = .next (s.stat .wait)) ∧
    (s.callsOf s.latch.n = false →
      (∃ t, exec (.mwait h o) s = .next t ∧ s.Becomes t { s.cur with arrP := s.cur.arrP ++ s.arrival h 1 s.uid }) ∧
      (∃ t, exec (.mprov h o) s = .next t ∧ s.WritesS t h o.d.toNat 2 (clean s.cur.prov))) ∧
    (∀ x : Word, s.SIs o.a (clean x) →
      let row := (x + BitVec.ofNat 64 o.row).toNat
      (512 * (s.core k).accg.toNat ≤ row → ∃ r : TrapRec, r.code = .accRange ∧
        exec (.mrd h o) s = .next (s.stat (.trap r)) ∧
        ∀ y, s.VIs o.d.toNat y → exec (.mwr h o) s = .next (s.stat (.trap r))) ∧
      (row < 512 * (s.core k).accg.toNat → (∀ q ∈ s.routinesAt k, q.uses (row / 32) = false) →
        (∃ t, exec (.mrd h o) s = .next t ∧
          let a : AccRow := mget {} (s.core k).acc row
          s.WritesV t h o.d.toNat 2 ⟨{ v := a.v, p := a.p }, []⟩) ∧
        (∀ y : VVal, s.VIs o.d.toNat y → ∃ t, exec (.mwr h o) s = .next t ∧ t.mem = s.mem ∧
          t.cur = { s.cur with arrP := s.cur.arrP ++ s.arrival h 1 s.uid } ∧
          mget ({} : AccRow) (t.core k).acc row = ⟨y.v, y.p⟩ ∧
          ∀ r, r ≠ row → mget ({} : AccRow) (t.core k).acc r = mget {} (s.core k).acc r)))

/-- mset, mget, mwait, mprov, mrd and mwr (R205, R209, R210, R211, R218). -/
def Obligations.MatrixRegisters : Prop := Claims.MatrixParameters ∧ Claims.AccumulatorRows


/-- R228, R232: `xdim` writes one field of a shape register, visible one count on; `xwait` waits while more commands are under way
than its operand says, or were before this cycle, and then delivers their number. -/
def Sys2Proof.Claims.CopyShapes : Prop :=
  ∀ (h : Hdr) (o : QOp) (s : State), s.Fires h →
    (∀ x : Word, s.SIs o.d.toNat (clean x) → ∃ t z, exec (.xdim h o) s = .next t ∧
      s.Becomes t { s.cur with
        xsPend := laterIns ⟨o.xs.toNat, s.latch.ic + 1, z, s.readyAt 1⟩ s.cur.xsPend,
        arrP := s.cur.arrP ++ s.arrival h 1 s.uid } ∧
      let old := s.cur.xsAt o.xs.toNat s.latch.ic
      (o.sa = 0 → z = { old with ext := x.setWidth 32 }) ∧ (o.sa = 1 → z = { old with dstr := x.setWidth 48 }) ∧
      (o.sa = 2 → z = { old with sstr := x.setWidth 48 })) ∧
    (let c := ((s.cluster (clusterOf s.latch.n)).queue.filter (fun c => c.n == s.latch.n)).length
     let before := c + (if s.cur.copyAt = s.cycle then s.cur.copyNow else 0)
     (o.xs.toNat < before → exec (.xwait h o) s = .next (s.stat .wait)) ∧
     (before ≤ o.xs.toNat → ∃ t, exec (.xwait h o) s = .next t ∧
       s.WritesS t h o.d.toNat 1 (clean (BitVec.ofNat 64 c))))

/-- R226, R230, R231: a copy command that no fence holds back takes an entry of its engine's queue with its bases and the shape
registers as they stand, and each register of R231 steps; 2^48 elements or more trap; without elements it retires at once; a full
queue makes it wait. -/
def Sys2Proof.Claims.CopyCommandsSent : Prop :=
  ∀ e ∈ copyOps, ∀ (h : Hdr) (o : QOp) (s : State) (d a j v : Word), s.Fires h → copyReads s o e.2 d a j v →
    s.cur.fenced 3 = [] →
    let ds := (upTo 0 o.dims).map (fun i => s.cur.xsAt (o.xs.toNat + i) s.latch.ic)
    let total := (ds.map (fun x => x.ext.toNat)).prod
    let x : Word := o.xstep.signExtend 64
    let out := ds.getLast?.getD {}
    let room := ((s.cluster (clusterOf s.latch.n)).queue.filter (fun c => c.eng == o.eng && !c.away)).length < 16
    let ri := o.d.toNat % 16
    let next := fun (t : State) (r : Nat) (v : Word) (step : Word) =>
      if step = 0 then ∀ k, t.cur.sa.at (aReg r) k = s.cur.sa.at (aReg r) k
      else Coming t.cur.sa (aReg r) (s.latch.ic + 1) (clean (v + step))
    let steps := fun (t : State) =>
      (e.2 = 2 → o.da ≠ o.sa → next t o.da.toNat d (x * out.ds) ∧ next t o.sa.toNat a (x * out.ss)) ∧
      (e.2 = 3 → o.da.toNat ≠ ri → next t o.da.toNat d (x * out.ds) ∧ next t ri j (x * 4 * out.ext.setWidth 64)) ∧
      (e.2 = 4 → ri ≠ o.sa.toNat → next t ri j (x * 4 * out.ext.setWidth 64) ∧ next t o.sa.toNat a (x * out.ss)) ∧
      (e.2 = 5 → next t o.da.toNat d (x * out.ds)) ∧
      s.KeepsS t (match e.2 with
        | 2 => [aReg o.da.toNat, aReg o.sa.toNat]
        | 3 => [aReg o.da.toNat, aReg ri]
        | 4 => [aReg ri, aReg o.sa.toNat]
        | _ => [aReg o.da.toNat])
    (2 ^ 48 ≤ total → ∃ r : TrapRec, r.code = .copyArgs ∧ exec (e.1 h o) s = .next (s.stat (.trap r))) ∧
    (total < 2 ^ 48 → ¬ room → exec (e.1 h o) s = .next (s.stat .wait)) ∧
    (total = 0 → room → ∃ t, exec (e.1 h o) s = .next t ∧ t.clusters = s.clusters ∧ t.mem = s.mem ∧ steps t ∧
      t.barIn = s.barIn ++ (if h.arr then [arrivalAt s h.bn.toNat 6 none] else [])) ∧
    (0 < total → total < 2 ^ 48 → room → ∃ t c, exec (e.1 h o) s = .next t ∧ copyIssued s t h c ∧
      c.op = e.2 ∧ c.eng = o.eng ∧ c.dims = ds ∧ c.elem = o.elem ∧ c.dst = d.toNat ∧ (e.2 ≠ 5 → c.src = a.toNat) ∧
      (e.2 = 3 ∨ e.2 = 4 → c.idx = j.toNat) ∧ (e.2 = 5 → c.fill = v) ∧
      steps t)

/-- xdim, xwait and the copy commands (R226, R228, R229, R230, R231, R232). -/
def Obligations.CopyCommands : Prop := Claims.CopyShapes ∧ Claims.CopyCommandsSent


/-- R284, R285, R287, R296, R297: `tmove`, `tunmark`, `tunmark.f` and `tsweep` that no fence holds back take an entry of their engine's queue;
misaligned or overlapping tiles, a count out of range and a misaligned status word trap. -/
def Sys2Proof.Claims.RelocationCommands : Prop :=
  ∀ (h : Hdr) (o : QOp) (s : State) (d : Word), s.Fires h → s.cur.fenced 3 = [] →
    let sw := fun (w : Word) => if o.sw then some w.toNat else none
    let status := fun (w : Word) => o.sw = true → s.AIs o.xs.toNat (clean w) ∧ w.toNat % 8 = 0
    let traps := fun (i : Instr) (c : TrapCode) => ∃ r : TrapRec, r.code = c ∧ exec i s = .next (s.stat (.trap r))
    let room := (s.wing (wingOf s.latch.n)).reloc.length < 16
    (∀ a n w : Word, s.AIs o.da.toNat (clean d) → s.AIs o.sa.toNat (clean a) → s.SIs o.d.toNat (clean n) →
      (o.sw = true → s.AIs o.xs.toNat (clean w)) →
      let good := a.toNat % 65536 = 0 ∧ d.toNat % 65536 = 0 ∧ 1 ≤ n.toNat ∧ n.toNat ≤ 4096 ∧
        (a.toNat + n.toNat * 65536 ≤ d.toNat ∨ d.toNat + n.toNat * 65536 ≤ a.toNat)
      (¬ good → traps (.tmove h o) .moveArgs) ∧
      (good → o.sw = true → w.toNat % 8 ≠ 0 → traps (.tmove h o) .misaligned) ∧
      (good → status w → room → ∃ t c, exec (.tmove h o) s = .next t ∧ relocIssued s t h c ∧ c.op = 0 ∧
        c.src = a.toNat ∧ c.dst = d.toNat ∧ c.len = n.toNat ∧ c.sw = sw w) ∧
      (good → status w → ¬ room → exec (.tmove h o) s = .next (s.stat .wait))) ∧
    (∀ w : Word, s.AIs o.da.toNat (clean d) → status w → room →
      (∃ t c, exec (.tunmark h o) s = .next t ∧ relocIssued s t h c ∧ c.op = 1 ∧ c.dst = d.toNat ∧ c.sw = sw w) ∧
      (∃ t c, exec (.tunmarkF h o) s = .next t ∧ relocIssued s t h c ∧ c.op = 2 ∧ c.dst = d.toNat ∧ c.sw = sw w)) ∧
    (∀ n w : Word, s.BaseIs o.da.toNat (clean d) → s.SIs o.d.toNat (clean n) → (o.sw = true → s.AIs o.xs.toNat (clean w)) →
      let good := d.toNat % 8 = 0 ∧ n.toNat % 8 = 0 ∧ n.toNat < 2 ^ 48
      (¬ good → traps (.tsweep h o) .moveArgs) ∧
      (good → status w →
        ((s.cluster (clusterOf s.latch.n)).queue.filter (fun c => c.eng == o.eng && !c.away)).length < 16 →
        ∃ t c, exec (.tsweep h o) s = .next t ∧ copyIssued s t h c ∧ t.cur.sa = s.cur.sa ∧ c.op = 6 ∧ c.eng = o.eng ∧
          c.dst = d.toNat ∧ c.len = n.toNat ∧ c.sw = sw w))

/-- R295: `tstat` of any place sends its request, with a porch entry, and leaves its register waiting at its due count. That its
checks are those of an access of one byte, with no alignment, is the model's reading (log 42, DEDUCED). -/
def Sys2Proof.Claims.MoveStatus : Prop :=
  ∀ (h : Hdr) (o : QOp) (s : State) (b : Word) (tg : Tgt), s.Fires h → s.AIs o.sa.toNat (clean b) →
    s.access (clean b) b 1 false false = .inr tg → s.porchRoom 1 = true →
    let due := s.latch.ic + max 1 o.lof.toNat
    ∃ t acc, exec (.tstat h o) s = .next t ∧ isAccess s acc .tstat tg 8 ∧ acc.ea = b.toNat ∧ acc.due = due ∧
      (o.d.toNat ≠ 0 → LandingOf t.cur.sa o.d.toNat due acc.id) ∧
      ⟨acc.id, s.latch.n, due, false, false, false, []⟩ ∈ (t.core (coreOf s.latch.n)).porch ∧
      (2 ≤ tg.place → t.outq = s.outq ++ [acc] ∧ t.resps = s.resps) ∧
      (tg.place ≤ 1 → t.outq = s.outq ∧
        t.resps = s.resps ++ [⟨acc, toBytes 0 8, [], none, s.cycle + placeLatency tg.place, true⟩]) ∧
      s.KeepsS t [o.d.toNat] ∧ issuesOnly s t

/-- tmove, tunmark, tsweep and tstat take an entry or send a request, or trap (R284, R285, R287, R295, R296, R297). -/
def Obligations.RelocationInstructions : Prop := Claims.RelocationCommands ∧ Claims.MoveStatus


/-- R136, R326, R327, R330, R331, R332: the link instructions, where no fence holds them back. -/
def Obligations.LinkCommands : Prop :=
  ∀ (h : Hdr) (o : QOp) (s : State), s.Fires h → s.cur.fenced 3 = [] →
    let traps := fun (i : Instr) (c : TrapCode) => ∃ r : TrapRec, r.code = c ∧ exec i s = .next (s.stat (.trap r))
    let room := (s.wing (wingOf s.latch.n)).link.length < 32
    let due := s.latch.ic + max 1 o.lof.toNat
    let entry := fun (a : Word) => tLookup s.cur.table.core a.toNat
    -- own scratch: a KIND 1 entry, or one of KIND 2 that names the issuing core (R136)
    let own := fun (e : TEntry) (a : Word) => (e.tgt (coreOf s.latch.n) a.toNat).place = 0
    (∃ t, exec (.ltime h o) s = .next t ∧ s.WritesS t h o.d.toNat 2 (clean s.mod.ticks)) ∧
    (∀ a d x : Word, s.AIs o.sa.toNat (clean a) → s.AIs o.da.toNat (clean d) → s.SIs o.d.toNat (clean x) →
      (a.toNat % 64 ≠ 0 ∨ d.toNat % 64 ≠ 0 → traps (.lsend h o) .misaligned) ∧
      (∀ e f, a.toNat % 64 = 0 → d.toNat % 64 = 0 → entry a = some e → entry d = some f →
        (¬ own e a ∨ f.kind ≠ 5 → traps (.lsend h o) .linkArgs) ∧
        (own e a → f.kind = 5 → e.p = true → f.w = false → traps (.lsend h o) .noWrite) ∧
        (own e a → f.kind = 5 → e.p = true → f.w = true → room → ∃ t c, exec (.lsend h o) s = .next t ∧
          linkIssued s t h c ∧ c.op = 0 ∧ c.src = a.toNat ∧ c.dst = d.toNat ∧ c.tick = x ∧ c.slot = o.xs.toNat % 8 ∧
          c.flits = o.x.toNat + 1))) ∧
    (∀ x : Word, s.SIs o.d.toNat (clean x) →
      ((s.core (coreOf s.latch.n)).owns s.latch.n (o.xs.toNat % 8) = false → traps (.lrecv h o) .linkArgs) ∧
      ((s.core (coreOf s.latch.n)).owns s.latch.n (o.xs.toNat % 8) = true → s.porchRoom 1 = true → room →
        ∃ t c, exec (.lrecv h o) s = .next t ∧ linkIssued s t h c ∧ c.op = 1 ∧ c.slot = o.xs.toNat % 8 ∧
          c.flits = o.x.toNat + 1 ∧ c.timed = decide (x ≠ 0) ∧ c.tick = x ∧ c.dueAt = due ∧
          ⟨c.id, s.latch.n, due, false, false, false, []⟩ ∈ (t.core (coreOf s.latch.n)).porch)) ∧
    (∀ (d a : Word) (e f : TEntry), s.AIs o.da.toNat (clean d) → s.AIs o.sa.toNat (clean a) → entry d = some e → entry a = some f →
      (d.toNat % 64 ≠ 0 ∨ ¬ own e d → traps (.lred h o) .linkArgs) ∧
      (d.toNat % 64 = 0 → own e d → a.toNat % 64 = 0 → own f a → e.p = true → f.p = true →
        let md := (s.cur.fmtAt s.latch.ic).extractLsb' 16 4
        (md ≠ 4 → md ≠ 5 → md ≠ 10 → traps (.lred h o) .linkArgs) ∧
        (md = 4 ∨ md = 5 ∨ md = 10 → (s.core (coreOf s.latch.n)).owns s.latch.n (o.xs.toNat % 8) = true →
          s.porchRoom 1 = true → room → ∃ t c, exec (.lred h o) s = .next t ∧ linkIssued s t h c ∧ c.op = 2 ∧
            c.dst = d.toNat ∧ c.src = a.toNat ∧ c.slot = o.xs.toNat % 8 ∧ c.dueAt = due ∧ c.fmt = s.cur.fmtAt s.latch.ic)))

namespace Sys2Proof.Claims

/-! ### The N slot, the array's microwords, and what does nothing -/

/-- Changes of the sort-and-sample unit, eight counts on (R264). -/
def changesUnit (s t : State) (h : Hdr) (x : NChg) : Prop :=
  s.Becomes t { s.cur with
    npend := npendIns ⟨s.latch.ic + 8, x, s.readyAt 8⟩ s.cur.npend, arrP := s.cur.arrP ++ s.arrival h 8 s.uid }

/-- A change that delivers a scalar as well. -/
def changesAndGives (s t : State) (h : Hdr) (r : Nat) (v : SVal) (x : NChg) : Prop :=
  s.Becomes t { s.cur with
    sa := if r = 0 then s.cur.sa else s.cur.sa.add (s.result r 8 v),
    npend := npendIns ⟨s.latch.ic + 8, x, s.readyAt 8⟩ s.cur.npend,
    arrP := s.cur.arrP ++ s.arrival h 8 (if r = 0 then s.uid else s.uid + 1) }

/-- The sum of the weights of the candidates under a basis, and its poison (R273). -/
def massOf (u : NUnit) : SVal := { v := (lastSum (sums 0 u.weights)).setWidth 64, p := bbit u.bad }

/-- The value of the entry of a rank, and what stands where there is none (R269). -/
def rankValue (u : NUnit) (r : Nat) : Word := match u.cand[r]? with | some e => (keyVal e.key).setWidth 64 | none => 0x7FC00000

/-- A microword that goes on: to the next word, or by LE to the first word of its innermost micro-loop (R222). -/
def goesOn (r r1 : Routine) (le : Bool) : Prop :=
  (le = false ∧ r.uw + 1 < r.prog.length ∧ r1 = { r with uw := r.uw + 1 }) ∨
  (∃ a n l, le = true ∧ r.loops = (a, n) :: l ∧
    ((n ≤ 1 ∧ r.uw + 1 < r.prog.length ∧ r1 = { r with loops := l, uw := r.uw + 1 }) ∨
     (1 < n ∧ a < r.prog.length ∧ r1 = { r with loops := (a, n - 1) :: l, uw := a })))

/-- The next B or A pointer of a mode (R222). -/
def newA (r : Routine) (mode : Nat) (imm : BitVec 32) : Nat :=
  match mode with
  | 0 => (r.pa + (imm.signExtend 64).toNat) % 2 ^ 64
  | 1 => r.ra
  | 2 => (r.ra + (if r.kmA then 32 * mdSize r.ma else 32 * r.lda)) % 2 ^ 64
  | _ => r.ora
def newB (r : Routine) (mode : Nat) (imm : BitVec 32) : Nat :=
  match mode with
  | 0 => (r.pb + (imm.signExtend 64).toNat) % 2 ^ 64
  | 1 => r.rb
  | 2 => (r.rb + (if r.kmB then 32 * mdSize r.mb else 32 * r.ldb)) % 2 ^ 64
  | _ => r.orb

/-- The operations of which a failing guard leaves nothing (R113), by the shape of their operands. -/
def offT : List (Hdr → TOp → Instr) :=
  twoSource.map (fun e => e.1) ++ oneSource.map (fun e => e.1) ++ divisions.map (fun e => e.1) ++
    [.sel, .amovAS, .amovSA, .amovAA]
def offI : List (Hdr → IOp → Instr) := withImmediate.map (fun e => e.1) ++ [.li, .lih, .bfx, .bfi, .lea]
def offM : List (Hdr → MOp → Instr) := [.ld, .ldu, .vld, .st, .vst, .ldt, .vldt, .tchase] ++ atomics.map (fun e => e.1)
def offQ : List (Hdr → QOp → Instr) :=
  [.xcopy, .xgather, .xscatter, .xfill, .tmove, .tunmark, .tunmarkF, .tsweep, .lsend]

end Sys2Proof.Claims

open Sys2Proof.Claims

/-- R41, R75, R26: the nops of every slot and the empty bundle change nothing. -/
def Sys2Proof.Claims.NopsDoNothing : Prop :=
  ∀ (s : State) (h : Hdr),
    (∀ o, exec (.nop h o) s = .next s) ∧ (∀ o, exec (.nopS h o) s = .next s) ∧ (∀ o, exec (.nopL h o) s = .next s) ∧
    (∀ o, exec (.nopV h o) s = .next s) ∧ (∀ o, exec (.nopM h o) s = .next s) ∧
    (∀ o, exec (.nopX h o) s = .next s) ∧ (∀ o, exec (.nopN h o) s = .next s) ∧
    ∀ stop rep hint, exec (.emptyBundle stop rep hint) s = .next s

/-- R113: an operation whose guard is resolved to the failing sense has no effect, whatever its operands hold. -/
def Sys2Proof.Claims.FailingGuards : Prop :=
  ∀ (s : State) (h : Hdr), s.guard h = none → s.cur.ownOpen h s.latch.ic = [] →
    (∀ i ∈ offT, ∀ o, exec (i h o) s = .next s) ∧ (∀ i ∈ offI, ∀ o, exec (i h o) s = .next s) ∧
    (∀ i ∈ offM, ∀ o, exec (i h o) s = .next s) ∧ (∀ i ∈ offQ, ∀ o, exec (i h o) s = .next s) ∧
    (∀ e ∈ vectorTwo, ∀ o : VOp, o.foOk = true → exec (e.1 h o) s = .next s) ∧
    (∀ e ∈ vectorThree, ∀ o : VOp, o.foOk = true → exec (e.1 h o) s = .next s)

/-- Nops, empty bundles and operations whose guard fails change nothing (R26, R41, R113). -/
def Obligations.NoEffect : Prop := Claims.NopsDoNothing ∧ Claims.FailingGuards


/-- R261, R263, R267, R271, R272, R274, R277: operations that change the unit, visible eight counts on; the `nhist` forms where
`NCTL`.EXACT is 1 (R265). That the count of `nthr.p` is poisoned where a candidate is, is the model's reading (log 38, DEDUCED). -/
def Sys2Proof.Claims.SortUnitChanges : Prop :=
  ∀ (h : Hdr) (o : NOp) (s : State), s.Fires h →
    let u := s.cur.nAt s.latch.ic
    (∃ t, exec (.nclr h o) s = .next t ∧ changesUnit s t h .clr) ∧
    (∀ x : VVal, s.VIs o.a.toNat x →
      (∃ t, exec (.nmergeP h o) s = .next t ∧ changesUnit s t h (.merge (savedPairs x))) ∧
      (s.cur.nunit.exact = true → ∃ t, exec (.nhist h o) s = .next t ∧ changesUnit s t h (.hist false (fElems x))) ∧
      (s.cur.nunit.exact = true → ∃ t, exec (.nhistM h o) s = .next t ∧ changesUnit s t h (.hist true (fElems x))) ∧
      ∀ y : Word, s.SIs o.b.toNat (clean y) →
        ∃ t, exec (.nmerge h o) s = .next t ∧ changesUnit s t h (.merge (mergePairs x y))) ∧
    (∀ x : Word, s.SIs o.a.toNat (clean x) →
      (∃ t, exec (.nthr h o) s = .next t ∧
        changesAndGives s t h o.d.toNat
          (clean (BitVec.ofNat 64 (u.cand.filter (fun e => !(e.key.ult (x.setWidth 32)))).length)) (.thr (x.setWidth 32))) ∧
      (∃ t v, exec (.nkth h o) s = .next t ∧ changesAndGives s t h o.d.toNat v (.keep x.toNat) ∧
        v.v = (if min x.toNat u.cand.length = 0 then 0x7FC00000 else rankValue u (min x.toNat u.cand.length - 1))) ∧
      (∃ t v, exec (.nthrP h o) s = .next t ∧ changesAndGives s t h o.d.toNat v (.keep (u.prefix (x.setWidth 32))) ∧
        v.p = bbit u.bad ∧ v.v = BitVec.ofNat 64 (u.prefix (x.setWidth 32))) ∧
      ∀ y : Word, s.SIs o.b.toNat (clean y) →
        (s.cur.nunit.exact = true → ∃ t, exec (.nhistSet h o) s = .next t ∧ changesUnit s t h (.hset (x.setWidth 32) (y.setWidth 2))) ∧
        (∃ t, exec (.nrng h o) s = .next t ∧ changesUnit s t h (.key x y)) ∧
        (∃ t, exec (.nmass h o) s = .next t ∧ changesAndGives s t h o.d.toNat
          (massOf { u with massM := x.setWidth 32, massT := y.setWidth 32 }) (.basis (x.setWidth 32) (y.setWidth 32))))

/-- R268, R269, R270, R274, R275, R277: operations that deliver what the unit holds; `nhist.rd` where `NCTL`.EXACT is 1 (R265). -/
def Sys2Proof.Claims.SortUnitResults : Prop :=
  ∀ (h : Hdr) (o : NOp) (s : State), s.Fires h →
    let u := s.cur.nAt s.latch.ic
    (∀ x : VVal, s.VIs o.a.toNat x →
      (∃ t, exec (.nsort h o) s = .next t ∧ s.WritesV t h o.d.toNat 8 ⟨sortVal false x, []⟩) ∧
      (∃ t, exec (.nsortI h o) s = .next t ∧ s.WritesV t h o.d.toNat 8 ⟨sortVal true x, []⟩) ∧
      (∃ t v, exec (.nsampleShard h o) s = .next t ∧ s.WritesS t h o.d.toNat 8 v ∧
        v.v = BitVec.ofNat 64 (draw (drawU u.q u.n 0) ((fElems x).map (fun e => shardWeight e.1))))) ∧
    (∀ x : SVal, s.SIs o.a.toNat x →
      (∃ t v, exec (.ntop h o) s = .next t ∧ s.WritesS t h o.d.toNat 2 v ∧
        v.v = (match u.cand[x.v.toNat]? with | some e => e.idx.setWidth 64 | none => -1)) ∧
      (∃ t v, exec (.ntopK h o) s = .next t ∧ s.WritesS t h o.d.toNat 2 v ∧
        v.v = (match u.cand[x.v.toNat]? with | some e => e.key.setWidth 64 | none => 0)) ∧
      (∃ t v, exec (.ntopV h o) s = .next t ∧ s.WritesS t h o.d.toNat 2 v ∧ v.v = rankValue u x.v.toNat)) ∧
    (s.cur.nunit.exact = true → ∃ t, exec (.nhistRd h o) s = .next t ∧ s.WritesV t h o.d.toNat 8 ⟨histVal (o.b.toNat % 16) u, []⟩) ∧
    (∀ x : Word, s.SIs o.a.toNat (clean x) → ∃ t, exec (.nrngX h o) s = .next t ∧
      let z := philox u.q u.n (x.toNat % 2 ^ 32)
      s.WritesS t h o.d.toNat 4 (clean (BitVec.ofNat 64 (z.2.1 * 2 ^ 32 + z.1)))) ∧
    (u.cand.length ≤ 64 → ∃ t v, exec (.nsampleTok h o) s = .next t ∧ s.WritesS t h o.d.toNat 8 v ∧ v.p = bbit u.bad ∧
      v.v = (match u.cand[draw (drawU u.q u.n 1) u.weights]? with | some e => e.idx.setWidth 64 | none => -1)) ∧
    (∃ t, exec (.nsave h o) s = .next t ∧ s.WritesV t h o.d.toNat 2 ⟨saveVal o.sub.toNat u, []⟩)

/-- Operations of the sort-and-sample unit (R264, R267, R268, R269, R270, R271, R272, R273, R274, R275, R277). -/
def Obligations.SortUnit : Prop := Claims.SortUnitChanges ∧ Claims.SortUnitResults


/-- R261, R263, R267, R271, R272: whatever changes the unit, its cupboard holds at most 64 candidates in rank order, none
below the threshold. -/
def Obligations.CupboardStaysRanked : Prop :=
  ∀ (u : NUnit) (x : NChg),
    let good := fun (w : NUnit) => w.cand.length ≤ 64 ∧ (∀ e ∈ w.cand, w.thr.toNat ≤ e.key.toNat) ∧
      w.cand.Pairwise (fun e f => f.key.toNat < e.key.toNat ∨ (e.key = f.key ∧ e.idx.toNat ≤ f.idx.toNat))
    good u → good (u.apply x)

/-- R268: `nsort` writes the 32 elements of its source in rank order, `nsort.i` their positions, and poison travels with each;
the unit is not touched. `p` is the order: the larger key image first (R262, R263), then the lower position. That an element that
is a NaN is written with the bits with which it was read is the model's reading (log 37, DEDUCED). -/
def Obligations.SortsOneVector : Prop :=
  ∀ (h : Hdr) (o : NOp) (s : State) (x : VVal), s.Fires h → s.VIs o.a.toNat x →
    let elem := fun (i : Nat) => x.v.extractLsb' (32 * i) 32
    ∃ (p : List Nat) (v w : VVal) (t u : State),
      p.Perm (List.range 32) ∧
      p.Pairwise (fun i j => (keyOf (elem j)).toNat < (keyOf (elem i)).toNat ∨ (keyOf (elem i) = keyOf (elem j) ∧ i < j)) ∧
      exec (.nsort h o) s = .next t ∧ s.WritesV t h o.d.toNat 8 ⟨v, []⟩ ∧
      exec (.nsortI h o) s = .next u ∧ s.WritesV u h o.d.toNat 8 ⟨w, []⟩ ∧
      ∀ j i, p[j]? = some i → v.v.extractLsb' (32 * j) 32 = elem i ∧ v.p.getLsbD j = x.p.getLsbD i ∧
        w.v.extractLsb' (32 * j) 32 = BitVec.ofNat 32 i ∧ w.p.getLsbD j = x.p.getLsbD i

/-- R222: the microwords that only move the routine's own pointers, counters and switches, one owned cycle each. `WIN` waits for the first
window behind this cycle that is the core's own (R199), or in `FUSED` for the first of all. -/
def Sys2Proof.Claims.MicrowordsOfPointers : Prop :=
  ∀ (u : UopArg) (s : State) (r : Routine), s.evRoutine = some r →
    let moves := fun (i : UopArg → Instr) (x : Routine) =>
      ∀ y, goesOn x y u.le → exec (i u) s = .next (s.setRoutine (coreOf r.n) { y with busy := 1 })
    let mode := (u.arg.extractLsb' 55 2).toNat
    let imm := u.arg.extractLsb' 0 32
    moves .uopNop r ∧
    moves .uopAdva { r with
      pa := newA r mode imm, ka := 0, ra := if mode = 2 then newA r 2 imm else if mode = 3 then r.ora else r.ra } ∧
    moves .uopAdvb { r with
      pb := newB r mode imm, kb := 0, rb := if mode = 2 then newB r 2 imm else if mode = 3 then r.orb else r.rb } ∧
    moves .uopAcc { r with t := if u.arg.getLsbD 57 then r.t + 1 else r.tb + (u.arg.extractLsb' 0 16).toNat, kstep := 0 } ∧
    moves .uopProv { r with provOn := u.arg.getLsbD 57 } ∧
    moves .uopTrn { r with kmA := u.arg.getLsbD 57, kmB := u.arg.getLsbD 56 } ∧
    moves .uopScl { r with scA := u.arg.getLsbD 57, scB := u.arg.getLsbD 56 } ∧
    (let window := fun (w : Nat) => s.cycle < w ∧ w % 4 = 0 ∧
       ((s.arr (arrayOf (coreOf r.n))).mode = true ∨ w / 4 % 2 = coreOf r.n % 2)
     ∃ w, window w ∧ (∀ v, window v → w ≤ v) ∧ moves .uopWin { r with winAt := w }) ∧
    (r.loops.length < 4 → moves .uopLoopu { r with loops := (r.uw + 1, r.loopCount u) :: r.loops }) ∧
    (4 ≤ r.loops.length → exec (.uopLoopu u) s = .next (s.killRoutine (coreOf r.n) r (r.trap .microcode 0))) ∧
    (let a := (u.arg.extractLsb' 54 4).toNat
     let b := (u.arg.extractLsb' 50 4).toNat
     let ok := fun (p : Nat) => p = 0 ∨ (2 ≤ p ∧ p ≤ 8)
     (ok a → ok b → moves .uopBpip { r with plA := if a = 0 then r.plA else a, plB := if b = 0 then r.plB else b }) ∧
     (¬ (ok a ∧ ok b) → exec (.uopBpip u) s = .next (s.killRoutine (coreOf r.n) r (r.trap .microcode 0))))

/-- Pointers of a routine whose `DRN` has drained its tile (R222): PD and RD by PDM; that PS moves with Q is the model's choice (log 112). -/
def Sys2Proof.Claims.afterDrain (r : Routine) (u : UopArg) : Routine :=
  let m := (u.arg.extractLsb' 55 2).toNat
  let r1 := { r with drow := 0, ps := if u.arg.getLsbD 57 then (r.ps + 32) % 2 ^ 64 else r.ps }
  if m = 1 then { r1 with pd := (r.pd + 32 * mdSize r.md) % 2 ^ 64 }
  else if m = 2 then { r1 with pd := (r.rd + 32 * r.ldb) % 2 ^ 64, rd := (r.rd + 32 * r.ldb) % 2 ^ 64 }
  else r1

/-- R219, R222: a `DRN` without Q, in one of the formats 1 to 9, whose 32 rows lie in own scratch through present and writable entries,
delivers them: each element of tile T, rounded to MD, goes to the array's place at the port (R145) with its poison; the pointers move by
PDM and the routine goes on to its next word, 32 owned cycles later. Nothing else changes but the provenance record. -/
def Sys2Proof.Claims.TilesDrained : Prop :=
  ∀ (u : UopArg) (s : State) (r y : Routine), s.evRoutine = some r →
    let k := coreOf r.n
    let e := mdSize r.md
    let at' := fun (m i : Nat) => r.pd + m * r.ldb + i * e
    let value := fun (w : Nat) =>
      let z := (eCvt (if r.flag 4 then 8 else 1) r.md r.rm (r.flag 3) w).1
      match fmtOf r.md with
      | some f => if r.foOn then f.flush z else z
      | none => z
    1 ≤ r.md → r.md ≤ 9 → r.drow = 0 → r.t < 16 * (s.core k).accg.toNat → u.arg.getLsbD 57 = false →
    ∀ en : Nat → Nat → TEntry,
    (∀ m i, m < 32 → i < 32 → at' m i < 2 ^ 48 ∧ at' m i % e = 0 ∧ tLookup (s.ctx r.n).table.eng (at' m i) = some (en m i) ∧
      (en m i).p = true ∧ (en m i).w = true ∧ (en m i).kind = 1 ∧ (en m i).mv = false) →
    goesOn { afterDrain r u with row := r.row + 32 } y u.le →
    ∃ t q ws, exec (.uopDrn u) s = .next t ∧ t = { s.setRoutine k q with portW := s.portW ++ ws } ∧
      q = { y with busy := 32, prov := q.prov, provK := q.provK } ∧ ws.length = 1024 ∧
      ∀ m i, m < 32 → i < 32 → ∃ p, ws[32 * m + i]? = some p ∧ p.rank = arrayRank k ∧ p.acc.kind = .store ∧
        p.acc.home = ((en m i).tgt k (at' m i)).home ∧
        let row : AccRow := mget {} (s.core k).acc (32 * r.t + m)
        p.acc.data = toBytes (value (row.v.extractLsb' (32 * i) 32).toNat) e ∧ p.bad = List.replicate e (row.p.getLsbD i)

/-- R198, R219, R222, R223: the microwords that use a tile, arrive, or end the routine. That `END` ends it with LE = 1 too is the model's
choice (log 116, DESIGN CHOICE). -/
def Sys2Proof.Claims.MicrowordsOfTiles : Prop :=
  ∀ (u : UopArg) (s : State) (r y : Routine), s.evRoutine = some r →
    let k := coreOf r.n
    let out := 16 * (s.core k).accg.toNat ≤ r.t
    let kills := fun (i : Instr) => exec i s = .next (s.killRoutine k r (r.trap .accRange 0))
    (out → kills (.uopStep u) ∧ kills (.uopClr u) ∧ kills (.uopDrn u)) ∧
    (¬ out → goesOn r y u.le → ∃ t, exec (.uopClr u) s = .next t ∧ t.mem = s.mem ∧ (∀ m, t.ctx m = s.ctx m) ∧
      ∀ i, mget ({} : AccRow) (t.core k).acc i = if i / 32 = r.t then {} else mget {} (s.core k).acc i) ∧
    (∀ s1 r1, s.stepPipe r = .ok s1 r1 () →
      goesOn { (r1.stepA (u.arg.getLsbD 57)).stepB (u.arg.getLsbD 56) with row := r1.row + 1, kstep := r1.kstep + 1 } y u.le →
      exec (.uopStep u) s = .next (s1.setRoutine (coreOf r1.n) { y with busy := 1 })) ∧
    (∀ s1 r1 n, s.drainPipe r (u.arg.getLsbD 57) = .ok s1 r1 n → r1.drow < 32 →
      exec (.uopDrn u) s = .next (s1.setRoutine (coreOf r1.n) { r1 with busy := n })) ∧
    (∀ s1 r1 n, s.drainPipe r (u.arg.getLsbD 57) = .ok s1 r1 n → 32 ≤ r1.drow → goesOn (afterDrain r1 u) y u.le →
      exec (.uopDrn u) s = .next (s1.setRoutine (coreOf r1.n) { y with busy := n })) ∧
    (goesOn r y u.le → exec (.uopArr u) s = .next ((s.toBarrier r.n 5 r.ba (u.arg.extractLsb' 54 4).toNat none).setRoutine k
      { y with busy := 1 })) ∧
    exec (.uopEnd u) s = .next (s.setRoutine k { r with ended := true, busy := 1 })

/-- The microwords of an array routine (R145, R198, R199, R219, R222, R223). -/
def Obligations.Microwords : Prop := Claims.MicrowordsOfPointers ∧ Claims.MicrowordsOfTiles ∧ Claims.TilesDrained


namespace Sys2Proof.Claims

/-! ### Events of the contexts -/

/-- Every context of a kernel has stopped, with an empty larder, or stops at its next bundle boundary where it stands within the repeats
of a bundle (R348). -/
def stopped (s u : State) (k : Nat) : Prop :=
  ∀ m ∈ s.ctxsOf k, (s.midRep m = false → (u.ctx m).mode = .halted ∧ (u.ctx m).larder = []) ∧ (s.midRep m = true → (u.ctx m).dies = true)

/-- A context is by itself: not fused, and in no carry loop. -/
def alone (s : State) (n : Nat) : Prop := (s.ctx n).fuseW ≤ 1 ∧ (s.ctx n).cloop.on = false

/-- Eight bytes of a frame as a number. -/
def word8 (f : List Byte) (o : Nat) : Nat := leBytes ((f.drop o).take 8)

/-- Every other context stays. -/
def othersStay (s u : State) (n : Nat) : Prop := ∀ m, m ≠ n → u.ctx m = s.ctx m

end Sys2Proof.Claims

open Sys2Proof.Claims

/-- R344: the layout of a trap frame. RA is the bundle that the trap names, or the next one where it is raised at a bundle boundary. -/
def Sys2Proof.Claims.FrameLayout : Prop :=
  ∀ (s : State) (n : Nat) (t : TrapRec) (dbl : Bool),
    let f := s.frame n t dbl
    let c := s.ctx n
    let w := BitVec.ofNat 64 (word8 f 0)
    f.length = 128 ∧ (w.extractLsb' 0 8).toNat = t.code.num ∧ (w.extractLsb' 8 3).toNat = t.slot % 8 ∧
      w.getLsbD 11 = t.deferred ∧ w.getLsbD 12 = dbl ∧ w.getLsbD 15 = decide (1 < c.fuseW) ∧ w.getLsbD 16 = c.lvl ∧
      (w.extractLsb' 24 7).toNat = coreOf n ∧ w.getLsbD 31 = decide (n % 2 = 1) ∧ w.extractLsb' 32 32 = 0 ∧
      word8 f 8 = t.ba % 2 ^ 64 ∧ word8 f 16 = (if t.deferred = true ∨ t.ra = 0 then (s.leadC n).nextPc else t.ra) % 2 ^ 64 ∧ word8 f 24 = t.info0.toNat ∧ word8 f 32 = t.info1.toNat ∧
      word8 f 40 = c.ic % 2 ^ 64 ∧ word8 f 48 = t.scy.toNat ∧ word8 f 56 = 0 ∧
      ∀ i, i < 4 → word8 f (64 + 8 * i) = (c.sNow (60 + i)).toNat

/-- R347: a handled trap of a context outside a handler, with a handler and a frame area, is taken: the frame goes to the
port, `s60` holds the frame's address, LVL and INH are set, and the context continues at the handler. -/
def Sys2Proof.Claims.TrapTaken : Prop :=
  ∀ (s : State) (t : TrapRec) (g : Tgt),
    let n := s.ev.n
    let c := s.ctx n
    alone s n → c.trapP = some t → t.forceFatal = false → 1 ≤ t.code.num → t.code.num ≤ 6 → c.tvec ≠ 0 → c.inh = false →
    s.frameHome n = some g →
    ∃ u, exec .trapEntry s = .next u ∧
      (∃ rank a, u.portW = s.portW ++ [⟨rank, a, [], true⟩] ∧ a.kind = .store ∧ a.home = g.home ∧ a.data = s.frame n t false) ∧
      othersStay s u n ∧
      let d := u.ctx n
      d.pc = c.tvec.toNat ∧ d.lvl = true ∧ d.inh = true ∧ d.larderOff = t.deferred ∧ d.group = [] ∧ d.go = none ∧
        d.trapP = c.trapQ.head? ∧ d.trapQ = c.trapQ.drop 1 ∧ d.mode = c.mode ∧ d.larder = c.larder ∧ d.loops = c.loops ∧ d.v = c.v ∧ d.g = c.g ∧
        d.gpend = c.gpend ∧ d.fmt = c.fmt ∧ d.tvec = c.tvec ∧ d.tfa = c.tfa ∧
        (∀ k, d.sa.at 60 k = [{ val := clean c.tfa }]) ∧ ∀ r, r ≠ 60 → ∀ k, d.sa.at r k = c.sa.at r k

/-- The trap frame, and how a handled trap is taken (R344, R347). -/
def Obligations.HandledTraps : Prop := Claims.FrameLayout ∧ Claims.TrapTaken


/-- R348, R354, R294, R357: a fatal trap, a page fault or a chain without a mark, and the watchdog stop every context of the
kernel, each at its next bundle boundary; with a mark the context returns to it and waits for its fault. -/
def Obligations.KernelStops : Prop :=
  ∀ (s : State) (t : TrapRec),
    let n := s.ev.n
    let c := s.ctx n
    (c.fatalP = some t → c.trapP = none → c.trapQ = [] → s.firstFatal n = some t) ∧
    (c.dies = true → ∃ u, exec .fatalTrap s = .next u ∧ (u.ctx n).mode = .halted ∧ (u.ctx n).larder = [] ∧ othersStay s u n) ∧
    (c.dies = false → s.firstFatal n = some t → ∃ u, exec .fatalTrap s = .next u ∧ stopped s u c.kernel ∧
      ∀ e, s.mod.kernels.find? (fun e => e.1 == c.kernel) = some e → e.2.dying = none →
        u.mod.kernels.find? (fun e => e.1 == c.kernel) = some (c.kernel,
          { e.2 with dying := some 1, frame := s.frame n t (t.code.handled && !t.forceFatal && c.inh) })) ∧
    (∃ u, exec .watchdog s = .next u ∧ stopped s u c.kernel) ∧
    (c.faultP = some t → c.shadow = none → ∃ u, exec .pageFault s = .next u ∧ stopped s u c.kernel) ∧
    (∀ m, s.ev.who = .core m → (s.ctx m).faultP = some t → (s.ctx m).shadow = none →
      ∃ u, exec .markChain s = .next u ∧ stopped s u (s.ctx m).kernel) ∧
    (∀ z, c.faultP = some t → c.shadow = some z → z.cloop.on = false → alone s n →
      ∃ u f, exec .pageFault s = .next u ∧ (u.ctx n).toRegs = z.regs ∧ (u.ctx n).pc = z.addr ∧ (u.ctx n).larder = [] ∧
        (u.ctx n).hold = .data f ∧ u.faultOpen f = true ∧ (u.ctx n).faultP = none ∧ othersStay s u n)

/-- R20, R98, R128, R27, R354, R100, R357: what other events of a core and a context change. That a fill of a cache with room keeps
every line is the model's choice (log 90, DESIGN CHOICE). -/
def Obligations.ContextEvents : Prop :=
  ∀ s : State,
    let n := s.ev.n
    let k := s.ev.core
    exec .freezeEnd s = .next (s.onCore k (fun d => { d with eccUntil := 0 })) ∧
    exec .bPrecedence s = .next (s.onCore k (fun d => { d with bFirst := true, blocked := 0 })) ∧
    exec .watchdogOverrun s = .next (s.onCtx n (fun c => { c with ovr := true, fs := c.fs || c.pend, hw := 0x018 :: c.hw })) ∧
    (∀ e l b sl ba due, (s.ctx n).larder = e :: l → e.dead = false → (s.ctx n).larderOff = false → (s.leadC n).cloop.on = false →
      (e.tag ≠ [] → exec .larderRelease s = .next s) ∧
      (e.tag = [] → e.op = .arrive b sl ba due [] → due ≤ (s.ctx n).ic → ∃ u, exec .larderRelease s = .next u ∧
        u.barIn = s.barIn ++ [⟨clusterOf n, b, s.cycle + 2, coreOf n, n % 2 == 1, sl, ba, none⟩] ∧
        (u.ctx n).larder = (s.ctx n).larder.filter (fun x => x.id != e.id) ∧ othersStay s u n ∧ u.mem = s.mem)) ∧
    (∃ u, exec .icacheFill s = .next u ∧ u = { s with cores := u.cores, picks := u.picks } ∧
      (∀ j, j ≠ coreOf n → u.core j = s.core j) ∧
      ((s.core (coreOf n)).lines.length < cacheLines → ∀ l ∈ (s.core (coreOf n)).lines, l ∈ (u.core (coreOf n)).lines) ∧
      (∀ l ∈ (s.core (coreOf n)).lines, (s.core (coreOf n)).locks.any (fun x => x.2 == l.1) = true →
        l ∈ (u.core (coreOf n)).lines) ∧
      let v := s.ev.addr - s.ev.addr % 64
      ∀ hm, (s.ctx n).canFetch v = true → s.fetchHome n v = some hm →
        ∃ l ∈ (u.core (coreOf n)).lines, l.1 = lineKey (s.ctx n).asid s.ev.addr) ∧
    (∃ u f, exec .fetchFault s = .next u ∧ (u.ctx n).hold = .fetch f ∧ u.faultOpen f = true ∧ othersStay s u n) ∧
    (s.MemInv → s.mod.posts = [] → ∃ u, exec .fbdMarkDone s = .next u ∧
      (let i := s.ev.idx % 256
       u.fbValid i = false ∧ ∀ w ∈ u.mod.waits, w.2 ≠ some i) ∧ ∀ m, u.ctx m = s.ctx m) ∧
    (∃ u, exec .fuseJoin s = .next u ∧ u.mem = s.mem ∧
      (∀ j, j < s.ev.idx → u.ctx (n + 2 * j) = { s.ctx (n + 2 * j) with pass := true, ic := (s.ctx n).ic }) ∧
      ∀ m, (∀ j, j < s.ev.idx → m ≠ n + 2 * j) → u.ctx m = s.ctx m) ∧
    (∃ u, exec .superstepComplete s = .next u ∧ u.mem = s.mem ∧
      ∀ m ∈ s.ctxsOf s.ev.id, s.reachesSstep m = true → (u.ctx m).pass = true ∧ (u.ctx m).reach = .none)

/-- R31, R41, R27: the next issue group of a context. A misaligned address is reported; a group that is fetched and passes its
checks is taken whole. -/
def Obligations.IssueGroups : Prop :=
  ∀ s : State,
    let n := s.ev.n
    let va := (s.ctx n).pc
    let s1 := s.evict n (linesOf va 1048)
    let bs := s1.assemble n (s.ctx n).fuseW va 4
    (va % 2 = 1 → ∃ t : TrapRec, t.code = .fetchAlign ∧ exec .issueGroup s = .next (s.onCtx n (fun c => c.report t))) ∧
    (va % 2 = 0 → (s.ctx n).part = none → s1.fetchBad n bs = none →
      (s1.fillLines n (linesOf va (groupEnd va bs - va))).checkGroup n va (s.ctx n).fuseW bs = none →
      ∃ u, exec .issueGroup s = .next u ∧ u.mem = s.mem ∧ othersStay s u n ∧
        (u.ctx n).gaddr = va ∧ (u.ctx n).gnext = groupEnd va bs ∧ (u.ctx n).toRegs = (s.ctx n).toRegs ∧
        (u.ctx n).group.map (fun g => (g.addr, g.hdr, g.ops, g.left)) =
          bs.map (fun b => (b.1, b.2.hdr, b.2.ops, b.2.hdr.rep.toNat + 1)))

namespace Sys2Proof.Claims

/-- Breakpoint `i` is the first that names the next bundle, which is not the one that a resume issues (R359, R360). -/
def breaks (c : Ctx) (i : Nat) : Prop :=
  let names := fun (j : Nat) =>
    (mget 0 c.bka j).getLsbD 63 = true ∧ 2 * ((mget 0 c.bka j).extractLsb' 1 47).toNat = c.nextPc
  c.dbg.getLsbD 63 = true ∧ c.resumed ≠ some c.nextPc ∧ i < 4 ∧ names i ∧ ∀ j, j < i → ¬ names j

/-- The cause of a stop before the next bundle, of the smallest WHY (R359): a `dstop`, a watchpoint or a single step asked for one (1, 3
or 4), a breakpoint (2), or the host (5). -/
def causes (c : Ctx) (why idx : Nat) : Prop :=
  (c.stopReq = some (why, idx) ∧ (why < 2 ∨ ∀ i, ¬ breaks c i)) ∨
  (why = 2 ∧ breaks c idx ∧ ∀ w i, c.stopReq = some (w, i) → 2 ≤ w) ∨
  (why = 5 ∧ idx = 0 ∧ c.hostReq = true ∧ c.stopReq = none ∧ ∀ i, ¬ breaks c i)

/-- Watchpoint `i` meets an access: enabled, for its kind, and over the bytes of its range (R359, R360). -/
def watches (c : Ctx) (i kd ea size : Nat) : Prop :=
  let w := mget 0xC0000000000000 c.wpt i
  let n := 2 ^ (w.extractLsb' 54 6).toNat
  let lo := (w.extractLsb' 0 48).toNat / n * n
  w.getLsbD 63 = true ∧ w.getLsbD kd = true ∧ ea < lo + n ∧ lo < ea + size

end Sys2Proof.Claims

/-- R358, R359, R360, R363, R381: switches, debug stops of every cause, samples and the budget. -/
def Obligations.SwitchesAndStops : Prop :=
  ∀ s : State,
    let n := s.ev.n
    let c := s.ctx n
    (n < 192 → s.ev.idx ≠ 1 → c.mode = .running → c.fuseW ≤ 1 →
      ∃ u m, exec .switchOut s = .next u ∧ (u.ctx n).mode = .off ∧ m % 192 = n ∧ 192 ≤ m ∧ (u.ctx m).mode = .switchedOut ∧
        (u.ctx m).toRegs = c.toRegs ∧ (u.ctx m).pc = c.pc ∧ (u.ctx m).kernel = c.kernel) ∧
    (c.mode = .switchedOut → c.cloop.on = false → (1 < c.fuseW → (s.ctx c.fuse0).cloop.on = false) → ∃ u, exec .switchIn s = .next u ∧
      (u.ctx (n % 192)).toRegs = c.toRegs ∧ (u.ctx (n % 192)).pc = c.pc ∧ (u.ctx (n % 192)).kernel = c.kernel ∧
      (u.ctx (n % 192)).mode ≠ .switchedOut) ∧
    (∀ e, s.ev.idx = 1 → s.mod.kernels.find? (fun e => e.1 == s.ev.id) = some e → s.kernelLeft s.ev.id = true → ∃ u k,
      exec .switchOut s = .next u ∧ u.mod.kernels.find? (fun e => e.1 == s.ev.id) = some (s.ev.id, k) ∧ k.state = .out ∧
        k.used = e.2.used ∧ k.prio = e.2.prio) ∧
    (∀ e, s.mod.kernels.find? (fun e => e.1 == s.ev.id) = some e → ∃ u, exec .budgetExceeded s = .next u ∧
      u.mod.kernels.find? (fun e => e.1 == s.ev.id) = some (s.ev.id, { e.2 with overB := true, preq := true }) ∧
      ∀ m ∈ s.ctxsOf s.ev.id, (s.ctx m).mode = .running → (u.ctx m).pend = true) ∧
    (∀ kd ea size i, s.cur.dbg.getLsbD 63 = true → s.cur.stopReq = none → i < 2 → watches s.cur i kd ea.toNat size →
      (∀ j, j < i → ¬ watches s.cur j kd ea.toNat size) → (s.watch kd ea size).cur.stopReq = some (3, i)) ∧
    (c.dbg.getLsbD 63 = true → c.dbg.getLsbD 62 = true → c.stopReq = none → c.stepped.stopReq = some (4, 0)) ∧
    (∀ why idx, c.fuseW ≤ 1 → causes c why idx → why < 8 → ∃ u, exec .debugStop s = .next u ∧
      (u.ctx n).mode = .stopped ∧ (u.ctx n).toRegs = c.toRegs ∧ othersStay s u n ∧
      let d := (u.ctx n).dbg
      d.extractLsb' 62 2 = c.dbg.extractLsb' 62 2 ∧ d.getLsbD 61 = true ∧ (d.extractLsb' 58 3).toNat = why ∧
        (d.extractLsb' 56 2).toNat = idx % 4 ∧ (d.extractLsb' 0 47).toNat = c.nextPc / 2 % 2 ^ 47) ∧
    (c.fuseW ≤ 1 → c.mode = .stopped → ∃ u, exec .debugResume s = .next u ∧ othersStay s u n ∧ u.mem = s.mem ∧
      u.ctx n = { c with mode := .running, resumed := some (s.ctx s.ev.n).nextPc, dbg := c.dbg &&& 0xDFFFFFFFFFFFFFFF }) ∧
    (∃ u, exec .traceSample s = .next u ∧ (u.wing s.ev.core).sample = false ∧ ∀ m, u.ctx m = s.ctx m) ∧
    (∃ u, exec .tscWrite s = .next u ∧ u = { s with wings := u.wings } ∧
      (u.wing (wingOf n)).tsc = s.ev.v &&& 0xE00000000000001F)

/-- R143, R152 to R157, R324, R356: accesses and requests on their way, and their answers. A line that carries the mark bit sends an access
on to NEWVA of its tile's record plus the access's offset, three times at most; `tchase` and `tstat` are answered at any address
(R153, R295; log 20, DEDUCED). That a request of another node at a marked line is answered with NEWVA and has no effect is the model's
reading (log 73, DEDUCED), and so is that a node holds a request that must wait (log 76, DEDUCED). -/
def Obligations.NetworkEvents : Prop :=
  ∀ s : State,
    let id := s.ev.id
    (∀ r, s.resps.find? (fun r => r.acc.id == id && r.acc.returns) = some r → ∃ u, exec .dataArrival s = .next u ∧
      u.mem = s.mem ∧ (∀ x ∈ u.resps, x.acc.id ≠ id) ∧ othersStay s u r.acc.n ∧
      let n := r.acc.n
      (r.fault = none → r.acc.hops = 0 → (s.core (coreOf n)).porchDead id = false → (s.ctx n).tagGone r.acc.tag = false →
        (∀ d sg, r.acc.dst = .s d sg → ∀ x ∈ (s.ctx n).sa.pend, ∀ al ∈ x.alts, al.ref = some id →
          ∃ y ∈ (u.ctx n).sa.pend, y.dst = x.dst ∧ y.due = x.due ∧
            { al with val := bytesS sg r.bytes r.bad, ref := none } ∈ y.alts) ∧
        (∀ d, r.acc.dst = .v d → ∀ x ∈ (s.ctx n).v.pend, ∀ al ∈ x.alts, al.ref = some id →
          ∃ y ∈ (u.ctx n).v.pend, y.dst = x.dst ∧ y.due = x.due ∧
            { al with val := bytesV r.bytes r.bad, ref := none } ∈ y.alts))) ∧
    (s.ev.idx ≠ 1 → ∀ r, s.resps.find? (fun r => r.acc.id == id && !r.acc.returns) = some r →
      ∃ u, exec .acknowledgmentArrival s = .next u ∧ u.mem = s.mem ∧ ∀ x ∈ u.resps, x.acc.id ≠ id) ∧
    (s.ev.idx = 1 → exec .acknowledgmentArrival s = .next (s.onCtx s.ev.n (fun c =>
      { c with invN := c.invN.filter (fun i => i != id) }))) ∧
    (∀ a, s.outq.find? (fun a => a.id == id) = some a → (∀ b ∈ s.net, a.mergesWith b = false) →
      exec .outboundDepart s = .next { s with outq := s.outq.filter (fun x => x.id != id), net := s.net ++ [a] }) ∧
    (∀ a, s.net.find? (fun a => a.id == id) = some a →
      (a.place = 3 → isDevice a.home = false → a.kind ≠ .tchase → a.kind ≠ .tstat →
        exec .homeAccess s = .fault (.noSuchHome a.home)) ∧
      (a.place = 3 → isDevice a.home = false → a.kind = .tchase ∨ a.kind = .tstat → ∃ u bs, exec .homeAccess s = .next u ∧
        u.mem = s.mem ∧ u.net = s.net.filter (fun x => x.id != id) ∧ u.resps = s.resps ++ [⟨a, bs, [], none, 0, false⟩] ∧
        bs.length = 8 ∧ (a.kind = .tchase → a.mv = false → a.hops ≤ 3 → leBytes bs = a.ea % 2 ^ 48 + a.hops * 2 ^ 48)) ∧
      (a.kind = .load ∨ a.kind = .store ∨ a.kind = .atomic → a.mv = true → isDevice a.home = true → s.mem.marked a.home = true →
        let line := a.home - a.home % 65536
        let to' := s.mem.nat line 8 % 2 ^ 48 + a.ea % 65536
        let turned := fun (code : TrapCode) (i0 : Nat) => ∃ (u : State) (t : TrapRec), exec .homeAccess s = .next u ∧ u.mem = s.mem ∧
          u.net = s.net.filter (fun x => x.id != id) ∧ u.resps = s.resps ++ [⟨a, [], [], some t, 0, false⟩] ∧ t.code = code ∧
          t.slot = a.slot ∧ t.ba = a.ba ∧ t.info0 = BitVec.ofNat 64 i0
        (a.hops = 3 → turned .markChain a.ea0) ∧
        (a.hops < 3 → ∀ code, accessCheck (s.ctx a.n).table.core (coreOf a.n) (BitVec.ofNat 64 to') a.size false (a.kind != .load) =
          .inl code → turned code to') ∧
        (a.hops < 3 → ∀ t, accessCheck (s.ctx a.n).table.core (coreOf a.n) (BitVec.ofNat 64 to') a.size false (a.kind != .load) =
          .inr t → exec .homeAccess s = .next { s with net := s.net.map (fun x => if x.id == id then
            { a with ea := to', place := t.place, home := t.home, off := t.off, mv := t.mv, hops := a.hops + 1,
                     moved := a.moved + (BitVec.ofNat 64 to' - BitVec.ofNat 64 a.ea) } else x) })) ∧
      (a.kind = .load → a.mv = false → isDevice a.home = true → ∃ u, exec .homeAccess s = .next u ∧
        u.net = s.net.filter (fun x => x.id != id) ∧ s.KeepsBytes u ∧
        u.resps = s.resps ++ [⟨a, s.bytesAt a.home a.size, s.badAt a.home a.size, none, 0, false⟩]) ∧
      (a.kind = .store → a.mv = false → isDevice a.home = true → isDevice (a.home + a.data.length) = true → s.MemInv →
        s.moveFrom a.home = none →
        ∃ u, exec .homeAccess s = .next u ∧ u.net = s.net.filter (fun x => x.id != id) ∧
          (∀ i (hi : i < a.data.length), u.mem.get (a.home + i) = a.data[i]) ∧
          ∀ k, k < a.home ∨ a.home + a.data.length ≤ k → u.mem.get k = s.mem.get k)) ∧
    (let r := s.ev.req
     let n := r.addr + r.len
     let other := s.ev.idx ≠ 1 ∧ r.node.toNat ≠ s.mod.node.toNat ∧ n ≤ deviceSize
     (other → s.mod.power = false → exec .fabricRequest s = .next s) ∧
     (other → s.mod.power = true → s.mod.stage ≠ 6 → exec .fabricRequest s =
       .next { s with sent := s.sent ++ [{ node := r.node.toNat, refused := true, bytes := [] }] }) ∧
     (other → s.mod.power = true → s.mod.stage = 6 → s.fabricWaits r = true → exec .fabricRequest s = .next (s.fabricHold r)) ∧
     (other → s.mod.power = true → s.mod.stage = 6 → s.fabricWaits r = false → r.mv = true → isDevice r.addr = true →
       s.mem.marked r.addr = true → exec .fabricRequest s = .next { s with sent := s.sent ++
         [{ node := r.node.toNat, refused := false, bytes := toBytes (s.mem.newVa r.addr) 8, mark := true }] }) ∧
     (other → s.mod.power = true → s.mod.stage = 6 → s.fabricWaits r = false → (r.mv = false ∨ s.mem.marked r.addr = false) →
       r.kind = 0 → ∃ u, exec .fabricRequest s = .next u ∧ s.KeepsBytes u ∧
         u.sent = s.sent ++ [{ node := r.node.toNat, refused := false, bytes := s.bytesAt r.addr r.len }])) ∧
    (∃ u, exec .remoteInvalidation s = .next u ∧ u.mem = s.mem ∧
      ∀ m, (s.ctx m).asid ≠ s.ev.v.setWidth 16 → u.ctx m = s.ctx m)

namespace Sys2Proof.Claims

/-! ### Events of the engines -/

/-- The arrival that a command makes as it retires (R252). -/
def arrivalOf (s : State) (n slot ba : Nat) (arr : Option Nat) : List BarIn :=
  match arr with
  | some b => [⟨clusterOf n, b, s.cycle + 2, coreOf n, n % 2 == 1, slot, ba, none⟩]
  | none => []

/-- A relocation command that moves its tile: whole tiles of device memory, apart. -/
def movesTile (s : State) (c : RelocCmd) : Prop :=
  s.relocCmd? s.ev.core s.ev.id = some c ∧ c.srcH % 65536 = 0 ∧ c.dstH % 65536 = 0 ∧ c.srcH ≠ c.dstH ∧
    isDevice c.srcH = true ∧ isDevice c.dstH = true

end Sys2Proof.Claims

open Sys2Proof.Claims

/-- R199, R200, R201, R207, R208, R212, R218, R222: how a routine starts, pauses and retires, and the mode of an array. That an array takes
the mode that FEN asked for as its pair fused is the model's reading of R200 (log 86, DEDUCED). -/
def Sys2Proof.Claims.RoutineLife : Prop :=
  ∀ (s : State),
    let ar := s.ev.core
    exec .arrayModeChange s = .next (s.setArr ar { s.arr ar with
      mode := (s.arr ar).goal && decide (1 < (s.ctx (4 * ar)).fuseW ∧ 1 < (s.ctx (4 * ar + 2)).fuseW) }) ∧
    ∀ r, s.evRoutine = some r →
      let k := coreOf r.n
      (r.op = 0 → (r.std = true → r.idx < 6) → exec .routineStart s = .next (s.setRoutine k { r with
        waitF := none, begun := true, uw := 0, loops := [], kstep := 0, ka := 0, kb := 0, row := 0, drow := 0,
        prov := r.prov &&& 0x0200000000000000,
        pa := (r.m 0).toNat, ra := (r.m 0).toNat, ora := (r.m 0).toNat,
        pb := (r.m 1).toNat, rb := (r.m 1).toNat, orb := (r.m 1).toNat, pd := (r.m 1).toNat, rd := (r.m 1).toNat,
        qa := (r.m 5).toNat, qb := (r.m 6).toNat, ps := (r.m 6).toNat, t := r.t0, tb := r.t0, plA := r.bpa, plB := r.bpb })) ∧
      (r.op = 1 → ∃ u, exec .routineStart s = .next u ∧ u.mem = s.mem ∧ (∀ m, u.ctx m = s.ctx m) ∧
        ∀ i, mget ({} : AccRow) (u.core k).acc i =
          if r.t0 ≤ i / 32 ∧ i / 32 < r.t0 + r.mt * r.nt then {} else mget {} (s.core k).acc i) ∧
      (∀ kind ea wr, s.nextPipe r = .page kind ea wr → s.ev.core = k → ∃ u f x, exec .routinePause s = .next u ∧
        x ∈ (u.core k).queue ∧ x.id = r.id ∧ x.waitF = some f ∧ u.faultOpen f = true) ∧
      (∃ u, exec .routineRetire s = .next u ∧ u.mem = s.mem ∧ (∀ x ∈ (u.core k).queue, x.id ≠ r.id) ∧
        u.barIn = s.barIn ++ arrivalOf s r.n 5 r.ba r.arr ∧ othersStay s u r.n ∧ (r.op = 0 → (u.ctx r.n).prov = r.record)) ∧
      (∀ s1 r1 z, s.packPipe { r with waitF := none, begun := true } = .ok s1 r1 z → ∃ u, exec .packInstall s = .next u ∧
        u.arr (arrayOf (coreOf r1.n)) = z.2.1 ∧ ∀ m, u.ctx m = s1.ctx m)

/-- R57, R219: `load` and `pack` run whole as they start, where what they read, and for `pack` what it writes, lies in own scratch through
present entries, and then they have ended: `load` puts the words of its source into its tiles as bits, with their poison; `pack` writes
for each block of 512 bytes its planes 7, 6, … at depth DA through the array's place at the port. That the tiles of `load` lie side by
side in its source is the model's choice (log 16, DESIGN CHOICE). -/
def Sys2Proof.Claims.RoutinesWhole : Prop :=
  ∀ (s : State) (r : Routine) (en : Nat → TEntry), s.evRoutine = some r → r.op = 0 → r.std = true → s.ev.core = coreOf r.n →
    let k := coreOf r.n
    let own := fun (a n : Nat) (wr : Bool) =>
      a < 2 ^ 48 ∧ a % n = 0 ∧ tLookup (s.ctx r.n).table.eng a = some (en a) ∧ (en a).p = true ∧ (wr = true → (en a).w = true) ∧
        (en a).kind = 1 ∧ (en a).mv = false
    let home := fun (a : Nat) => ((en a).tgt k a).home
    let src := (r.m 0).toNat
    (r.idx = 6 →
      let at' := fun (i j m n : Nat) => src + (32 * i + m) * r.lda + 128 * j + 4 * n
      (∀ i j m n, i < r.mt → j < r.nt → m < 32 → n < 32 → own (at' i j m n) 4 false) →
      ∃ u q, exec .routineStart s = .next u ∧ s.KeepsBytes u ∧ q ∈ (u.core k).queue ∧ q.id = r.id ∧ q.ended = true ∧
        ∀ i j m n, i < r.mt → j < r.nt → m < 32 → n < 32 →
          let row : AccRow := mget {} (u.core k).acc (32 * (r.t0 + i * r.nt + j) + m)
          row.v.extractLsb' (32 * n) 32 = BitVec.ofNat 32 (leBytes (s.bytesAt (home (at' i j m n)) 4)) ∧
            row.p.getLsbD n = (s.badAt (home (at' i j m n)) 4).any id) ∧
    (r.idx = 7 →
      let blocks := r.kTot / 512
      let chunk := fun (m b c : Nat) => src + m * r.lda + 512 * b + 64 * c
      let to' := fun (m b x y : Nat) => (r.m 1).toNat + m * r.ldb + 64 * r.dA * b + 64 * x + y
      (∀ m b c, m < 32 * r.mt → b < blocks → c < 8 → own (chunk m b c) 64 false) →
      (∀ m b x y, m < 32 * r.mt → b < blocks → x < r.dA → y < 64 → own (to' m b x y) 1 true) →
      ∃ u q ws, exec .routineStart s = .next u ∧ u.portW = s.portW ++ ws ∧ s.KeepsBytes u ∧ q ∈ (u.core k).queue ∧ q.id = r.id ∧
        q.ended = true ∧ ws.length = 32 * r.mt * blocks * r.dA * 64 ∧
        ∀ m b x y, m < 32 * r.mt → b < blocks → x < r.dA → y < 64 →
          ∃ p v, ws[((m * blocks + b) * r.dA + x) * 64 + y]? = some p ∧ p.rank = arrayRank k ∧ p.acc.kind = .store ∧
            p.acc.home = home (to' m b x y) ∧ p.acc.data = [v] ∧
            (∀ z, z < 8 → v.getLsbD z = ((s.bytesAt (home (chunk m b (y / 8))) 64).getD (8 * y % 64 + z) 0).getLsbD (7 - x)) ∧
            p.bad = [(((s.badAt (home (chunk m b (y / 8))) 64).drop (8 * y % 64)).take 8).any id])

/-- How a routine starts, pauses and retires, and the mode of an array (R57, R199, R200, R201, R207, R208, R212, R218, R219, R222). -/
def Obligations.RoutineEvents : Prop := Claims.RoutineLife ∧ Claims.RoutinesWhole

/-- R226, R230, R233, R235, R236: how a copy command starts an element, writes one, waits for a fault, and retires. -/
def Sys2Proof.Claims.CopyEvents : Prop :=
  ∀ (s : State) (c : CopyCmd),
    let cl := s.ev.core
    s.copyCmd? cl s.ev.id = some c →
    (s.ev.idx = 0 → ∀ s1 c1, s.nextElem { c with phase := 1, waitF := none } = .ok s1 c1 →
      exec .copyStart s = .next (s1.setCmd cl c1)) ∧
    (s.ev.idx = 0 → ∀ t, s.nextElem { c with phase := 1, waitF := none } = .stop t →
      ∃ u, exec .copyStart s = .next u ∧ ((s.ctx c.n).mode ≠ .off → (u.ctx c.n).fatalP.isSome = true)) ∧
    (∀ j f x, s.ev.idx = j + 1 → c.flight[j]? = some f → f.src = some x → s.ownHome x.home = x.home →
      ∃ u c1, exec .copyStart s = .next u ∧ s.KeepsBytes u ∧ u.portW = s.portW ∧ u.copyCmd? cl c.id = some c1 ∧
        c1 = { c with flight := c1.flight } ∧ (∀ y ∈ c.flight, y.q ≠ f.q → y ∈ c1.flight) ∧
        { f with src := none, addS := none, bytes := s.bytesAt x.home c.elem, bad := s.badAt x.home c.elem } ∈ c1.flight) ∧
    (∀ j f, s.ev.idx = j + 1 → c.flight[j]? = some f → f.src = none → c.op ≠ 6 → isDevice f.home = true →
      isDevice (f.home + f.bytes.length) = true → s.MemInv → ∃ u, exec .copyStart s = .next u ∧
        (∀ i (hi : i < f.bytes.length), u.mem.get (f.home + i) = f.bytes[i]) ∧
        ∀ k, k < f.home ∨ f.home + f.bytes.length ≤ k → u.mem.get k = s.mem.get k) ∧
    (∀ kind ea wr, s.nextElem c = .page kind ea wr → ∃ u f x, exec .copySuspend s = .next u ∧
      x ∈ (u.cluster cl).queue ∧ x.id = c.id ∧ x.phase = 2 ∧ x.waitF = some f ∧ u.faultOpen f = true) ∧
    (c.op ≠ 6 → ∃ u, exec .copyRetire s = .next u ∧ u.mem = s.mem ∧ (∀ x ∈ (u.cluster cl).queue, x.id ≠ c.id) ∧
      u.barIn = s.barIn ++ arrivalOf s c.n 6 c.ba c.arr ∧ othersStay s u c.n)

/-- R284, R288, R290, R291, R297: the phases of a relocation command but for the copy of its tile. That a move of firmware's own is judged
once more as it freezes its tile is the model's choice (log 11, DESIGN CHOICE). -/
def Sys2Proof.Claims.RelocationEvents : Prop :=
  ∀ (s : State) (c : RelocCmd),
    let w := s.ev.core
    s.relocCmd? w s.ev.id = some c →
    (c.op = 0 → c.phase = 0 → c.n = firmwareN → ∀ a b, s.tileCheck c = .ok a b → s.mayTake a b c.dst = false →
      exec .moveFreeze s = .next (s.setReloc w { c with phase := 6, code := 2 })) ∧
    (c.op = 0 → c.phase = 0 → ∀ a b, s.tileCheck c = .ok a b → c.n ≠ firmwareN ∨ s.mayTake a b c.dst = true →
      exec .moveFreeze s = .next (s.setReloc w { c with phase := 1, srcH := a, dstH := b })) ∧
    (c.op = 0 → c.phase = 0 → ∀ k, s.tileCheck c = .code k →
      exec .moveFreeze s = .next (s.setReloc w { c with phase := 6, code := k })) ∧
    (c.phase = 1 ∨ c.phase = 2 → exec .moveDrain s = .next (s.setReloc w { c with phase := c.phase + 1 })) ∧
    (c.sw = none → c.op = 0 ∨ c.phase = 6 → ∃ u, exec .relocationRetire s = .next u ∧ u.mem = s.mem ∧
      (∀ x ∈ (u.wing w).reloc, x.id ≠ c.id) ∧ u.barIn = s.barIn ++ arrivalOf s c.n 6 c.ba c.arr) ∧
    (∀ e, c.sw = none → c.op = 1 → c.phase ≠ 6 → tLookup c.table c.dst = some e → e.p = true → e.kind = 4 → e.mv = true →
      s.MemInv →
      let h := (e.tgt (coreOf c.n) c.dst).home
      let line := h - h % 65536
      s.mem.marked line = true → ∃ u, exec .relocationRetire s = .next u ∧
        (∀ a, a / 65536 = line / 65536 → u.mem.marked a = false) ∧ (∀ i, i < 64 → u.mem.get (line + i) = 0) ∧
        ∀ a, a < line ∨ line + 64 ≤ a → u.mem.get a = s.mem.get a)

/-- The phases of copy and relocation commands (R230, R233, R235, R236, R288, R290, R291, R297). -/
def Obligations.EngineEvents : Prop := Claims.CopyEvents ∧ Claims.RelocationEvents


/-- R288, R292: COPY moves the bytes of the tile and their poison to its new home; MARK puts the mark record at the old one, marks
every line of it, and counts the move; RELEASE ends the tile once no queued write is left. That GEN is the count before this move is the
model's reading of R292 (log 50, DEDUCED). -/
def Obligations.TileMoved : Prop :=
  ∀ (s : State) (c : RelocCmd), movesTile s c → s.MemInv →
    let w := s.ev.core
    (c.phase = 3 → ∃ u, exec .moveCopy s = .next u ∧ u = { s with mem := u.mem, wings := u.wings } ∧
      (∀ i, i < 65536 → u.mem.get (c.dstH + i) = s.mem.get (c.srcH + i) ∧ u.mem.bad (c.dstH + i) = s.mem.bad (c.srcH + i)) ∧
      (∀ a, a / 65536 ≠ c.dstH / 65536 → u.mem.get a = s.mem.get a ∧ u.mem.bad a = s.mem.bad a) ∧ u.mem.marks = s.mem.marks ∧
      u.relocCmd? w c.id = some { c with phase := 4 }) ∧
    (c.phase = 4 → ∃ u, exec .moveCopy s = .next u ∧ u = { s with mem := u.mem, wings := u.wings } ∧
      (∀ a, a / 65536 = c.srcH / 65536 → u.mem.marked a = true) ∧
      u.mem.nat c.srcH 8 = (c.dst + c.tile * 65536) % 2 ^ 64 ∧ u.mem.nat (c.srcH + 8) 2 = (s.wing w).moves.toNat ∧
      u.mem.nat (c.srcH + 10) 1 = 1 ∧ u.mem.nat (c.srcH + 16) 8 = (c.src + c.tile * 65536) % 2 ^ 64 ∧
      (u.wing w).moves = (s.wing w).moves + 1 ∧ u.relocCmd? w c.id = some { c with phase := 5 } ∧
      ∀ a, (a < c.srcH ∨ c.srcH + 64 ≤ a) → u.mem.get a = s.mem.get a) ∧
    (c.phase = 5 → c.stores = [] → exec .moveCopy s = .next (s.setReloc w { c with phase := 0, tile := c.tile + 1 }))

/-- R328, R330, R331, R332: flits, and how link commands depart, are counted and retire. -/
def Obligations.LinkEvents : Prop :=
  ∀ s : State,
    let w := s.ev.core
    let f := s.ev.flit
    (f.send = none → s.mod.power = true → s.mod.stage ≠ 6 → s.ev.id ≠ s.mod.node.toNat → exec .flitArrival s =
      .next { s with sent := s.sent ++ [{ node := s.ev.id, refused := true, bytes := [] }] }) ∧
    (f.send = none → s.mod.power = true → s.mod.stage = 6 → f.core < 96 → s.inRange (scratchHome f.core (f.offset + 63)) = true →
      s.flitAway f (s.ev.idx == 1) = false → ∃ u rank a, exec .flitArrival s = .next u ∧
        u.portW = s.portW ++ [⟨rank, a, f.poison, true⟩] ∧ a.kind = .store ∧ a.home = scratchHome f.core f.offset ∧ a.data = f.bytes ∧
        mget 0 (u.core f.core).arrivedN f.slot = mget 0 (s.core f.core).arrivedN f.slot + 1 ∧ u.mem = s.mem ∧
        ∀ m, u.ctx m = s.ctx m) ∧
    ∀ c, s.linkCmd? w s.ev.id = some c →
      (∀ xs ys, c.op = 0 → c.gone = false → s.flitWays c false c.src c.flits = .ok xs →
        s.flitWays c true c.dst c.flits = .ok ys → (∀ y ∈ ys, s.flitPlace y.1 = true) →
        (∀ x ∈ xs, (s.badAt (s.ownHome x.1.home) 64).any (fun b => b) = false) → ∃ u, exec .lsendDeparture s = .next u ∧
          u.wire = s.wire ++ s.flitsOf c 0 xs ys ∧ s.KeepsBytes u) ∧
      (∀ xs ys x, c.op = 0 → c.gone = false → s.flitWays c false c.src c.flits = .ok xs →
        s.flitWays c true c.dst c.flits = .ok ys → xs.find? (fun x => (s.badAt (s.ownHome x.1.home) 64).any (fun b => b)) = some x →
        ∃ u, exec .lsendDeparture s = .next u ∧ u.wire = s.wire ∧ u.mem = s.mem ∧
          ((s.ctx c.n).mode ≠ .off → (s.ctx c.n).fatalP = none → (u.ctx c.n).fatalP = some (c.trap .poison x.2 6))) ∧
      (∀ xs ys y, c.op = 0 → c.gone = false → s.flitWays c false c.src c.flits = .ok xs →
        s.flitWays c true c.dst c.flits = .ok ys → ys.find? (fun y => !s.flitPlace y.1) = some y →
        (∀ x ∈ xs, (s.badAt (s.ownHome x.1.home) 64).any (fun b => b) = false) → ∃ u, exec .lsendDeparture s = .next u ∧
          u.wire = s.wire ++ (s.flitsTaken ys (s.flitsOf c 0 xs ys)).map Prod.snd ∧ s.KeepsBytes u ∧
          ((s.ctx c.n).mode ≠ .off → (s.ctx c.n).fatalP = none → (u.ctx c.n).fatalP = some (c.trap .remoteError y.2 0))) ∧
      (c.op = 0 → c.gone = true → c.sent = [] → w = wingOf c.n → ∃ u, exec .lsendRetire s = .next u ∧ u.mem = s.mem ∧
        (∀ x ∈ (u.wing w).link, x.id ≠ c.id) ∧ u.barIn = s.barIn ++ arrivalOf s c.n 6 c.ba c.arr) ∧
      (∀ s1, c.op = 2 → c.gone = false → s.slotRecvs c = [c] → c.need ≤ s.flitsReady (coreOf c.n) c.slot →
        s.allDone c.n c.after = true → c.waitF = none → s.reduce c = .ok s1 →
        exec .lredReduce s = .next ((s1.consume c).setLink { c with gone := true, waitF := none }))

namespace Sys2Proof.Claims

/-! ### Events of the command processor and the platform -/

/-- The module after one more entry of the ring (R372). -/
def took (s : State) : State := { s with mod := { s.mod with head := s.mod.head + 1 } }

/-- `SKIP` counts, saturating (R371). -/
def skips (m : Module) (k : Nat) : BitVec 16 := BitVec.ofNat 16 (min 0xFFFF (m.skip.toNat + k))

/-- The module with `k` more entries skipped, which a read of `SKIP` in this cycle does not clear (R6). -/
def skipping (m : Module) (k : Nat) : Module := { m with skip := skips m k, skipNow := m.skipNow + (skips m k - m.skip) }

/-- A service action ends: its result, and the event of its completion to come (R402). -/
def ends (s : State) (res : BitVec 8) : State :=
  { s with mod := { s.mod with svc := { s.mod.svc with res := res, moves := false, rest := [] } }, todo := s.todo ++ [(.serviceActionComplete, noArg)] }

/-- The word of a node's STATE, or of a completion record. -/
def wordAt (s : State) (a : Nat) : Nat := s.mem.nat a 8

end Sys2Proof.Claims

open Sys2Proof.Claims

/-- R371, R372, R373, R377, R381 to R383, R385: the ring, launches and kills. -/
def Obligations.RingEvents : Prop :=
  ∀ s : State,
    let m := s.mod
    let a := s.ev.addr
    let room := 2 ^ (m.ring.toNat % 64)
    (s.ev.idx ≠ 1 →
      let tail : BitVec 32 := s.ev.v.setWidth 32
      let n := (tail - m.head).toNat
      (n ≤ room → exec .start s = .next { s with mod := { m with tail := tail } }) ∧
      (room < n → exec .start s = .next { s with mod := { skipping m (n - room) with
        tail := tail, head := tail - BitVec.ofNat 32 room } })) ∧
    (s.ev.idx = 1 → exec .start s = .next { s with mod := skipping (took s).mod 1 }) ∧
    (wordAt s a ≤ m.seqTop.toNat → exec .launch s = .next { s with mod := skipping (took s).mod 1 }) ∧
    (m.seqTop.toNat < wordAt s a →
      (s.launchCheck a = 0 → ∃ u k, exec .launch s = .next u ∧ u.mem = s.mem ∧ u.mod.head = m.head + 1 ∧
        u.mod.seqTop.toNat = wordAt s a ∧ u.mod.kernels = mput m.kernels (s.uid + 1) k ∧ k.record = a ∧ k.state = .waiting ∧
        k.prio = s.recPrio a ∧ k.places = (s.places a).map (fun p => p.2.1) ∧ k.node = none) ∧
      (∀ out, s.launchCheck a = out → out ≠ 0 → s.MemInv → ∃ u, exec .launch s = .next u ∧ u.mod.kernels = m.kernels ∧
        u.mod.head = m.head + 1 ∧ wordAt u (s.recStatus a) = (2 ^ 63 + out) % 2 ^ 64)) ∧
    (s.ev.idx ≠ 1 → exec .graph s = .next { took s with mod := { (took s).mod with acts := m.acts ++ [{ node := a, prio := 4 }] } }) ∧
    (s.ev.idx = 1 → ∀ x l, m.acts = x :: l → ∃ u, exec .graph s = .next u ∧ u.mod.acts = l ∧
      (x.by' = none → u.mem = s.mem) ∧
      ∀ k, x.by' = some k →
        (m.kernels.any (fun e => e.1 == k) = true → u.mem = s.mem ∧
          ∀ e ∈ u.mod.kernels, e.1 = k → e.2.spawnX = true) ∧
        (m.kernels.any (fun e => e.1 == k) = false → s.MemInv → (u.mem.get (x.st + 24)).getLsbD 4 = true)) ∧
    (m.kernels.find? (fun e => e.2.record == a) = none → exec .kill s = .next (took s)) ∧
    (∀ e, m.kernels.find? (fun e => e.2.record == a) = some e → e.2.state = .running →
      ∃ u, exec .kill s = .next u ∧ stopped s u e.1) ∧
    (∀ e, m.kernels.find? (fun e => e.2.record == a) = some e → e.2.state = .waiting → e.2.node = none → s.MemInv →
      ∃ u, exec .kill s = .next u ∧ u.mod.kernels = m.kernels.filter (fun x => x.1 != e.1) ∧
        wordAt u (s.recStatus e.2.record) = 2 ^ 63 + 2)

/-- R375, R376, R379, R380, R382, R110, R358, R378: how a kernel starts, resumes, is preloaded, and retires. That the record is read
from memory again at the start and at the retirement is the model's choice (log 99, DESIGN CHOICE). -/
def Obligations.KernelEvents : Prop :=
  ∀ (s : State) (e : Nat × Kernel), s.mod.kernels.find? (fun x => x.1 == s.ev.id) = some e →
    let k := e.2
    let r := k.record
    (∃ u k1, exec .preload s = .next u ∧ u.mod.kernels.find? (fun x => x.1 == s.ev.id) = some (e.1, k1) ∧ k1.pre = true ∧
      k1.preOn = s.preCores k ∧ u.mem = s.mem ∧
      (∀ c ∈ s.preCores k, (u.ctx (2 * c + 1)).mode = .off ∧ (u.ctx (2 * c + 1)).sa = s.argRegs r) ∧
      ∀ m, (∀ c ∈ s.preCores k, m ≠ 2 * c + 1) → u.ctx m = s.ctx m) ∧
    (∀ sym n x, k.state = .waiting → s.places r = [(sym, n, x)] → s.recNarg r ≤ 16 → k.pre = true → coreOf n ∈ k.preOn →
      ∃ u, exec .launchStart s = .next u ∧ (u.ctx n).mode = .running ∧ (u.ctx n).kernel = e.1 ∧
        (u.ctx n).sa = (s.ctx (2 * coreOf n + 1)).sa ∧
        (u.ctx n).table.core = (s.ctx (2 * coreOf n + 1)).table.core) ∧
    (∀ sym n x, k.state = .waiting → s.places r = [(sym, n, x)] → k.places = [n] → s.recNarg r ≤ 16 → k.preOn = [] →
      (∀ e2 ∈ s.mod.kernels, coreOf n ∉ e2.2.preOn) → ∃ u, exec .launchStart s = .next u ∧
      let c := u.ctx n
      othersStay s u n ∧ c.mode = .running ∧ c.kernel = e.1 ∧ c.lvl = decide (s.recFlags r / 4 % 2 = 1) ∧
        c.tvec.toNat = s.recTvec r % 2 ^ 64 ∧ c.tfa.toNat = s.recTfa r % 2 ^ 64 ∧ c.ttb.toNat = s.recTtb r % 2 ^ 64 ∧
        c.fuseW = 1 ∧ c.loops = [] ∧ c.shadow = none ∧ c.inh = false ∧
        (∀ i, 1 ≤ i → i ≤ s.recNarg r → ∀ t, c.sa.at i t =
          [{ val := clean (BitVec.ofNat 64 (s.mem.nat (s.recArgs r + 8 * (i - 1)) 8)) }]) ∧
        (∀ i, s.recNarg r < i → ∀ t, c.sa.at i t = [{}]) ∧
        ∃ k1, u.mod.kernels.find? (fun x => x.1 == e.1) = some (e.1, k1) ∧ k1.state = .running) ∧
    (k.state = .out → ∃ u, exec .launchStart s = .next u ∧ u.mem = s.mem ∧
      u.todo = s.todo ++ (s.awayAll e.1).map (fun m => (Instr.switchIn, ({ n := m } : EvArg)))) ∧
    (k.dying = none → k.node = none → s.MemInv → ∃ u, exec .kernelRetire s = .next u ∧
      u.mod.kernels = s.mod.kernels.filter (fun x => x.1 != e.1) ∧ (∀ m ∈ s.ctxsOf e.1, (u.ctx m).mode = .off) ∧
      (s.recPrio r ≠ 3 → wordAt u (s.recStatus r) = 2 ^ 63 ∧ u.mod.events = s.mod.events) ∧
      (s.recPrio r = 3 → ∃ w, u.mod.events = s.mod.events ++ [w] ∧ w.toNat / 2 ^ 56 = 5)) ∧
    (k.dying = some 1 → k.reruns < k.retry → ∃ u k1, exec .kernelRetire s = .next u ∧ u.mem = s.mem ∧
      u.mod.kernels.find? (fun x => x.1 == e.1) = some (e.1, k1) ∧ k1.state = .waiting ∧ k1.reruns = k.reruns + 1)

/-- R384, R385: an activation of a node of each kind. -/
def Obligations.NodeActivations : Prop :=
  ∀ (s : State) (a : Activation) (l : List Activation), s.mod.acts = a :: l → s.MemInv →
    let nd := a.node
    let rest : State := { s with mod := { s.mod with acts := l } }
    let next := fun (i : Nat) => s.mem.nat (nd + 24 + 8 * i) 8
    let onward := fun (ns : List Nat) => l ++ (ns.filter (fun x => x != 0)).map (fun x => { a with node := x })
    (2 ^ 63 ≤ wordAt s (nd + 8) → exec .nodeKernel s = .next rest) ∧
    (wordAt s (nd + 8) < 2 ^ 63 → (rest.setNode nd (wordAt s (nd + 8) + 2 ^ 63)).launchCheck (wordAt s (nd + 16)) = 0 →
      ∃ u k, exec .nodeKernel s = .next u ∧ u.mod.acts = l ∧ wordAt u (nd + 8) = wordAt s (nd + 8) + 2 ^ 63 ∧
        u.mod.kernels = mput s.mod.kernels (s.uid + 1) k ∧ k.record = wordAt s (nd + 16) ∧ k.node = some nd) ∧
    (∃ u, exec .nodeCond s = .next u ∧ u.mem = s.mem ∧
      u.mod.acts = onward [if wordAt s (wordAt s (nd + 16)) = 0 then next 1 else next 0]) ∧
    (let st := wordAt s (nd + 8)
     let c := if st / 2 ^ 62 % 2 = 0 then wordAt s (wordAt s (nd + 16)) % 2 ^ 32 else (st + 2 ^ 32 - 1) % 2 ^ 32
     ∃ u, exec .nodeLoop s = .next u ∧ wordAt u (nd + 8) = (if c = 0 then 0 else 2 ^ 62 + c) ∧
       u.mod.acts = onward [if c = 0 then next 1 else next 0]) ∧
    (let c := (wordAt s (nd + 8) + 1) % 2 ^ 32
     ∃ u, exec .nodeJoin s = .next u ∧
       (c = wordAt s nd / 2 ^ 8 % 2 ^ 8 → wordAt u (nd + 8) = 0 ∧ u.mod.acts = onward [next 0, next 1, next 2, next 3]) ∧
       (c ≠ wordAt s nd / 2 ^ 8 % 2 ^ 8 → wordAt u (nd + 8) = c ∧ u.mod.acts = l))

/-- R398, R399, R400, R405: power, the stages of bring-up, and the thermal limits. What memory and contexts hold after power-up, and what a
loss of power empties, are the model's (log 1, DESIGN CHOICE; log 75, DEDUCED). -/
def Obligations.BringUp : Prop :=
  ∀ s : State,
    let m := s.mod
    (∃ u, exec .powerUp s = .next u ∧ u.mod.power = true ∧ u.mod.stage = 1 ∧ u.mod.err = 0 ∧ u.ctxs = [] ∧ u.cores = [] ∧
      (∀ a, a < 2 ^ 48 → u.mem.get a = Mem.fill) ∧ u.mod.kernels = []) ∧
    (∃ u, exec .thermalCritical s = .next u ∧ u.mod.power = false ∧ u.ctxs = [] ∧ u.mod.stage = 0) ∧
    (∃ u, exec .thermalWarning s = .next u ∧ u.mod.hot = true ∧ u.mod.events.length = m.events.length + 1 ∧
      (∀ k, u.ctx k = s.ctx k)) ∧
    exec .temperatureFalls s = .next { s with mod := { m with hot := false } } ∧
    (s.ev.v ≠ 1 → exec .go s = .next s) ∧
    (s.ev.v = 1 → m.stage = 1 → exec .go s = .next { s with mod := { m with stage := 2 } }) ∧
    (s.ev.v = 1 → m.stage = 6 → m.svc.busy = false →
      exec .go s = .next { s with mod := { m with svc := { busy := true, act := 7 } } }) ∧
    (m.stage = 2 → s.imageErr = 0 → ∃ u, exec .firmwareVerify s = .next u ∧ u.mod.stage = 3 ∧ u.mod.slot = 0 ∧
      mget [] u.mod.slots 0 = s.imageBody ∧ u.mem = s.mem) ∧
    (m.stage = 2 → s.imageErr ≠ 0 → ∃ u, exec .firmwareVerify s = .next u ∧ u.mod.stage = 0xFF ∧ u.mod.err = s.imageErr ∧
      u.mod.slots = m.slots) ∧
    (m.stage = 6 → m.svc.busy = true → m.svc.act = 7 → exec .firmwareVerify s = .next (
      if s.imageErr = 0 then ends { s with mod := { m with
        slots := mput m.slots (1 - m.slot.toNat) s.imageBody, staged := sIns m.staged (1 - m.slot.toNat) } } 0
      else ends s 4)) ∧
    (m.stage = 3 ∨ m.stage = 4 ∨ m.stage = 5 → ∃ u, exec .ready s = .next u ∧ u.mem = s.mem ∧
      (Config.bringUp m.stage.toNat = none → u.mod.stage = m.stage + 1) ∧
      (∀ d, Config.bringUp m.stage.toNat = some d → u.mod.stage = 0xFF ∧ u.mod.err = m.stage + 1))

/-- R401 to R404, R300, R225: service actions, the window's registers, and attestation. The layout of the report, its first word at 0x500 and
the nonce from 0x508 on, is the model's choice (log 8, DESIGN CHOICE). -/
def Obligations.ServiceActions : Prop :=
  ∀ s : State,
    let m := s.mod
    let tgt := m.svc.tgt.toNat
    let doing := fun (a : BitVec 7) => m.svc.busy = true ∧ m.svc.act = a
    (¬ doing 1 → exec .swapFirmware s = .next s) ∧ (¬ doing 2 → exec .installRoutine s = .next s) ∧
    (¬ doing 3 → exec .retireCluster s = .next s) ∧ (¬ doing 4 → exec .drainChannel s = .next s) ∧
    (¬ doing 5 → exec .retrainPort s = .next s) ∧ (¬ doing 6 → exec .reloadCalibration s = .next s) ∧
    (doing 1 → 2 ≤ tgt → exec .swapFirmware s = .next (ends s 5)) ∧
    (doing 1 → tgt < 2 → exec .swapFirmware s = .next (
      if tgt ∈ m.staged ∧ tgt ≠ m.slot.toNat then ends { s with mod := { m with slot := 1 - m.slot } } 0 else ends s 4)) ∧
    (doing 2 → deviceSize ≤ tgt + 64 → exec .installRoutine s = .next (ends s 5)) ∧
    (doing 2 → tgt + 64 < deviceSize → ∃ u, exec .installRoutine s = .next u ∧ u.mod.svc.busy = true ∧
      (u.mod.svc.res = 0 ∨ u.mod.svc.res = 5) ∧ u.todo = s.todo ++ [(.serviceActionComplete, noArg)] ∧
      ∀ k, u.ctx k = s.ctx k) ∧
    (doing 2 → tgt + 64 < deviceSize → s.drawn.installCode tgt (s.free.toNat % 256) (upTo 0 48) ≠ 0 →
      ∃ u, exec .installRoutine s = .next u ∧ u.mod.svc.res = 5 ∧ ∀ ar, u.arr ar = s.arr ar) ∧
    (doing 3 → 24 ≤ tgt → exec .retireCluster s = .next (ends s 5)) ∧
    (doing 3 → tgt < 24 → s.spareOf tgt = none → exec .retireCluster s = .next (ends s 2)) ∧
    (doing 3 → tgt < 24 → s.clusterFree tgt = true → ∀ p, s.spareOf tgt = some p →
      exec .retireCluster s = .next (ends { s with mod := { m with phys := mput m.phys tgt (p, true) } } 0)) ∧
    (doing 4 → 384 ≤ tgt → exec .drainChannel s = .next (ends s 5)) ∧
    (doing 4 → tgt < 384 → m.svc.moves = false → s.fixedInUse tgt = false → ∃ u, exec .drainChannel s = .next u ∧
      u.mod.svc.moves = true ∧ u.mod.chanOut = m.chanOut ∧ u.mem = s.mem ∧ (∀ k, u.ctx k = s.ctx k) ∧
      (u.wing 0).reloc.length ≤ max 16 (s.wing 0).reloc.length ∧
      ∀ c ∈ s.drainMoves tgt, ∃ x ∈ (u.wing 0).reloc ++ u.mod.svc.rest, x = { c with id := x.id }) ∧
    (doing 4 → tgt < 384 → m.svc.moves = true → m.svc.rest = [] → s.movesDone = false → exec .drainChannel s = .next s) ∧
    (doing 4 → tgt < 384 → m.svc.moves = true → m.svc.rest = [] → s.movesDone = true → s.fixedInUse tgt = false → s.tilesLeft tgt = [] →
      exec .drainChannel s = .next (ends { s with mod := { m with chanOut := sIns m.chanOut tgt } } 0)) ∧
    (doing 5 → exec .retrainPort s = .next (ends s (if tgt < 32 then 0 else 5))) ∧
    (doing 6 → exec .reloadCalibration s = .next (ends s 0)) ∧
    (∃ u, exec .serviceActionComplete s = .next u ∧ u.mod.svc = { m.svc with busy := false } ∧
      ∃ w, u.mod.events = m.events ++ [w] ∧ w.toNat / 2 ^ 56 = 3) ∧
    (s.ev.addr = 0x210 → exec .windowRegisterWrite s = .next { s with mod := { m with evAddr := s.ev.v } }) ∧
    (∀ i, i < 8 → s.ev.addr = 0x300 + 8 * i →
      exec .windowRegisterWrite s = .next { s with mod := { m with grants := mput m.grants i (s.ev.v &&& 0xFFFF) } }) ∧
    (∀ i, i < 4 → s.ev.addr = 0x400 + 8 * i →
      exec .windowRegisterWrite s = .next { s with mod := { m with nonce := mput m.nonce i s.ev.v } }) ∧
    (s.MemInv → s.ev.v = 1 → m.stage = 6 → ∃ u, exec .attestationRequest s = .next u ∧ u.mod.attest = true ∧
      u.mem.nat (windowBase + 0x500) 8 = 0) ∧
    (s.MemInv → m.attest = true → ∃ u, exec .attestationReport s = .next u ∧ u.mod.attest = false ∧
      u.mem.nat (windowBase + 0x500) 8 = 1 ∧ ∀ i, i < 4 → u.mem.nat (windowBase + 0x508 + 8 * i) 8 = (mget 0 m.nonce i).toNat)

namespace Sys2Proof.Claims

/-- A machine of one context of the base level, at the merge stage with a bundle, and nothing that stands against it:
no event due, its turn, no trap, switch or stop, no unit late, no interlock, no collision, no carry loop. -/
def standsReady (s : State) (n : Nat) (b : GBundle) (j : Job) : Prop :=
  (s.ctx n).group.head? = some b ∧ s.ready n = true ∧ s.membersOf n = [n] ∧
  (s.ctx n).trapP = none ∧ (s.ctx n).swOut = false ∧ s.stopsHere n = false ∧
  s.unitHold n (s.ctx n).ic = false ∧ s.interlocked (s.ctx n).ic [j] = false ∧ s.collides [j] = false ∧
  b.ops.isEmpty = false ∧ b.names = none ∧ s.jobs n b = [j] ∧ j.n = n

/-- The state in which the operation of a job runs. -/
def atJob (s : State) (n : Nat) (b : GBundle) (j : Job) : State :=
  (s.overdue (s.ctx n).ic [j] [n]).latchFor n b (s.ctx n).ic j

/-- A bundle of one operation in slot `k`, its first word, and its extension word where bit 31 is set, with STOP. -/
def oneOp (k : Nat) (w0 x : BitVec 32) : List Byte :=
  toBytes (2 ^ 13 + 2 ^ (7 - k)) 2 ++ toBytes w0.toNat 4 ++ (if w0.getLsbD 31 then toBytes x.toNat 4 else [])

end Sys2Proof.Claims

/-- R87 and the other words that the manual writes out: each decodes to the operation that it stands for. -/
def Obligations.DecodedWords : Prop :=
  decodeOp .s 0x0C01C518 0 = .ok (.div {} { d := 7, a := 5, b := 6 }) ∧
  decodeOp .s 0x600082FD 0 = .ok (.addImm {} { d := 2, a := 2, imm8 := 0xFD }) ∧
  decodeOp .s 0xCC024000 0x12345678 = .ok (.li { ext := true } { d := 9, imm32 := 0x12345678 }) ∧
  decodeOp .s 0x4A004100 0 = .ok (.amovAS {} { d := 1, a := 1 }) ∧
  decodeOp .s 0x0200C108 0 = .ok (.add {} { d := 3, a := 1, b := 2 }) ∧
  decodeOp .s 0x60828A04 0 = .ok (.addImm { g := 4 } { d := 10, a := 10, imm8 := 4 }) ∧
  decodeOp .l 0x02010421 0 = .ok (.ld {} { d := 4, base := 1, size := 2, step := 1 }) ∧
  decodeOp .l 0x8C018C30 0x00C80002 = .ok (.ldt { ext := true } { d := 6, base := 3, size := 3, lof := 400, off := 2 }) ∧
  decodeOp .l 0xB000C820 0x00002000 = .ok (.afadd { ext := true } { d := 3, base := 2, size := 2, mrg := true }) ∧
  decodeOp .v 0x88082022 0x00300000 = .ok (.vfma { ext := true } { w := 2, d := 4, a := 1, b := 2, c := 3 }) ∧
  decodeOp .c 0x0C010003 0 = .ok (.loop {} { n := 4, len := 3 }) ∧
  decodeOp .c 0x62000000 0 = .ok (.sret {} {}) ∧
  decodeOp .m 0x86000800 0x98000000 = .ok (.mcall { ext := true, arr := true, bn := 3 } { fi := true }) ∧
  decodeOp .x 0xA000C850 0x00000100 = .ok (.tmove { ext := true } { d := 3, da := 2, sa := 1, xs := 4, x := 0x100 }) ∧
  decodeOp .n 0x08020502 0 = .ok (.ntopV {} { d := 8, a := 5, sub := 2 }) ∧
  decodeOp .s 0x34000000 0 = .illegalEncoding ∧ decodeOp .s 0x02000001 0 = .illegalEncoding ∧
  decodeOp .c 0x7E000000 0 = .illegalOpcode

/-- R24 to R26, R28: a bundle of one operation, in any slot, is read as that operation. -/
def Sys2Proof.Claims.OneOperationBundles : Prop :=
  ∀ (k : Nat) (sl : Slot) (w0 x : BitVec 32) (rest : List Byte), (k, sl) ∈ slotList →
    let b := bundleOf 1 (oneOp k w0 x ++ rest)
    b.hdr.stop = true ∧ b.hdr.hk = 0 ∧ b.hdr.rep = 0 ∧ b.len = (if w0.getLsbD 31 then 10 else 6) ∧
    b.ops = [{ member := 0, slot := k, w0 := w0, x := if w0.getLsbD 31 then x else 0, dec := decodeOp sl w0 x }]

/-- R19, R31 to R33: the next event that is due runs, and a bundle of one operation at the merge stage runs that
operation and then counts as issued. -/
def Sys2Proof.Claims.StepRunsOne : Prop :=
  ∀ s : State,
    (∀ i a l, s.todo = (i, a) :: l → step s = exec i { s with todo := l, ev := a }) ∧
    (∀ n l b j s1, s.todo = [] → s.turns = n :: l → n < 1000 → let s0 : State := { s with turns := l }
      standsReady s0 n b j → ((atJob s0 n b j).seqC).cloop.on = false → exec j.i (atJob s0 n b j) = .next s1 → s1.latch.stat = .go →
      let u := State.settleB s0 (s1.headDone s0 n b [j]) n
      (u.ctx n).group.head?.any (fun x => x.early) = false → step s = .next u) ∧
    (∀ n b o i m, b.ops = [o] → b.hdr.runs 0 o.member = true → o.slot < 8 → o.dec = .ok i → s.membersOf n = [m] →
      (s.ctx m).sticky = [] →
      s.jobs n b = [{ n := m, slot := o.slot, w0 := o.w0, x := o.x, i := i }])

/-- A step runs the decoded operation (R19, R24, R26, R31, R33). -/
def Obligations.StepRunsTheOperation : Prop := Claims.OneOperationBundles ∧ Claims.StepRunsOne


/-- R24 to R30: every well-formed operation decodes from its encoding, with every operand. -/
def Sys2Proof.Claims.EncodedOperationsDecode : Prop :=
  ∀ (i : Instr) (sl : Slot) (w0 : BitVec 32) (x : Option (BitVec 32)), i.wf = true → encode i = some (sl, w0, x) →
    decodeOp sl w0 (x.getD 0) = .ok i

/-- R24 to R30, R41: what decodes is well formed, and its encoding is the word that it was decoded from. -/
def Sys2Proof.Claims.DecodedOperationsEncode : Prop :=
  ∀ (i : Instr) (sl : Slot) (w0 x : BitVec 32), decodeOp sl w0 x = .ok i →
    i.wf = true ∧ encode i = some (sl, w0, if w0.getLsbD 31 then some x else none)

/-- Decode and encode agree, for every operation and every operand (R24, R28, R29, R30, R41, R42, R43, R44, R45). -/
def Obligations.EncodingRoundTrip : Prop := Claims.EncodedOperationsDecode ∧ Claims.DecodedOperationsEncode


/-- R16, R149, log 1: every step keeps memory in its canonical form, from every state. -/
def Obligations.MemoryStaysCanonical : Prop :=
  ∀ s t : State, s.MemInv → step s = .next t → t.MemInv

/-- R66, R72, R188, R251, R346, R147: what stands in the machine after reset, and that its memory is canonical. That `FBS` reads 0
before firmware sets its BASE, and that a barrier's count is 0, are the model's choices (logs 2 and 11). -/
def Obligations.ResetState : Prop :=
  let s := State.reset
  s.MemInv ∧ (∀ n, n < 192 →
    s.csrRead n 0x000 = 0x08814411 ∧ s.csrRead n 0x001 = 127 ∧ s.csrRead n 0x002 = 127 ∧
    s.csrRead n 0x003 = 0x7800000000000000 ∧ s.csrRead n 0x004 = 0 ∧
    s.csrRead n 0x005 = 0 ∧ s.csrRead n 0x006 = 0 ∧ s.csrRead n 0x081 = 0 ∧ s.csrRead n 0x083 = 12 ∧
    s.csrRead n 0x041 = BitVec.ofNat 64 (n / 2) ∧ s.csrRead n 0x042 = BitVec.ofNat 64 (n / 8) ∧
    s.csrRead n 0x043 = BitVec.ofNat 64 (n / 48) ∧ (s.ctx n).loops = [] ∧ (s.ctx n).larder = [] ∧ (s.ctx n).mode = .off) ∧
  (∀ c i, ((mget {} (s.cluster c).bars i : Barrier)).exp = 1 ∧ ((mget {} (s.cluster c).bars i : Barrier)).cnt = 0)
end

