-- ==== Sys2Proof/Laws/State.lean ====
section
/-! SUPPORT. The small lemmas of the sparse maps, of memory and of the updates of State: what each update leaves alone, field
by field, and what the accessors read after it. -/

namespace Sys2Proof.Machine

/-! ### Sparse maps -/

@[simp] theorem mget_mput_same {α : Type} (d : α) (m : TMap α) (k : Nat) (v : α) : mget d (mput m k v) k = v := by
  induction m with
  | nil => simp [mput, mget]
  | cons x m ih =>
    obtain ⟨k', w⟩ := x
    simp only [mput]
    split
    · simp [mget]
    · split
      · simp [mget]
      · simp [mget, *]

theorem mget_mput_other {α : Type} (d : α) (m : TMap α) {k j : Nat} (v : α) (h : j ≠ k) :
    mget d (mput m k v) j = mget d m j := by
  induction m with
  | nil => simp [mput, mget, h]
  | cons x m ih =>
    obtain ⟨k', w⟩ := x
    simp only [mput]
    split
    · simp [mget, h]
    · split
      · subst_vars; simp [mget, h]
      · simp [mget, ih]

theorem mget_mput {α : Type} (d : α) (m : TMap α) (k j : Nat) (v : α) :
    mget d (mput m k v) j = if j = k then v else mget d m j := by
  split
  · subst_vars; simp
  · exact mget_mput_other d m v ‹_›

/-! ### What an update leaves alone -/

@[simp] theorem State.setCtx_mem (s : State) (n : Nat) (c : Ctx) : (s.setCtx n c).mem = s.mem := rfl
@[simp] theorem State.setCtx_cycle (s : State) (n : Nat) (c : Ctx) : (s.setCtx n c).cycle = s.cycle := rfl
@[simp] theorem State.setCtx_cores (s : State) (n : Nat) (c : Ctx) : (s.setCtx n c).cores = s.cores := rfl
@[simp] theorem State.setCtx_arrays (s : State) (n : Nat) (c : Ctx) : (s.setCtx n c).arrays = s.arrays := rfl
@[simp] theorem State.setCtx_clusters (s : State) (n : Nat) (c : Ctx) : (s.setCtx n c).clusters = s.clusters := rfl
@[simp] theorem State.setCtx_wings (s : State) (n : Nat) (c : Ctx) : (s.setCtx n c).wings = s.wings := rfl
@[simp] theorem State.setCtx_saves (s : State) (n : Nat) (c : Ctx) : (s.setCtx n c).saves = s.saves := rfl
@[simp] theorem State.setCtx_mod (s : State) (n : Nat) (c : Ctx) : (s.setCtx n c).mod = s.mod := rfl
@[simp] theorem State.setCtx_inputs (s : State) (n : Nat) (c : Ctx) : (s.setCtx n c).inputs = s.inputs := rfl
@[simp] theorem State.setCtx_todo (s : State) (n : Nat) (c : Ctx) : (s.setCtx n c).todo = s.todo := rfl
@[simp] theorem State.setCtx_picks (s : State) (n : Nat) (c : Ctx) : (s.setCtx n c).picks = s.picks := rfl
@[simp] theorem State.setCtx_frees (s : State) (n : Nat) (c : Ctx) : (s.setCtx n c).frees = s.frees := rfl
@[simp] theorem State.setCtx_turns (s : State) (n : Nat) (c : Ctx) : (s.setCtx n c).turns = s.turns := rfl
@[simp] theorem State.setCtx_uid (s : State) (n : Nat) (c : Ctx) : (s.setCtx n c).uid = s.uid := rfl
@[simp] theorem State.setCtx_portW (s : State) (n : Nat) (c : Ctx) : (s.setCtx n c).portW = s.portW := rfl
@[simp] theorem State.setCtx_barIn (s : State) (n : Nat) (c : Ctx) : (s.setCtx n c).barIn = s.barIn := rfl
@[simp] theorem State.setCtx_csrLate (s : State) (n : Nat) (c : Ctx) : (s.setCtx n c).csrLate = s.csrLate := rfl
@[simp] theorem State.setCtx_outq (s : State) (n : Nat) (c : Ctx) : (s.setCtx n c).outq = s.outq := rfl
@[simp] theorem State.setCtx_net (s : State) (n : Nat) (c : Ctx) : (s.setCtx n c).net = s.net := rfl
@[simp] theorem State.setCtx_wire (s : State) (n : Nat) (c : Ctx) : (s.setCtx n c).wire = s.wire := rfl
@[simp] theorem State.setCtx_resps (s : State) (n : Nat) (c : Ctx) : (s.setCtx n c).resps = s.resps := rfl
@[simp] theorem State.setCtx_sent (s : State) (n : Nat) (c : Ctx) : (s.setCtx n c).sent = s.sent := rfl
@[simp] theorem State.setCtx_fab (s : State) (n : Nat) (c : Ctx) : (s.setCtx n c).fab = s.fab := rfl
@[simp] theorem State.setCtx_latch (s : State) (n : Nat) (c : Ctx) : (s.setCtx n c).latch = s.latch := rfl
@[simp] theorem State.setCtx_ev (s : State) (n : Nat) (c : Ctx) : (s.setCtx n c).ev = s.ev := rfl

@[simp] theorem State.onCtx_mem (s : State) (n : Nat) (f : Ctx → Ctx) : (s.onCtx n f).mem = s.mem := rfl
@[simp] theorem State.onCtx_cycle (s : State) (n : Nat) (f : Ctx → Ctx) : (s.onCtx n f).cycle = s.cycle := rfl
@[simp] theorem State.onCtx_cores (s : State) (n : Nat) (f : Ctx → Ctx) : (s.onCtx n f).cores = s.cores := rfl
@[simp] theorem State.onCtx_arrays (s : State) (n : Nat) (f : Ctx → Ctx) : (s.onCtx n f).arrays = s.arrays := rfl
@[simp] theorem State.onCtx_clusters (s : State) (n : Nat) (f : Ctx → Ctx) : (s.onCtx n f).clusters = s.clusters := rfl
@[simp] theorem State.onCtx_wings (s : State) (n : Nat) (f : Ctx → Ctx) : (s.onCtx n f).wings = s.wings := rfl
@[simp] theorem State.onCtx_saves (s : State) (n : Nat) (f : Ctx → Ctx) : (s.onCtx n f).saves = s.saves := rfl
@[simp] theorem State.onCtx_mod (s : State) (n : Nat) (f : Ctx → Ctx) : (s.onCtx n f).mod = s.mod := rfl
@[simp] theorem State.onCtx_inputs (s : State) (n : Nat) (f : Ctx → Ctx) : (s.onCtx n f).inputs = s.inputs := rfl
@[simp] theorem State.onCtx_todo (s : State) (n : Nat) (f : Ctx → Ctx) : (s.onCtx n f).todo = s.todo := rfl
@[simp] theorem State.onCtx_picks (s : State) (n : Nat) (f : Ctx → Ctx) : (s.onCtx n f).picks = s.picks := rfl
@[simp] theorem State.onCtx_frees (s : State) (n : Nat) (f : Ctx → Ctx) : (s.onCtx n f).frees = s.frees := rfl
@[simp] theorem State.onCtx_turns (s : State) (n : Nat) (f : Ctx → Ctx) : (s.onCtx n f).turns = s.turns := rfl
@[simp] theorem State.onCtx_uid (s : State) (n : Nat) (f : Ctx → Ctx) : (s.onCtx n f).uid = s.uid := rfl
@[simp] theorem State.onCtx_portW (s : State) (n : Nat) (f : Ctx → Ctx) : (s.onCtx n f).portW = s.portW := rfl
@[simp] theorem State.onCtx_barIn (s : State) (n : Nat) (f : Ctx → Ctx) : (s.onCtx n f).barIn = s.barIn := rfl
@[simp] theorem State.onCtx_csrLate (s : State) (n : Nat) (f : Ctx → Ctx) : (s.onCtx n f).csrLate = s.csrLate := rfl
@[simp] theorem State.onCtx_outq (s : State) (n : Nat) (f : Ctx → Ctx) : (s.onCtx n f).outq = s.outq := rfl
@[simp] theorem State.onCtx_net (s : State) (n : Nat) (f : Ctx → Ctx) : (s.onCtx n f).net = s.net := rfl
@[simp] theorem State.onCtx_wire (s : State) (n : Nat) (f : Ctx → Ctx) : (s.onCtx n f).wire = s.wire := rfl
@[simp] theorem State.onCtx_resps (s : State) (n : Nat) (f : Ctx → Ctx) : (s.onCtx n f).resps = s.resps := rfl
@[simp] theorem State.onCtx_sent (s : State) (n : Nat) (f : Ctx → Ctx) : (s.onCtx n f).sent = s.sent := rfl
@[simp] theorem State.onCtx_fab (s : State) (n : Nat) (f : Ctx → Ctx) : (s.onCtx n f).fab = s.fab := rfl
@[simp] theorem State.onCtx_latch (s : State) (n : Nat) (f : Ctx → Ctx) : (s.onCtx n f).latch = s.latch := rfl
@[simp] theorem State.onCtx_ev (s : State) (n : Nat) (f : Ctx → Ctx) : (s.onCtx n f).ev = s.ev := rfl

@[simp] theorem State.setCore_mem (s : State) (k : Nat) (c : Core) : (s.setCore k c).mem = s.mem := rfl
@[simp] theorem State.setCore_cycle (s : State) (k : Nat) (c : Core) : (s.setCore k c).cycle = s.cycle := rfl
@[simp] theorem State.setCore_ctxs (s : State) (k : Nat) (c : Core) : (s.setCore k c).ctxs = s.ctxs := rfl
@[simp] theorem State.setCore_arrays (s : State) (k : Nat) (c : Core) : (s.setCore k c).arrays = s.arrays := rfl
@[simp] theorem State.setCore_clusters (s : State) (k : Nat) (c : Core) : (s.setCore k c).clusters = s.clusters := rfl
@[simp] theorem State.setCore_wings (s : State) (k : Nat) (c : Core) : (s.setCore k c).wings = s.wings := rfl
@[simp] theorem State.setCore_saves (s : State) (k : Nat) (c : Core) : (s.setCore k c).saves = s.saves := rfl
@[simp] theorem State.setCore_mod (s : State) (k : Nat) (c : Core) : (s.setCore k c).mod = s.mod := rfl
@[simp] theorem State.setCore_inputs (s : State) (k : Nat) (c : Core) : (s.setCore k c).inputs = s.inputs := rfl
@[simp] theorem State.setCore_todo (s : State) (k : Nat) (c : Core) : (s.setCore k c).todo = s.todo := rfl
@[simp] theorem State.setCore_picks (s : State) (k : Nat) (c : Core) : (s.setCore k c).picks = s.picks := rfl
@[simp] theorem State.setCore_frees (s : State) (k : Nat) (c : Core) : (s.setCore k c).frees = s.frees := rfl
@[simp] theorem State.setCore_turns (s : State) (k : Nat) (c : Core) : (s.setCore k c).turns = s.turns := rfl
@[simp] theorem State.setCore_uid (s : State) (k : Nat) (c : Core) : (s.setCore k c).uid = s.uid := rfl
@[simp] theorem State.setCore_portW (s : State) (k : Nat) (c : Core) : (s.setCore k c).portW = s.portW := rfl
@[simp] theorem State.setCore_barIn (s : State) (k : Nat) (c : Core) : (s.setCore k c).barIn = s.barIn := rfl
@[simp] theorem State.setCore_csrLate (s : State) (k : Nat) (c : Core) : (s.setCore k c).csrLate = s.csrLate := rfl
@[simp] theorem State.setCore_outq (s : State) (k : Nat) (c : Core) : (s.setCore k c).outq = s.outq := rfl
@[simp] theorem State.setCore_net (s : State) (k : Nat) (c : Core) : (s.setCore k c).net = s.net := rfl
@[simp] theorem State.setCore_wire (s : State) (k : Nat) (c : Core) : (s.setCore k c).wire = s.wire := rfl
@[simp] theorem State.setCore_resps (s : State) (k : Nat) (c : Core) : (s.setCore k c).resps = s.resps := rfl
@[simp] theorem State.setCore_sent (s : State) (k : Nat) (c : Core) : (s.setCore k c).sent = s.sent := rfl
@[simp] theorem State.setCore_fab (s : State) (k : Nat) (c : Core) : (s.setCore k c).fab = s.fab := rfl
@[simp] theorem State.setCore_latch (s : State) (k : Nat) (c : Core) : (s.setCore k c).latch = s.latch := rfl
@[simp] theorem State.setCore_ev (s : State) (k : Nat) (c : Core) : (s.setCore k c).ev = s.ev := rfl

@[simp] theorem State.onCore_mem (s : State) (k : Nat) (f : Core → Core) : (s.onCore k f).mem = s.mem := rfl
@[simp] theorem State.onCore_cycle (s : State) (k : Nat) (f : Core → Core) : (s.onCore k f).cycle = s.cycle := rfl
@[simp] theorem State.onCore_ctxs (s : State) (k : Nat) (f : Core → Core) : (s.onCore k f).ctxs = s.ctxs := rfl
@[simp] theorem State.onCore_arrays (s : State) (k : Nat) (f : Core → Core) : (s.onCore k f).arrays = s.arrays := rfl
@[simp] theorem State.onCore_clusters (s : State) (k : Nat) (f : Core → Core) : (s.onCore k f).clusters = s.clusters := rfl
@[simp] theorem State.onCore_wings (s : State) (k : Nat) (f : Core → Core) : (s.onCore k f).wings = s.wings := rfl
@[simp] theorem State.onCore_saves (s : State) (k : Nat) (f : Core → Core) : (s.onCore k f).saves = s.saves := rfl
@[simp] theorem State.onCore_mod (s : State) (k : Nat) (f : Core → Core) : (s.onCore k f).mod = s.mod := rfl
@[simp] theorem State.onCore_inputs (s : State) (k : Nat) (f : Core → Core) : (s.onCore k f).inputs = s.inputs := rfl
@[simp] theorem State.onCore_todo (s : State) (k : Nat) (f : Core → Core) : (s.onCore k f).todo = s.todo := rfl
@[simp] theorem State.onCore_picks (s : State) (k : Nat) (f : Core → Core) : (s.onCore k f).picks = s.picks := rfl
@[simp] theorem State.onCore_frees (s : State) (k : Nat) (f : Core → Core) : (s.onCore k f).frees = s.frees := rfl
@[simp] theorem State.onCore_turns (s : State) (k : Nat) (f : Core → Core) : (s.onCore k f).turns = s.turns := rfl
@[simp] theorem State.onCore_uid (s : State) (k : Nat) (f : Core → Core) : (s.onCore k f).uid = s.uid := rfl
@[simp] theorem State.onCore_portW (s : State) (k : Nat) (f : Core → Core) : (s.onCore k f).portW = s.portW := rfl
@[simp] theorem State.onCore_barIn (s : State) (k : Nat) (f : Core → Core) : (s.onCore k f).barIn = s.barIn := rfl
@[simp] theorem State.onCore_csrLate (s : State) (k : Nat) (f : Core → Core) : (s.onCore k f).csrLate = s.csrLate := rfl
@[simp] theorem State.onCore_outq (s : State) (k : Nat) (f : Core → Core) : (s.onCore k f).outq = s.outq := rfl
@[simp] theorem State.onCore_net (s : State) (k : Nat) (f : Core → Core) : (s.onCore k f).net = s.net := rfl
@[simp] theorem State.onCore_wire (s : State) (k : Nat) (f : Core → Core) : (s.onCore k f).wire = s.wire := rfl
@[simp] theorem State.onCore_resps (s : State) (k : Nat) (f : Core → Core) : (s.onCore k f).resps = s.resps := rfl
@[simp] theorem State.onCore_sent (s : State) (k : Nat) (f : Core → Core) : (s.onCore k f).sent = s.sent := rfl
@[simp] theorem State.onCore_fab (s : State) (k : Nat) (f : Core → Core) : (s.onCore k f).fab = s.fab := rfl
@[simp] theorem State.onCore_latch (s : State) (k : Nat) (f : Core → Core) : (s.onCore k f).latch = s.latch := rfl
@[simp] theorem State.onCore_ev (s : State) (k : Nat) (f : Core → Core) : (s.onCore k f).ev = s.ev := rfl

@[simp] theorem State.setArr_mem (s : State) (k : Nat) (a : Arr) : (s.setArr k a).mem = s.mem := rfl
@[simp] theorem State.setArr_cycle (s : State) (k : Nat) (a : Arr) : (s.setArr k a).cycle = s.cycle := rfl
@[simp] theorem State.setArr_ctxs (s : State) (k : Nat) (a : Arr) : (s.setArr k a).ctxs = s.ctxs := rfl
@[simp] theorem State.setArr_cores (s : State) (k : Nat) (a : Arr) : (s.setArr k a).cores = s.cores := rfl
@[simp] theorem State.setArr_clusters (s : State) (k : Nat) (a : Arr) : (s.setArr k a).clusters = s.clusters := rfl
@[simp] theorem State.setArr_wings (s : State) (k : Nat) (a : Arr) : (s.setArr k a).wings = s.wings := rfl
@[simp] theorem State.setArr_saves (s : State) (k : Nat) (a : Arr) : (s.setArr k a).saves = s.saves := rfl
@[simp] theorem State.setArr_mod (s : State) (k : Nat) (a : Arr) : (s.setArr k a).mod = s.mod := rfl
@[simp] theorem State.setArr_inputs (s : State) (k : Nat) (a : Arr) : (s.setArr k a).inputs = s.inputs := rfl
@[simp] theorem State.setArr_todo (s : State) (k : Nat) (a : Arr) : (s.setArr k a).todo = s.todo := rfl
@[simp] theorem State.setArr_picks (s : State) (k : Nat) (a : Arr) : (s.setArr k a).picks = s.picks := rfl
@[simp] theorem State.setArr_frees (s : State) (k : Nat) (a : Arr) : (s.setArr k a).frees = s.frees := rfl
@[simp] theorem State.setArr_turns (s : State) (k : Nat) (a : Arr) : (s.setArr k a).turns = s.turns := rfl
@[simp] theorem State.setArr_uid (s : State) (k : Nat) (a : Arr) : (s.setArr k a).uid = s.uid := rfl
@[simp] theorem State.setArr_portW (s : State) (k : Nat) (a : Arr) : (s.setArr k a).portW = s.portW := rfl
@[simp] theorem State.setArr_barIn (s : State) (k : Nat) (a : Arr) : (s.setArr k a).barIn = s.barIn := rfl
@[simp] theorem State.setArr_csrLate (s : State) (k : Nat) (a : Arr) : (s.setArr k a).csrLate = s.csrLate := rfl
@[simp] theorem State.setArr_outq (s : State) (k : Nat) (a : Arr) : (s.setArr k a).outq = s.outq := rfl
@[simp] theorem State.setArr_net (s : State) (k : Nat) (a : Arr) : (s.setArr k a).net = s.net := rfl
@[simp] theorem State.setArr_wire (s : State) (k : Nat) (a : Arr) : (s.setArr k a).wire = s.wire := rfl
@[simp] theorem State.setArr_resps (s : State) (k : Nat) (a : Arr) : (s.setArr k a).resps = s.resps := rfl
@[simp] theorem State.setArr_sent (s : State) (k : Nat) (a : Arr) : (s.setArr k a).sent = s.sent := rfl
@[simp] theorem State.setArr_fab (s : State) (k : Nat) (a : Arr) : (s.setArr k a).fab = s.fab := rfl
@[simp] theorem State.setArr_latch (s : State) (k : Nat) (a : Arr) : (s.setArr k a).latch = s.latch := rfl
@[simp] theorem State.setArr_ev (s : State) (k : Nat) (a : Arr) : (s.setArr k a).ev = s.ev := rfl

@[simp] theorem State.setCluster_mem (s : State) (k : Nat) (c : Cluster) : (s.setCluster k c).mem = s.mem := rfl
@[simp] theorem State.setCluster_cycle (s : State) (k : Nat) (c : Cluster) : (s.setCluster k c).cycle = s.cycle := rfl
@[simp] theorem State.setCluster_ctxs (s : State) (k : Nat) (c : Cluster) : (s.setCluster k c).ctxs = s.ctxs := rfl
@[simp] theorem State.setCluster_cores (s : State) (k : Nat) (c : Cluster) : (s.setCluster k c).cores = s.cores := rfl
@[simp] theorem State.setCluster_arrays (s : State) (k : Nat) (c : Cluster) : (s.setCluster k c).arrays = s.arrays := rfl
@[simp] theorem State.setCluster_wings (s : State) (k : Nat) (c : Cluster) : (s.setCluster k c).wings = s.wings := rfl
@[simp] theorem State.setCluster_saves (s : State) (k : Nat) (c : Cluster) : (s.setCluster k c).saves = s.saves := rfl
@[simp] theorem State.setCluster_mod (s : State) (k : Nat) (c : Cluster) : (s.setCluster k c).mod = s.mod := rfl
@[simp] theorem State.setCluster_inputs (s : State) (k : Nat) (c : Cluster) : (s.setCluster k c).inputs = s.inputs := rfl
@[simp] theorem State.setCluster_todo (s : State) (k : Nat) (c : Cluster) : (s.setCluster k c).todo = s.todo := rfl
@[simp] theorem State.setCluster_picks (s : State) (k : Nat) (c : Cluster) : (s.setCluster k c).picks = s.picks := rfl
@[simp] theorem State.setCluster_frees (s : State) (k : Nat) (c : Cluster) : (s.setCluster k c).frees = s.frees := rfl
@[simp] theorem State.setCluster_turns (s : State) (k : Nat) (c : Cluster) : (s.setCluster k c).turns = s.turns := rfl
@[simp] theorem State.setCluster_uid (s : State) (k : Nat) (c : Cluster) : (s.setCluster k c).uid = s.uid := rfl
@[simp] theorem State.setCluster_portW (s : State) (k : Nat) (c : Cluster) : (s.setCluster k c).portW = s.portW := rfl
@[simp] theorem State.setCluster_barIn (s : State) (k : Nat) (c : Cluster) : (s.setCluster k c).barIn = s.barIn := rfl
@[simp] theorem State.setCluster_csrLate (s : State) (k : Nat) (c : Cluster) : (s.setCluster k c).csrLate = s.csrLate := rfl
@[simp] theorem State.setCluster_outq (s : State) (k : Nat) (c : Cluster) : (s.setCluster k c).outq = s.outq := rfl
@[simp] theorem State.setCluster_net (s : State) (k : Nat) (c : Cluster) : (s.setCluster k c).net = s.net := rfl
@[simp] theorem State.setCluster_wire (s : State) (k : Nat) (c : Cluster) : (s.setCluster k c).wire = s.wire := rfl
@[simp] theorem State.setCluster_resps (s : State) (k : Nat) (c : Cluster) : (s.setCluster k c).resps = s.resps := rfl
@[simp] theorem State.setCluster_sent (s : State) (k : Nat) (c : Cluster) : (s.setCluster k c).sent = s.sent := rfl
@[simp] theorem State.setCluster_fab (s : State) (k : Nat) (c : Cluster) : (s.setCluster k c).fab = s.fab := rfl
@[simp] theorem State.setCluster_latch (s : State) (k : Nat) (c : Cluster) : (s.setCluster k c).latch = s.latch := rfl
@[simp] theorem State.setCluster_ev (s : State) (k : Nat) (c : Cluster) : (s.setCluster k c).ev = s.ev := rfl

@[simp] theorem State.setWing_mem (s : State) (k : Nat) (w : Wing) : (s.setWing k w).mem = s.mem := rfl
@[simp] theorem State.setWing_cycle (s : State) (k : Nat) (w : Wing) : (s.setWing k w).cycle = s.cycle := rfl
@[simp] theorem State.setWing_ctxs (s : State) (k : Nat) (w : Wing) : (s.setWing k w).ctxs = s.ctxs := rfl
@[simp] theorem State.setWing_cores (s : State) (k : Nat) (w : Wing) : (s.setWing k w).cores = s.cores := rfl
@[simp] theorem State.setWing_arrays (s : State) (k : Nat) (w : Wing) : (s.setWing k w).arrays = s.arrays := rfl
@[simp] theorem State.setWing_clusters (s : State) (k : Nat) (w : Wing) : (s.setWing k w).clusters = s.clusters := rfl
@[simp] theorem State.setWing_saves (s : State) (k : Nat) (w : Wing) : (s.setWing k w).saves = s.saves := rfl
@[simp] theorem State.setWing_mod (s : State) (k : Nat) (w : Wing) : (s.setWing k w).mod = s.mod := rfl
@[simp] theorem State.setWing_inputs (s : State) (k : Nat) (w : Wing) : (s.setWing k w).inputs = s.inputs := rfl
@[simp] theorem State.setWing_todo (s : State) (k : Nat) (w : Wing) : (s.setWing k w).todo = s.todo := rfl
@[simp] theorem State.setWing_picks (s : State) (k : Nat) (w : Wing) : (s.setWing k w).picks = s.picks := rfl
@[simp] theorem State.setWing_frees (s : State) (k : Nat) (w : Wing) : (s.setWing k w).frees = s.frees := rfl
@[simp] theorem State.setWing_turns (s : State) (k : Nat) (w : Wing) : (s.setWing k w).turns = s.turns := rfl
@[simp] theorem State.setWing_uid (s : State) (k : Nat) (w : Wing) : (s.setWing k w).uid = s.uid := rfl
@[simp] theorem State.setWing_portW (s : State) (k : Nat) (w : Wing) : (s.setWing k w).portW = s.portW := rfl
@[simp] theorem State.setWing_barIn (s : State) (k : Nat) (w : Wing) : (s.setWing k w).barIn = s.barIn := rfl
@[simp] theorem State.setWing_csrLate (s : State) (k : Nat) (w : Wing) : (s.setWing k w).csrLate = s.csrLate := rfl
@[simp] theorem State.setWing_outq (s : State) (k : Nat) (w : Wing) : (s.setWing k w).outq = s.outq := rfl
@[simp] theorem State.setWing_net (s : State) (k : Nat) (w : Wing) : (s.setWing k w).net = s.net := rfl
@[simp] theorem State.setWing_wire (s : State) (k : Nat) (w : Wing) : (s.setWing k w).wire = s.wire := rfl
@[simp] theorem State.setWing_resps (s : State) (k : Nat) (w : Wing) : (s.setWing k w).resps = s.resps := rfl
@[simp] theorem State.setWing_sent (s : State) (k : Nat) (w : Wing) : (s.setWing k w).sent = s.sent := rfl
@[simp] theorem State.setWing_fab (s : State) (k : Nat) (w : Wing) : (s.setWing k w).fab = s.fab := rfl
@[simp] theorem State.setWing_latch (s : State) (k : Nat) (w : Wing) : (s.setWing k w).latch = s.latch := rfl
@[simp] theorem State.setWing_ev (s : State) (k : Nat) (w : Wing) : (s.setWing k w).ev = s.ev := rfl

@[simp] theorem State.onCur_mem (s : State) (f : Ctx → Ctx) : (s.onCur f).mem = s.mem := rfl
@[simp] theorem State.onCur_cycle (s : State) (f : Ctx → Ctx) : (s.onCur f).cycle = s.cycle := rfl
@[simp] theorem State.onCur_cores (s : State) (f : Ctx → Ctx) : (s.onCur f).cores = s.cores := rfl
@[simp] theorem State.onCur_arrays (s : State) (f : Ctx → Ctx) : (s.onCur f).arrays = s.arrays := rfl
@[simp] theorem State.onCur_clusters (s : State) (f : Ctx → Ctx) : (s.onCur f).clusters = s.clusters := rfl
@[simp] theorem State.onCur_wings (s : State) (f : Ctx → Ctx) : (s.onCur f).wings = s.wings := rfl
@[simp] theorem State.onCur_saves (s : State) (f : Ctx → Ctx) : (s.onCur f).saves = s.saves := rfl
@[simp] theorem State.onCur_mod (s : State) (f : Ctx → Ctx) : (s.onCur f).mod = s.mod := rfl
@[simp] theorem State.onCur_inputs (s : State) (f : Ctx → Ctx) : (s.onCur f).inputs = s.inputs := rfl
@[simp] theorem State.onCur_todo (s : State) (f : Ctx → Ctx) : (s.onCur f).todo = s.todo := rfl
@[simp] theorem State.onCur_picks (s : State) (f : Ctx → Ctx) : (s.onCur f).picks = s.picks := rfl
@[simp] theorem State.onCur_frees (s : State) (f : Ctx → Ctx) : (s.onCur f).frees = s.frees := rfl
@[simp] theorem State.onCur_turns (s : State) (f : Ctx → Ctx) : (s.onCur f).turns = s.turns := rfl
@[simp] theorem State.onCur_uid (s : State) (f : Ctx → Ctx) : (s.onCur f).uid = s.uid := rfl
@[simp] theorem State.onCur_portW (s : State) (f : Ctx → Ctx) : (s.onCur f).portW = s.portW := rfl
@[simp] theorem State.onCur_barIn (s : State) (f : Ctx → Ctx) : (s.onCur f).barIn = s.barIn := rfl
@[simp] theorem State.onCur_csrLate (s : State) (f : Ctx → Ctx) : (s.onCur f).csrLate = s.csrLate := rfl
@[simp] theorem State.onCur_outq (s : State) (f : Ctx → Ctx) : (s.onCur f).outq = s.outq := rfl
@[simp] theorem State.onCur_net (s : State) (f : Ctx → Ctx) : (s.onCur f).net = s.net := rfl
@[simp] theorem State.onCur_wire (s : State) (f : Ctx → Ctx) : (s.onCur f).wire = s.wire := rfl
@[simp] theorem State.onCur_resps (s : State) (f : Ctx → Ctx) : (s.onCur f).resps = s.resps := rfl
@[simp] theorem State.onCur_sent (s : State) (f : Ctx → Ctx) : (s.onCur f).sent = s.sent := rfl
@[simp] theorem State.onCur_fab (s : State) (f : Ctx → Ctx) : (s.onCur f).fab = s.fab := rfl
@[simp] theorem State.onCur_latch (s : State) (f : Ctx → Ctx) : (s.onCur f).latch = s.latch := rfl
@[simp] theorem State.onCur_ev (s : State) (f : Ctx → Ctx) : (s.onCur f).ev = s.ev := rfl

@[simp] theorem State.stat_mem (s : State) (l : LStat) : (s.stat l).mem = s.mem := rfl
@[simp] theorem State.stat_cycle (s : State) (l : LStat) : (s.stat l).cycle = s.cycle := rfl
@[simp] theorem State.stat_ctxs (s : State) (l : LStat) : (s.stat l).ctxs = s.ctxs := rfl
@[simp] theorem State.stat_cores (s : State) (l : LStat) : (s.stat l).cores = s.cores := rfl
@[simp] theorem State.stat_arrays (s : State) (l : LStat) : (s.stat l).arrays = s.arrays := rfl
@[simp] theorem State.stat_clusters (s : State) (l : LStat) : (s.stat l).clusters = s.clusters := rfl
@[simp] theorem State.stat_wings (s : State) (l : LStat) : (s.stat l).wings = s.wings := rfl
@[simp] theorem State.stat_saves (s : State) (l : LStat) : (s.stat l).saves = s.saves := rfl
@[simp] theorem State.stat_mod (s : State) (l : LStat) : (s.stat l).mod = s.mod := rfl
@[simp] theorem State.stat_inputs (s : State) (l : LStat) : (s.stat l).inputs = s.inputs := rfl
@[simp] theorem State.stat_todo (s : State) (l : LStat) : (s.stat l).todo = s.todo := rfl
@[simp] theorem State.stat_picks (s : State) (l : LStat) : (s.stat l).picks = s.picks := rfl
@[simp] theorem State.stat_frees (s : State) (l : LStat) : (s.stat l).frees = s.frees := rfl
@[simp] theorem State.stat_turns (s : State) (l : LStat) : (s.stat l).turns = s.turns := rfl
@[simp] theorem State.stat_uid (s : State) (l : LStat) : (s.stat l).uid = s.uid := rfl
@[simp] theorem State.stat_portW (s : State) (l : LStat) : (s.stat l).portW = s.portW := rfl
@[simp] theorem State.stat_barIn (s : State) (l : LStat) : (s.stat l).barIn = s.barIn := rfl
@[simp] theorem State.stat_csrLate (s : State) (l : LStat) : (s.stat l).csrLate = s.csrLate := rfl
@[simp] theorem State.stat_outq (s : State) (l : LStat) : (s.stat l).outq = s.outq := rfl
@[simp] theorem State.stat_net (s : State) (l : LStat) : (s.stat l).net = s.net := rfl
@[simp] theorem State.stat_wire (s : State) (l : LStat) : (s.stat l).wire = s.wire := rfl
@[simp] theorem State.stat_resps (s : State) (l : LStat) : (s.stat l).resps = s.resps := rfl
@[simp] theorem State.stat_sent (s : State) (l : LStat) : (s.stat l).sent = s.sent := rfl
@[simp] theorem State.stat_fab (s : State) (l : LStat) : (s.stat l).fab = s.fab := rfl
@[simp] theorem State.stat_ev (s : State) (l : LStat) : (s.stat l).ev = s.ev := rfl

@[simp] theorem State.fresh_mem (s : State) : (s.fresh).mem = s.mem := rfl
@[simp] theorem State.fresh_cycle (s : State) : (s.fresh).cycle = s.cycle := rfl
@[simp] theorem State.fresh_ctxs (s : State) : (s.fresh).ctxs = s.ctxs := rfl
@[simp] theorem State.fresh_cores (s : State) : (s.fresh).cores = s.cores := rfl
@[simp] theorem State.fresh_arrays (s : State) : (s.fresh).arrays = s.arrays := rfl
@[simp] theorem State.fresh_clusters (s : State) : (s.fresh).clusters = s.clusters := rfl
@[simp] theorem State.fresh_wings (s : State) : (s.fresh).wings = s.wings := rfl
@[simp] theorem State.fresh_saves (s : State) : (s.fresh).saves = s.saves := rfl
@[simp] theorem State.fresh_mod (s : State) : (s.fresh).mod = s.mod := rfl
@[simp] theorem State.fresh_inputs (s : State) : (s.fresh).inputs = s.inputs := rfl
@[simp] theorem State.fresh_todo (s : State) : (s.fresh).todo = s.todo := rfl
@[simp] theorem State.fresh_picks (s : State) : (s.fresh).picks = s.picks := rfl
@[simp] theorem State.fresh_frees (s : State) : (s.fresh).frees = s.frees := rfl
@[simp] theorem State.fresh_turns (s : State) : (s.fresh).turns = s.turns := rfl
@[simp] theorem State.fresh_portW (s : State) : (s.fresh).portW = s.portW := rfl
@[simp] theorem State.fresh_barIn (s : State) : (s.fresh).barIn = s.barIn := rfl
@[simp] theorem State.fresh_csrLate (s : State) : (s.fresh).csrLate = s.csrLate := rfl
@[simp] theorem State.fresh_outq (s : State) : (s.fresh).outq = s.outq := rfl
@[simp] theorem State.fresh_net (s : State) : (s.fresh).net = s.net := rfl
@[simp] theorem State.fresh_wire (s : State) : (s.fresh).wire = s.wire := rfl
@[simp] theorem State.fresh_resps (s : State) : (s.fresh).resps = s.resps := rfl
@[simp] theorem State.fresh_sent (s : State) : (s.fresh).sent = s.sent := rfl
@[simp] theorem State.fresh_fab (s : State) : (s.fresh).fab = s.fab := rfl
@[simp] theorem State.fresh_latch (s : State) : (s.fresh).latch = s.latch := rfl
@[simp] theorem State.fresh_ev (s : State) : (s.fresh).ev = s.ev := rfl

/-! ### What the accessors read -/

theorem State.ctx_setCtx (s : State) (n m : Nat) (c : Ctx) : (s.setCtx n c).ctx m = if m = n then c else s.ctx m := by
  simp [mget_mput, State.ctx, State.setCtx]
@[simp] theorem State.ctx_setCtx_same (s : State) (n : Nat) (c : Ctx) : (s.setCtx n c).ctx n = c := by
  simp [State.ctx, State.setCtx]
theorem State.ctx_onCtx (s : State) (n m : Nat) (f : Ctx → Ctx) : (s.onCtx n f).ctx m = if m = n then f (s.ctx n) else s.ctx m := by
  simp [mget_mput, State.ctx, State.onCtx, State.setCtx]
@[simp] theorem State.ctx_onCtx_same (s : State) (n : Nat) (f : Ctx → Ctx) : (s.onCtx n f).ctx n = f (s.ctx n) := by
  simp [State.ctx, State.onCtx, State.setCtx]
theorem State.ctx_onCur (s : State) (m : Nat) (f : Ctx → Ctx) :
    (s.onCur f).ctx m = if m = s.latch.n then f s.cur else s.ctx m := by
  simp [mget_mput, State.ctx, State.onCur, State.onCtx, State.setCtx, State.cur]
@[simp] theorem State.cur_onCur (s : State) (f : Ctx → Ctx) : (s.onCur f).cur = f s.cur := by
  simp [State.cur, State.ctx, State.onCur, State.onCtx, State.setCtx]
@[simp] theorem State.ctx_stat (s : State) (l : LStat) (m : Nat) : (s.stat l).ctx m = s.ctx m := rfl
@[simp] theorem State.cur_stat (s : State) (l : LStat) : (s.stat l).cur = s.cur := rfl
@[simp] theorem State.stat_stat (s : State) (l : LStat) : (s.stat l).latch.stat = l := rfl
theorem State.core_setCore (s : State) (k j : Nat) (c : Core) : (s.setCore k c).core j = if j = k then c else s.core j := by
  simp [mget_mput, State.core, State.setCore]
theorem State.core_onCore (s : State) (k j : Nat) (f : Core → Core) :
    (s.onCore k f).core j = if j = k then f (s.core k) else s.core j := by
  simp [mget_mput, State.core, State.onCore, State.setCore]
@[simp] theorem State.core_setCore_same (s : State) (k : Nat) (c : Core) : (s.setCore k c).core k = c := by
  simp [State.core, State.setCore]
@[simp] theorem State.core_onCore_same (s : State) (k : Nat) (f : Core → Core) : (s.onCore k f).core k = f (s.core k) := by
  simp [State.core, State.onCore, State.setCore]
@[simp] theorem State.core_setCtx (s : State) (n : Nat) (c : Ctx) (k : Nat) : (s.setCtx n c).core k = s.core k := rfl
@[simp] theorem State.core_onCtx (s : State) (n : Nat) (f : Ctx → Ctx) (k : Nat) : (s.onCtx n f).core k = s.core k := rfl
@[simp] theorem State.core_onCur (s : State) (f : Ctx → Ctx) (k : Nat) : (s.onCur f).core k = s.core k := rfl
@[simp] theorem State.ctx_setCore (s : State) (k : Nat) (c : Core) (n : Nat) : (s.setCore k c).ctx n = s.ctx n := rfl
@[simp] theorem State.ctx_onCore (s : State) (k : Nat) (f : Core → Core) (n : Nat) : (s.onCore k f).ctx n = s.ctx n := rfl
theorem State.arr_setArr (s : State) (k j : Nat) (a : Arr) : (s.setArr k a).arr j = if j = k then a else s.arr j := by
  simp [mget_mput, State.arr, State.setArr]
theorem State.cluster_setCluster (s : State) (k j : Nat) (c : Cluster) :
    (s.setCluster k c).cluster j = if j = k then c else s.cluster j := by
  simp [mget_mput, State.cluster, State.setCluster]
theorem State.wing_setWing (s : State) (k j : Nat) (w : Wing) : (s.setWing k w).wing j = if j = k then w else s.wing j := by
  simp [mget_mput, State.wing, State.setWing]

/-! ### A drawn free value -/

@[simp] theorem State.drawn_frees (s : State) : s.drawn.frees = s.frees + 1 := rfl
@[simp] theorem State.drawn_mem (s : State) : s.drawn.mem = s.mem := rfl
@[simp] theorem State.drawn_cycle (s : State) : s.drawn.cycle = s.cycle := rfl
@[simp] theorem State.drawn_ctxs (s : State) : s.drawn.ctxs = s.ctxs := rfl
@[simp] theorem State.drawn_cores (s : State) : s.drawn.cores = s.cores := rfl
@[simp] theorem State.drawn_arrays (s : State) : s.drawn.arrays = s.arrays := rfl
@[simp] theorem State.drawn_clusters (s : State) : s.drawn.clusters = s.clusters := rfl
@[simp] theorem State.drawn_wings (s : State) : s.drawn.wings = s.wings := rfl
@[simp] theorem State.drawn_saves (s : State) : s.drawn.saves = s.saves := rfl
@[simp] theorem State.drawn_mod (s : State) : s.drawn.mod = s.mod := rfl
@[simp] theorem State.drawn_inputs (s : State) : s.drawn.inputs = s.inputs := rfl
@[simp] theorem State.drawn_todo (s : State) : s.drawn.todo = s.todo := rfl
@[simp] theorem State.drawn_picks (s : State) : s.drawn.picks = s.picks := rfl
@[simp] theorem State.drawn_turns (s : State) : s.drawn.turns = s.turns := rfl
@[simp] theorem State.drawn_uid (s : State) : s.drawn.uid = s.uid := rfl
@[simp] theorem State.drawn_portW (s : State) : s.drawn.portW = s.portW := rfl
@[simp] theorem State.drawn_barIn (s : State) : s.drawn.barIn = s.barIn := rfl
@[simp] theorem State.drawn_csrLate (s : State) : s.drawn.csrLate = s.csrLate := rfl
@[simp] theorem State.drawn_outq (s : State) : s.drawn.outq = s.outq := rfl
@[simp] theorem State.drawn_net (s : State) : s.drawn.net = s.net := rfl
@[simp] theorem State.drawn_wire (s : State) : s.drawn.wire = s.wire := rfl
@[simp] theorem State.drawn_resps (s : State) : s.drawn.resps = s.resps := rfl
@[simp] theorem State.drawn_sent (s : State) : s.drawn.sent = s.sent := rfl
@[simp] theorem State.drawn_fab (s : State) : s.drawn.fab = s.fab := rfl
@[simp] theorem State.drawn_latch (s : State) : s.drawn.latch = s.latch := rfl
@[simp] theorem State.drawn_ev (s : State) : s.drawn.ev = s.ev := rfl

end Sys2Proof.Machine
end

