-- ==== Sys2Proof/Laws/Memory.lean ====
section
/-! SUPPORT. The laws of memory: a write is read back, leaves every other byte alone, and keeps the canonical form. -/

namespace Sys2Proof.Machine

/-! ### One byte -/

/-- A canonical list reads as the fill below its bound. -/
theorem cellsGet_below {m : List Host.Cell} {lo a : Nat} (h : cellsWf lo m = true) (ha : a < lo) : cellsGet m a = Mem.fill := by
  induction m generalizing lo with
  | nil => rfl
  | cons x m ih =>
    obtain ⟨b, v⟩ := x
    simp only [cellsWf, Bool.and_eq_true, decide_eq_true_eq] at h
    simp only [cellsGet]
    rw [if_neg (by omega)]
    exact ih h.2 (by omega)

theorem cellsWf_mono {m : List Host.Cell} {lo k : Nat} (h : cellsWf lo m = true) (hk : k ≤ lo) : cellsWf k m = true := by
  cases m with
  | nil => rfl
  | cons x m =>
    obtain ⟨b, v⟩ := x
    simp only [cellsWf, Bool.and_eq_true, decide_eq_true_eq] at h ⊢
    exact ⟨⟨by omega, h.1.2⟩, h.2⟩

theorem cellsGet_put_same {m : List Host.Cell} {lo : Nat} (a : Nat) (v : Byte) (h : cellsWf lo m = true) :
    cellsGet (cellsPut m a v) a = v := by
  induction m generalizing lo with
  | nil => simp only [cellsPut]; split <;> simp_all [cellsGet]
  | cons x m ih =>
    obtain ⟨b, w⟩ := x
    simp only [cellsWf, Bool.and_eq_true, decide_eq_true_eq] at h
    simp only [cellsPut]
    by_cases h1 : a < b
    · rw [if_pos h1]
      by_cases h2 : v = Mem.fill
      · rw [if_pos h2]; simp only [cellsGet]; rw [if_neg (by omega), h2]
        exact cellsGet_below (lo := b + 1) h.2 (by omega)
      · rw [if_neg h2]; simp [cellsGet]
    · rw [if_neg h1]
      by_cases h2 : a = b
      · rw [if_pos h2]
        by_cases h3 : v = Mem.fill
        · rw [if_pos h3, h3]; exact cellsGet_below (lo := b + 1) h.2 (by omega)
        · rw [if_neg h3]; simp [cellsGet]
      · rw [if_neg h2]; simp only [cellsGet]; rw [if_neg h2]; exact ih h.2

theorem cellsGet_put_other {m : List Host.Cell} {a k : Nat} (v : Byte) (h : k ≠ a) :
    cellsGet (cellsPut m a v) k = cellsGet m k := by
  induction m with
  | nil => simp only [cellsPut]; split <;> simp [cellsGet, h]
  | cons x m ih =>
    obtain ⟨b, w⟩ := x
    simp only [cellsPut]
    by_cases h1 : a < b
    · rw [if_pos h1]; split <;> simp [cellsGet, h]
    · rw [if_neg h1]
      by_cases h2 : a = b
      · rw [if_pos h2]; subst h2; split <;> simp [cellsGet, h]
      · rw [if_neg h2]; simp only [cellsGet, ih]

theorem cellsWf_put {m : List Host.Cell} {lo : Nat} (a : Nat) (v : Byte) (h : cellsWf lo m = true) :
    cellsWf (min lo a) (cellsPut m a v) = true := by
  induction m generalizing lo with
  | nil =>
    simp only [cellsPut]
    by_cases hv : v = Mem.fill
    · simp [hv, cellsWf]
    · simp [hv, cellsWf]
  | cons x m ih =>
    obtain ⟨b, w⟩ := x
    simp only [cellsWf, Bool.and_eq_true, decide_eq_true_eq] at h
    simp only [cellsPut]
    by_cases h1 : a < b
    · rw [if_pos h1]
      by_cases hv : v = Mem.fill
      · rw [if_pos hv]; simp only [cellsWf, Bool.and_eq_true, decide_eq_true_eq]
        exact ⟨⟨by omega, h.1.2⟩, h.2⟩
      · rw [if_neg hv]; simp only [cellsWf, Bool.and_eq_true, decide_eq_true_eq]
        exact ⟨⟨by omega, hv⟩, ⟨by omega, h.1.2⟩, h.2⟩
    · rw [if_neg h1]
      by_cases h2 : a = b
      · rw [if_pos h2]; subst h2
        by_cases hv : v = Mem.fill
        · rw [if_pos hv]; exact cellsWf_mono h.2 (by omega)
        · rw [if_neg hv]; simp only [cellsWf, Bool.and_eq_true, decide_eq_true_eq]
          exact ⟨⟨by omega, hv⟩, h.2⟩
      · rw [if_neg h2]; simp only [cellsWf, Bool.and_eq_true, decide_eq_true_eq]
        exact ⟨⟨by omega, h.1.2⟩, cellsWf_mono (ih h.2) (by omega)⟩

theorem cellsWf_filter {m : List Host.Cell} {lo : Nat} (p : Host.Cell → Bool) (h : cellsWf lo m = true) :
    cellsWf lo (m.filter p) = true := by
  induction m generalizing lo with
  | nil => rfl
  | cons x m ih =>
    obtain ⟨b, w⟩ := x
    simp only [cellsWf, Bool.and_eq_true, decide_eq_true_eq] at h
    simp only [List.filter]
    split
    · simp only [cellsWf, Bool.and_eq_true, decide_eq_true_eq]
      exact ⟨h.1, ih h.2⟩
    · exact cellsWf_mono (ih h.2) (by omega)

/-- A byte written is the byte read. -/
theorem Mem.get_put_same {m : Mem} (a : Nat) (b : Byte) (h : m.wf = true) : (m.put a b).get a = b :=
  cellsGet_put_same a b h

/-- A write leaves every other byte alone. -/
theorem Mem.get_put_other (m : Mem) {a k : Nat} (b : Byte) (h : k ≠ a) : (m.put a b).get k = m.get k :=
  cellsGet_put_other b h

/-- A write keeps the canonical form. -/
theorem Mem.wf_put {m : Mem} (a : Nat) (b : Byte) (h : m.wf = true) : (m.put a b).wf = true := by
  have := cellsWf_put (lo := 0) a b h
  simpa [Mem.wf, Mem.put] using this

/-! ### Many bytes -/

theorem Mem.wf_write {m : Mem} (a : Nat) (bs : List Byte) (h : m.wf = true) : (m.write a bs).wf = true := by
  induction bs generalizing m a with
  | nil => exact h
  | cons b bs ih => exact ih (a + 1) (Mem.wf_put a b h)

@[simp] theorem Mem.clean_cells (m : Mem) (a n : Nat) : (m.clean a n).cells = m.cells := rfl
@[simp] theorem Mem.taint_cells (m : Mem) (a : Nat) (bs : List Bool) : (m.taint a bs).cells = m.cells := by
  induction bs generalizing m a with
  | nil => rfl
  | cons b bs ih => simp [Mem.taint, ih]

/-- A write of several bytes leaves the bytes outside them alone. -/
theorem Mem.get_write_other (m : Mem) {a k : Nat} (bs : List Byte) (h : k < a ∨ a + bs.length ≤ k) :
    (m.write a bs).get k = m.get k := by
  induction bs generalizing m a with
  | nil => rfl
  | cons b bs ih =>
    simp only [List.length_cons] at h
    rw [Mem.write, ih (m.put a b) (by omega), Mem.get_put_other m b (by omega)]

/-- A write of several bytes is read back. -/
theorem Mem.get_write {m : Mem} (a i : Nat) (bs : List Byte) (h : m.wf = true) (hi : i < bs.length) :
    (m.write a bs).get (a + i) = bs[i] := by
  induction bs generalizing m a i with
  | nil => simp at hi
  | cons b bs ih =>
    cases i with
    | zero =>
      rw [Mem.write, Mem.get_write_other _ bs (by omega)]; exact Mem.get_put_same a b h
    | succ i =>
      have := ih (m := m.put a b) (a + 1) i (Mem.wf_put a b h) (by simpa using hi)
      rw [Mem.write]
      simpa [Nat.add_assoc, Nat.add_comm 1 i] using this

theorem Mem.get_store (m : Mem) (a k : Nat) (bs : List Byte) (bad : List Bool) :
    (m.store a bs bad).get k = (m.write a bs).get k := by simp [Mem.get, Mem.store]

/-- A store keeps the canonical form. -/
theorem Mem.wf_store {m : Mem} (a : Nat) (bs : List Byte) (bad : List Bool) (h : m.wf = true) :
    (m.store a bs bad).wf = true := by simpa [Mem.wf, Mem.store] using Mem.wf_write a bs h

/-- What `storeAt` stores to: at most the bytes given, from its address upward. -/
theorem State.inPart_length {α : Type} (s : State) (a : Nat) (l : List α) : (s.inPart a l).length ≤ l.length := by
  induction l generalizing a with
  | nil => simp [State.inPart]
  | cons b l ih => simp only [State.inPart]; split <;> simp [ih]

theorem State.get_storeAt_other (s : State) {a k : Nat} (bs : List Byte) (bad : List Bool)
    (h : k < a ∨ a + bs.length ≤ k) : (s.storeAt a bs bad).mem.get k = s.mem.get k := by
  have := State.inPart_length s a bs
  rw [State.storeAt, Mem.get_store]
  exact Mem.get_write_other _ _ (by omega)

theorem State.wf_storeAt {s : State} (a : Nat) (bs : List Byte) (bad : List Bool) (h : s.mem.wf = true) :
    (s.storeAt a bs bad).mem.wf = true := Mem.wf_store _ _ _ h

end Sys2Proof.Machine
end

