-- ==== Sys2Proof/Laws/Results.lean ====
section
/-! SUPPORT. What the shared operations over registers do: deliver a result, make an arrival, run under a guard. -/

namespace Sys2Proof.Machine

/-! ### Changes of one context -/

theorem State.Becomes.refl (s : State) : s.Becomes s s.cur := ⟨rfl, fun _ _ => rfl, rfl, fun _ => rfl⟩

theorem State.Becomes.trans {s t u : State} {c d : Ctx} (h : s.Becomes t c) (k : t.Becomes u d) : s.Becomes u d := by
  obtain ⟨h1, h2, _, h4⟩ := h
  obtain ⟨k1, k2, k3, k4⟩ := k
  have hl : t.latch = s.latch := by rw [h1]
  refine ⟨?_, fun m hm => ?_, k3, fun a => (k4 a).trans (h4 a)⟩
  · rw [k1, h1]
  · rw [k2 m (by rw [hl]; exact hm), h2 m hm]

theorem State.onCur_becomes (s : State) (f : Ctx → Ctx) : s.Becomes (s.onCur f) (f s.cur) := by
  refine ⟨rfl, fun m hm => ?_, ?_, fun _ => rfl⟩
  · simp only [State.onCur, State.onCtx, State.setCtx, State.ctx]
    exact mget_mput_other _ _ _ hm
  · simp [State.onCur, State.onCtx, State.setCtx, State.ctx, State.cur]

/-- Fresh names may be taken besides. -/
theorem State.Becomes.named {s t : State} {c : Ctx} (h : s.Becomes t c) (k : Nat) : s.Becomes { t with uid := k } c :=
  ⟨by rw [h.1], h.2.1, h.2.2.1, h.2.2.2⟩

theorem State.Becomes.cur {s t : State} {c : Ctx} (h : s.Becomes t c) : t.cur = c := h.2.2.1
theorem State.Becomes.latch {s t : State} {c : Ctx} (h : s.Becomes t c) : t.latch = s.latch := by rw [h.1]
theorem State.Becomes.core {s t : State} {c : Ctx} (h : s.Becomes t c) (k : Nat) : t.core k = s.core k := by
  rw [h.1]; rfl

/-! ### Delivering results -/

theorem one_alternative {w p : Nat} (f : RegFile w p) (x : Pend w p) (h : x.chase = none) (h1 : x.under = [])
    (h2 : x.alts.length ≤ 4) : f.wouldHold x ≤ 4 := by
  simp [RegFile.wouldHold, Pend.apply, h, h1, h2]

theorem State.addS_becomes (s : State) (x : Pend 64 1) (h : s.cur.sa.wouldHold x ≤ 4) :
    s.Becomes (s.addS x) { s.cur with sa := s.cur.sa.add x } := by
  rw [State.addS, if_neg (by omega)]
  exact (s.onCur_becomes (fun c => { c with sa := c.sa.add x })).named (s.uid + 1)

theorem State.addS_uid (s : State) (x : Pend 64 1) (h : s.cur.sa.wouldHold x ≤ 4) : (s.addS x).uid = s.uid + 1 := by
  rw [State.addS, if_neg (by omega)]

theorem State.addV_becomes (s : State) (x : Pend 1024 32) (h : s.cur.v.wouldHold x ≤ 4) :
    s.Becomes (s.addV x) { s.cur with v := s.cur.v.add x } := by
  rw [State.addV, if_neg (by omega)]
  exact (s.onCur_becomes (fun c => { c with v := c.v.add x })).named (s.uid + 1)

theorem State.addV_uid (s : State) (x : Pend 1024 32) (h : s.cur.v.wouldHold x ≤ 4) : (s.addV x).uid = s.uid + 1 := by
  rw [State.addV, if_neg (by omega)]

theorem State.mkPend_one {w p : Nat} (s : State) (r lat : Nat) (v : Val w p) :
    mkPend s r lat [] [([], v)] = s.result r lat v := rfl

theorem State.result_fits {w p : Nat} (s : State) (f : RegFile w p) (r lat : Nat) (v : Val w p) :
    f.wouldHold (s.result r lat v) ≤ 4 := one_alternative f _ rfl rfl (by simp [State.result])

/-- A single result of a scalar register: written, or discarded for `s0`. -/
theorem State.deliverS_becomes (s : State) (r lat : Nat) (v : SVal) :
    s.Becomes (s.deliverS {} r lat [([], v)])
      { s.cur with sa := if r = 0 then s.cur.sa else s.cur.sa.add (s.result r lat v) } := by
  unfold State.deliverS
  split
  · exact State.Becomes.refl s
  · exact s.addS_becomes _ (s.result_fits _ r lat v)

theorem State.deliverS_uid (s : State) (r lat : Nat) (v : SVal) :
    (s.deliverS {} r lat [([], v)]).uid = if r = 0 then s.uid else s.uid + 1 := by
  unfold State.deliverS
  split
  · rfl
  · exact s.addS_uid _ (s.result_fits _ r lat v)

theorem State.deliverA_becomes (s : State) (r lat : Nat) (v : SVal) :
    s.Becomes (s.deliverA {} r lat [([], v)]) { s.cur with sa := s.cur.sa.add (s.result (aReg r) lat v) } :=
  s.addS_becomes _ (s.result_fits _ _ lat v)

theorem State.deliverA_uid (s : State) (r lat : Nat) (v : SVal) :
    (s.deliverA {} r lat [([], v)]).uid = s.uid + 1 := s.addS_uid _ (s.result_fits _ _ lat v)

theorem State.deliverV_becomes (s : State) (r lat : Nat) (v : VVal) :
    s.Becomes (s.deliverV {} r lat [([], v)]) { s.cur with v := s.cur.v.add (s.result r lat v) } :=
  s.addV_becomes _ (s.result_fits _ r lat v)

theorem State.deliverV_uid (s : State) (r lat : Nat) (v : VVal) :
    (s.deliverV {} r lat [([], v)]).uid = s.uid + 1 := s.addV_uid _ (s.result_fits _ r lat v)

/-- The arrival of an operation without open literals. -/
theorem State.arriveLat_becomes (s : State) (h : Hdr) (lat : Nat) :
    s.Becomes (s.arriveLat {} h lat) { s.cur with arrP := s.cur.arrP ++ s.arrival h lat s.uid } := by
  unfold State.arriveLat State.arriveAt State.arrival arriveIn
  by_cases ha : h.arr
  · simp only [ha, if_true, List.map_cons, List.map_nil, State.arriveAll, State.arriveOne]
    exact s.onCur_becomes (fun c => { c with arrP := c.arrP ++
      [⟨s.latch.ic + lat, h.bn.toNat, s.latch.slot, s.latch.ba, [], s.uid⟩] })
  · simpa [ha, State.arriveAll] using State.Becomes.refl s

/-- A result whose sources hold one alternative each, without open literals: its arrival needs no room in the larder. -/
theorem State.withArrivals_one {α : Type} (s : State) (h : Hdr) (lat : Nat) (x : α) (f : State) (e : f.latch = s.latch) :
    s.withArrivals {} h lat [([], x)] f = f.arriveLat {} h lat := by
  have hr : arriveRoom {} h (combos [(([] : Tag), x)]) = 0 := by
    unfold arriveRoom arriveIn combos
    by_cases ha : h.arr <;> simp [ha, tagAnd]
  unfold State.withArrivals State.withRoom State.arriveLat
  rw [hr, e]
  simp [combos]

theorem State.arrival_latch {s t : State} (h : Hdr) (lat u : Nat) (e : t.latch = s.latch) :
    t.arrival h lat u = s.arrival h lat u := by simp [State.arrival, e]

/-! ### Register operations -/

theorem State.Fires.guarded {s : State} {h : Hdr} (hf : s.Fires h) (f : Cond2 → State) : s.guarded h f = f {} := by
  unfold State.guarded; rw [hf]

/-- A scalar operation with one result. -/
theorem State.regS_writes {s : State} {h : Hdr} (hf : s.Fires h) (r lat : Nat) (v : SVal) :
    s.WritesS (s.regS h r lat [([], v)]) h r lat v := by
  have h1 := s.deliverS_becomes r lat v
  have h2 := (s.deliverS {} r lat [([], v)]).arriveLat_becomes h lat
  rw [h1.cur, State.deliverS_uid, State.arrival_latch h lat _ h1.latch] at h2
  rw [State.regS, hf.guarded, State.withArrivals_one s h lat v _ h1.latch]
  exact h1.trans h2

theorem State.regA_writes {s : State} {h : Hdr} (hf : s.Fires h) (r lat : Nat) (v : SVal) :
    s.WritesA (s.regA h r lat [([], v)]) h r lat v := by
  have h1 := s.deliverA_becomes r lat v
  have h2 := (s.deliverA {} r lat [([], v)]).arriveLat_becomes h lat
  rw [h1.cur, State.deliverA_uid, State.arrival_latch h lat _ h1.latch] at h2
  rw [State.regA, hf.guarded, State.withArrivals_one s h lat v _ h1.latch]
  exact h1.trans h2

/-- A vector operation with one result and its events. -/
theorem State.vop_writes {s : State} {h : Hdr} (hf : s.Fires h) (o : VOp) (ok : Bool) (lat : Nat) (x : VRes)
    (hok : ok = true) (hfo : o.foOk = true) : s.WritesV (s.vop h o ok lat [([], x)]) h o.d.toNat lat x := by
  have h1 := s.deliverV_becomes o.d.toNat lat x.val
  have h2 := (s.deliverV {} o.d.toNat lat [([], x.val)]).onCur_becomes (fun c => { c with
    felPend := c.felPend ++ x.evs.map (fun e =>
      FelP.mk (s.latch.ic + lat) (s.latch.ic, s.vSlot, e.1) e.2.code s.latch.ba []) })
  rw [h1.cur] at h2
  have h12 := h1.trans h2
  have h3 := State.arriveLat_becomes _ h lat |> h12.trans
  rw [h12.cur, State.arrival_latch h lat _ h12.latch] at h3
  have hu : ((s.deliverV {} o.d.toNat lat [([], x.val)]).onCur (fun c => { c with
    felPend := c.felPend ++ x.evs.map (fun e =>
      FelP.mk (s.latch.ic + lat) (s.latch.ic, s.vSlot, e.1) e.2.code s.latch.ba []) })).uid = s.uid + 1 := by
    simpa [State.onCur, State.onCtx, State.setCtx] using s.deliverV_uid o.d.toNat lat x.val
  rw [hu] at h3
  rw [State.vop, hok, hfo]
  simp only [Bool.and_self, Bool.not_true, Bool.false_eq_true, if_false]
  rw [hf.guarded]
  have hl := h1.latch
  have he : (s.deliverV {} o.d.toNat lat [([], x.val)]).addEvents {} lat [([], x)] =
      (s.deliverV {} o.d.toNat lat [([], x.val)]).onCur (fun c => { c with
        felPend := c.felPend ++ x.evs.map (fun e =>
          FelP.mk (s.latch.ic + lat) (s.latch.ic, s.vSlot, e.1) e.2.code s.latch.ba []) }) := by
    simp [State.addEvents, hl, State.vSlot, tagAnd]
  simp only [List.map_cons, List.map_nil]
  rw [he, State.withArrivals_one s h lat x _ h12.latch]
  exact h3

/-- An operation whose guard is resolved to the failing sense does nothing (R113). -/
theorem State.guarded_off {s : State} {h : Hdr} (hg : s.guard h = none) (f : Cond2 → State) : s.guarded h f = s := by
  unfold State.guarded; rw [hg]

/-! ### Sources -/

theorem lift1_one {α β : Type} (f : α → β) (x : α) : lift1 f [([], x)] = [([], f x)] := rfl
theorem lift2_one {α β γ : Type} (f : α → β → γ) (x : α) (y : β) : lift2 f [([], x)] [([], y)] = [([], f x y)] := by
  simp [lift2, tagPair, tagAnd, tagOk]
theorem lift3_one {α β γ δ : Type} (f : α → β → γ → δ) (x : α) (y : β) (z : γ) :
    lift3 f [([], x)] [([], y)] [([], z)] = [([], f x y z)] := by
  simp [lift3, tagPair, tagAnd, tagOk]

/-! ### Operations that wait or branch -/

/-- Under a guard that passes, an operation of R125 whose sources hold one alternative each runs. -/
theorem State.Passes.branchingK {s : State} {h : Hdr} {k : Cond2} (hp : s.Passes h) (hk : s.guard h = some k)
    (srcs : List (List (Tag × SVal))) (f : Cond2 → State) (hm : manyAlts srcs = none) : s.branchingK h srcs f = f k := by
  have : s.cur.collapsible.any (fun id => (s.cur.ownOpen h s.latch.ic).contains id) = false := by
    rw [List.any_eq_false]
    intro id hid
    simpa using hp.2 id hid
  unfold State.branchingK
  simp only [this, Bool.false_eq_true, if_false, State.guarded, hk, hm]

theorem State.Passes.branching {s : State} {h : Hdr} (hp : s.Passes h) (srcs : List (List (Tag × SVal))) (f : State)
    (hm : manyAlts srcs = none) : s.branching h srcs f = f :=
  let ⟨_, hk⟩ := hp.1
  hp.branchingK hk srcs _ hm

theorem State.Settled.waiting {s : State} {h : Hdr} (hp : s.Settled h) (srcs : List (List (Tag × SVal))) (f : State)
    (hm : manyAlts srcs = none) : s.waiting h srcs f = f := by
  obtain ⟨⟨k, hk⟩, hn⟩ := hp
  simp [State.waiting, State.waitingN, hn, State.guarded, hk, hm]

theorem State.Fires.settled {s : State} {h : Hdr} (hf : s.Fires h) : s.cur.ownOpen h s.latch.ic = [] := by
  unfold State.Fires State.guard Ctx.guard at hf
  unfold Ctx.ownOpen
  cases hg : s.cur.gAt h.g.toNat s.latch.ic with
  | res b => rfl
  | opn id =>
    simp only [hg] at hf
    exfalso
    split at hf
    · split at hf
      · simp only [Option.some.injEq, Cond2.mk.injEq] at hf
        have := hf.2
        simp only [tagAnd, List.append_eq_nil_iff] at this
        have h1 := this.1
        rw [h1] at this
        simp at this
      · cases hf
    · simp only [Option.some.injEq, Cond2.mk.injEq] at hf
      have := hf.2
      simp only [tagAnd, List.append_eq_nil_iff] at this
      have h1 := this.1
      rw [h1] at this
      simp at this

theorem State.Fires.passes {s : State} {h : Hdr} (hf : s.Fires h) : s.Passes h :=
  ⟨⟨_, hf⟩, fun id _ => by rw [hf.settled]; simp⟩

theorem State.Fires.toSettled {s : State} {h : Hdr} (hf : s.Fires h) : s.Settled h := ⟨⟨_, hf⟩, hf.settled⟩

theorem State.Settled.fires_waitingN {s : State} {h : Hdr} (hf : s.Fires h) (f : Cond2 → State) :
    s.waitingN h false f = f {} := by
  simp [State.waitingN, hf.settled, hf.guarded]

end Sys2Proof.Machine
end

