-- ==== Sys2Proof/Machine/Kpf.lean ====
section
/-! DEFINITION. The portable form (R395 to R397): reading KPFB and KPFC, the rules that a body must meet, and its translation
without a schedule, which gives the body its meaning on the machine (log 100, DEDUCED). -/

namespace Sys2Proof

open Sys2Proof.Machine

/-- A bundle of KPFB: its class byte and the words of positions P0 to P3. -/
structure KpfBundle where
  cls   : Nat := 0
  words : List (BitVec 32) := []
  deriving DecidableEq, Repr

/-- Bit 3 of the class byte: an extension bundle. -/
def KpfBundle.isExt (b : KpfBundle) : Bool := b.cls.testBit 3

/-- The slot in which a position's operation stands. -/
def KpfBundle.slotAt (b : KpfBundle) : Nat → Nat × Slot
  | 0 => if b.cls.testBit 0 then (0, .c) else (1, .s)
  | 1 => if b.cls.testBit 1 then (6, .x) else (2, .l)
  | 2 => (3, .v)
  | _ => if b.cls.testBit 2 then (7, .n) else (5, .m)

/-- The bundles of the two sections; none where a section is too short or a byte that must be zero is not. -/
def kpfBundles (kpfb kpfc : List Byte) : Option (List KpfBundle) :=
  let n := leBytes (kpfb.take 4)
  if kpfb.length < 16 + 16 * n ∨ kpfc.length < n ∨ leBytes ((kpfb.drop 4).take 12) ≠ 0 ∨ (kpfc.take n).any (fun c => decide (16 ≤ c.toNat)) then
    none
  else some ((upTo 0 n).map (fun j =>
    { cls := (kpfc.getD j 0).toNat, words := (upTo 0 4).map (fun p => word32 (kpfb.drop (16 + 16 * j + 4 * p))) }))

/-- One KPF bundle with the extension words of the bundle after it: its number and its operations in native slot order. A word
of zeros is a position without an operation. -/
structure KpfItem where
  idx : Nat := 0
  ops : List RawOp := []
  deriving DecidableEq, Repr

/-- The operations of a bundle; none where an extension word is missing or not wanted. -/
def KpfBundle.item (b : KpfBundle) (idx : Nat) (ext : Option KpfBundle) : Option KpfItem :=
  let xs := (ext.map (fun e => e.words)).getD [0, 0, 0, 0]
  let w := fun (p : Nat) => b.words.getD p 0
  let ps := upTo 0 4
  if ps.any (fun p => bit (w p) 31) != ext.isSome || ps.any (fun p => !bit (w p) 31 && xs.getD p 0 != 0) then none
  else
    let op := fun (p : Nat) => ({ slot := (b.slotAt p).1, w0 := w p, x := xs.getD p 0, dec := decodeOp (b.slotAt p).2 (w p) (xs.getD p 0) } : RawOp)
    let ops := (ps.filter (fun p => w p != 0)).map op
    some { idx := idx, ops := slotList.flatMap (fun k => ops.filter (fun o => o.slot == k.1)) }

/-- The issue groups of a body: an extension bundle belongs to the bundle before it, and issues nothing. -/
def kpfItems (idx : Nat) : List KpfBundle → Option (List KpfItem)
  | [] => some []
  | [b] => if b.isExt then none else (b.item idx none).map (fun i => [i])
  | b :: e :: l =>
    if b.isExt then none
    else if e.isExt then
      match b.item idx (some e), kpfItems (idx + 2) l with
      | some i, some r => some (i :: r)
      | _, _ => none
    else
      match b.item idx none, kpfItems (idx + 1) (e :: l) with
      | some i, some r => some (i :: r)
      | _, _ => none

/-! ### The rules of R396 -/

/-- The bits of LOF, ST, HINT and the sticky steps in the first and the extension word, where an operation has them (R30). -/
def kpfZero (sl : Nat) (opc : Nat) : BitVec 32 × BitVec 32 :=
  match sl with
  | 2 => if opc = 48 ∨ opc = 49 then (0, 0) else (0x80, 0x07FF9800)
  | 3 => (0x20000, 0xFF8)
  | 6 => (0x2, 0x07FFFE00)
  | _ => (0, 0)

def RawOp.kpfBad (o : RawOp) : Bool :=
  let m := kpfZero o.slot (bits o.w0 25 6).toNat
  o.w0 &&& m.1 != 0 || (bit o.w0 31 && o.x &&& m.2 != 0)

/-- The place that an operation names by a displacement or a loop length, in halfwords: of a transfer from its own bundle, of a
loop from the bundle after it. -/
inductive KpfRef where
  | none
  | disp (d : Int)
  | len (n : Nat)
  deriving DecidableEq, Repr

def Instr.kpfRef : Instr → KpfRef
  | .br h o => .disp (cbDisp h o)
  | .call h o => .disp (cbDisp h o)
  | .pfn h o => .disp (cbDisp h o)
  | .cguess h o => .disp (cbDisp h o)
  | .cend h o => .disp (cbDisp h o)
  | .loop _ o => .len o.len.toNat
  | .loopv h o => .len (if h.ext then o.imm32.toNat else o.len.toNat)
  | _ => .none

def RawOp.ref (o : RawOp) : KpfRef :=
  match o.dec with
  | .ok i => i.kpfRef
  | _ => .none

/-- The body length stands in the extension word: of an extended `loopv` (R89). -/
def RawOp.lenInX (o : RawOp) : Bool :=
  match o.dec with
  | .ok (.loopv h _) => h.ext
  | _ => false

/-- The number of the KPF bundle that an operation of `i` names; none where it is no bundle that issues. `next` is the number of
the bundle after it. The end of the body may end a loop. -/
def KpfItem.target (i : KpfItem) (next stop : Nat) (starts : List Nat) : KpfRef → Option Nat
  | .none => some 0
  | .disp d =>
    let t := (i.idx : Int) + d / 8
    if d % 8 = 0 ∧ 0 ≤ t ∧ starts.contains t.toNat then some t.toNat else none
  | .len n => if n % 8 = 0 ∧ (starts.contains (next + n / 8) ∨ next + n / 8 = stop) then some (next + n / 8) else none

/-- An item breaks a rule of R396. -/
def KpfItem.bad (i : KpfItem) (next stop : Nat) (starts : List Nat) : Bool :=
  i.ops.any (fun o => (match o.dec with | .ok _ => false | _ => true) || o.kpfBad || (i.target next stop starts o.ref).isNone) ||
    anyClash (i.ops.filterMap (fun o => match o.dec with | .ok j => some (o.slot, j) | _ => none))

/-- The number of the bundle after each item. -/
def kpfNexts (stop : Nat) : List KpfItem → List Nat
  | [] => []
  | [_] => [stop]
  | _ :: j :: l => j.idx :: kpfNexts stop (j :: l)

/-! ### Translation without a schedule (R397) -/

/-- A displacement gets an extension word where it may not fit the short one: `at'` maps bundles to offsets of a layout in which
every displacement is long. -/
def fitsShort (a b : Nat) : Bool := decide (a ≤ b + 2 ^ 20 ∧ b + 2 ≤ a + 2 ^ 20)

/-- The bytes that an operation takes in a layout. -/
def RawOp.bytes (o : RawOp) (long : Bool) : Nat :=
  match o.ref with
  | .disp _ => if long then 8 else 4
  | _ => if bit o.w0 31 then 8 else 4

/-- Offsets of items, from sizes; the last pair stands for the end of the body. -/
def kpfLay (stop off : Nat) : List (Nat × Nat) → List (Nat × Nat)
  | [] => [(stop, off)]
  | (idx, sz) :: l => (idx, off) :: kpfLay stop (off + sz) l

def kpfOff (lay : List (Nat × Nat)) (idx : Nat) : Nat := ((lay.find? (fun e => e.1 == idx)).map (fun e => e.2)).getD 0

/-- The words of an operation in the native body; none where a loop's body is too long for its field. `at'` and `next` are the
offsets of its bundle and of the one after it. -/
def RawOp.native (o : RawOp) (at' next : Nat) (long : Bool) (tgt : Nat) : Option (List (BitVec 32)) :=
  let d : Int := ((tgt : Int) - (at' : Int)) / 2
  let keep := if bit o.w0 31 then [o.w0, o.x] else [o.w0]
  match o.ref with
  | .none => some keep
  | .disp _ =>
    let base := o.w0 &&& 0x7FF00000
    some (if long then [base ||| 0x80000000, BitVec.ofInt 32 d] else [base ||| (BitVec.ofInt 20 d).setWidth 32])
  | .len _ =>
    let n := (tgt - next) / 2
    if o.lenInX then (if 2 ^ 32 ≤ n then none else some [o.w0, BitVec.ofNat 32 n])
    else if 2 ^ 14 ≤ n then none
    else some (((o.w0 &&& 0xFFFFC000) ||| BitVec.ofNat 32 n) :: keep.drop 1)

/-- One native bundle with STOP for one KPF bundle. -/
def kpfBundle (ws : List (Nat × List (BitVec 32))) : List Byte :=
  let h : BHdr := { stop := true, p := BitVec.ofNat 8 ((ws.map (fun w => 2 ^ (7 - w.1))).foldl (· + ·) 0) }
  toBytes h.word.toNat 2 ++ ws.flatMap (fun w => w.2.flatMap (fun x => toBytes x.toNat 4))

/-- All or none. -/
def allSome {α : Type} : List (Option α) → Option (List α)
  | [] => some []
  | none :: _ => none
  | some a :: l => (allSome l).map (fun r => a :: r)

/-- `kzxl` without a schedule (R397): for each KPF bundle its number, its native offset and its native bundle; `kzxlNote` is NOTE beside
it. It refuses a body that breaks R395 or R396. -/
def kzxl (kpfb kpfc : List Byte) : Option (List (Nat × Nat × List Byte)) :=
  match kpfBundles kpfb kpfc with
  | none => none
  | some bs =>
    match kpfItems 0 bs with
    | none => none
    | some is =>
      let stop := bs.length
      let starts := is.map (fun i => i.idx)
      let js := is.zip (kpfNexts stop is)
      if js.any (fun j => j.1.bad j.2 stop starts) then none
      else
        let goal := fun (j : KpfItem × Nat) (o : RawOp) => (j.1.target j.2 stop starts o.ref).getD 0
        let far := kpfLay stop 0 (is.map (fun i => (i.idx, 2 + (i.ops.map (fun o => o.bytes true)).foldl (· + ·) 0)))
        let long := fun (j : KpfItem × Nat) (o : RawOp) => !fitsShort (kpfOff far j.1.idx) (kpfOff far (goal j o))
        let lay := kpfLay stop 0 (js.map (fun j => (j.1.idx, 2 + (j.1.ops.map (fun o => o.bytes (long j o))).foldl (· + ·) 0)))
        allSome (js.map (fun j =>
          (allSome (j.1.ops.map (fun o =>
            (o.native (kpfOff lay j.1.idx) (kpfOff lay j.2) (long j o) (kpfOff lay (goal j o))).map (fun w => (o.slot, w))))).map
            (fun ws => (j.1.idx, kpfOff lay j.1.idx, kpfBundle ws))))

/-- The NOTE section beside a translation without a schedule: its ILK bit is set, so that the body runs with `ILK` = 1 (R394, R397). -/
def kzxlNote (note : List Byte) : List Byte := note.set 16 (note.getD 16 0 ||| 1)

/-- The native body of a translation. -/
def nativeBody (t : List (Nat × Nat × List Byte)) : List Byte := t.flatMap (fun x => x.2.2)

end Sys2Proof
end

