-- ==== Sys2Proof/Tests/Slice0.lean ====
section
/-! SUPPORT. Tests: ill-formed terms that the checks refuse, the words that the manual writes out, and for every statement with
hypotheses a state and operands that meet them. -/

open Sys2Proof Sys2Proof.Machine Sys2Proof.Claims

namespace Sys2Proof.Tests

set_option Elab.async false

/-! ### Well-formed terms, and beside each one with a field that its check refuses -/

/-- The first is well formed and the second is not. -/
def refuses (l : List (Instr × Instr)) : Bool := l.all (fun p => p.1.wf && !p.2.wf)

/-- R28, R29, R41: header fields. -/
theorem test_wf_headers : refuses [
    (.add {} {}, .add { gs := true } {}), (.add { ext := true, arr := true, bn := 3 } {}, .add { ext := true, bn := 3 } {}),
    (.add { ext := true, arr := true } {}, .add { arr := true } {}), (.br {} {}, .br { ext := true, arr := true } {}),
    (.add { ext := true } {}, .add {} { c := 1 }), (.nop {} {}, .nop {} { d := 1 }),
    (.cchk {} {}, .cchk { g := 1 } {}), (.cguess {} { disp := 2 }, .cguess {} {}),
    (.cend {} { disp := 0xFFFFE }, .cend {} { disp := 2 }), (.br { ext := true } { imm32 := 4 }, .br { ext := true } { disp := 4 }),
    (.br {} { disp := 4 }, .br {} { imm32 := 4 })] = true := by decide +kernel

/-- R89 to R111, R247 to R259, R309, R339, R356, R387: the C slot. -/
theorem test_wf_control : refuses [
    (.bri {} { a := 5 }, .bri {} { a := 5, d := 1 }), (.calli {} { d := 3, a := 5 }, .calli {} { a := 5, sub := 1 }),
    (.loop {} { n := 4, len := 3 }, .loop {} { imm32 := 1 }), (.loop { ext := true } { imm32 := 1 }, .loop { ext := true } { n := 4 }),
    (.loopv {} { n := 4, len := 3 }, .loopv { ext := true } { n := 4, len := 3 }),
    (.brk {} { imm14 := 6 }, .brk {} { imm14 := 7 }), (.next {} { imm14 := 1 }, .next {} {}),
    (.lidx {} { imm14 := 5 }, .lidx {} { imm14 := 6 }), (.lidxC {} { imm14 := 13 }, .lidxC {} { imm14 := 5 }),
    (.fuse2 {} { imm14 := 2 }, .fuse2 {} { imm14 := 3 }), (.fuse4 {} { imm14 := 4 }, .fuse4 {} { imm14 := 2 }),
    (.rejoin4 {} { sub := 2 }, .rejoin4 {} { sub := 1 }),
    (.fmt {} { d := 1, imm14 := 4 }, .fmt {} { d := 1, imm14 := 10 }), (.fmt {} { d := 1, imm14 := 4 }, .fmt {} { imm14 := 4 }),
    (.fmt { ext := true } { imm32 := 0x08814411 }, .fmt { ext := true } { imm32 := 0x18814411 }),
    (.wset {} { d := 7 }, .wset {} { d := 8 }), (.wait {} {}, .wait {} { sub := 1 }), (.arrive {} { imm14 := 15 }, .arrive {} { imm14 := 16 }),
    (.bwait {} { b := 15 }, .bwait {} { b := 16 }), (.bset {} { b := 15 }, .bset {} { b := 15, sub := 1 }),
    (.gres {} { a := 3 }, .gres {} { a := 16 }), (.gcol {} { a := 15 }, .gcol {} {}),
    (.cgo2 {} { imm14 := 0x1103 }, .cgo2 {} { imm14 := 0x2001 }), (.cgo4 {} { imm14 := 0x2001 }, .cgo4 {} { imm14 := 0x1103 }),
    (.csrr {} { imm14 := 0x086 }, .csrr {} { imm14 := 0x087 }), (.csrw {} { imm14 := 0x045 }, .csrw {} { imm14 := 0x046 }),
    (.invqE {} { sub := 1 }, .invqE {} { sub := 3 }), (.spawn {} { sub := 3 }, .spawn {} { b := 1 })] = true := by decide +kernel

/-- R77 to R85, R114, R115: the S slot. -/
theorem test_wf_scalar : refuses [
    (.add {} {}, .add {} { sub := 1 }), (.mov {} {}, .mov {} { b := 1 }), (.clz {} { sub := 3 }, .clz {} { b := 1 }),
    (.sext {} { sub := 2 }, .sext {} { sub := 3 }), (.sel { ext := true } { c := 5 }, .sel {} {}),
    (.bfx { ext := true } { imm32 := 0x13F00 }, .bfx { ext := true } { imm32 := 0x03F01 }),
    (.bfi { ext := true } { imm32 := 0x03F00 }, .bfi { ext := true } { imm32 := 0x13F00 }), (.bfx { ext := true } {}, .bfx {} {}),
    (.lea {} { d := 15, a := 15 }, .lea {} { d := 16 }), (.amovAS {} { d := 15 }, .amovAS {} { d := 16 }),
    (.amovSA {} { a := 15, sub := 1 }, .amovSA {} { a := 16, sub := 1 }), (.li {} { imm8 := 9 }, .li {} { a := 1 }),
    (.addImm {} { imm8 := 9 }, .addImm {} { imm32 := 9 }), (.addImm { ext := true } { imm32 := 9 }, .addImm { ext := true } { imm8 := 9 }),
    (.gcmp {} { d := 19 }, .gcmp {} { d := 16 }), (.gcmp {} { d := 1 }, .gcmp { ext := true, arr := true } { d := 1 }),
    (.gcmpLe {} { d := 1, sub := 1 }, .gcmpLe {} { d := 1, sub := 2 }), (.gand {} { d := 5, a := 1, b := 18 }, .gand {} { d := 5, a := 1, b := 32 }),
    (.gnot {} { d := 5, a := 1 }, .gnot {} { d := 5, a := 1, b := 1 })] = true := by decide +kernel

/-- R140, R141, R153, R161, R163, R239, R241: the L slot. -/
theorem test_wf_memory : refuses [
    (.nopL {} {}, .nopL {} { d := 1 }), (.ld {} { size := 3 }, .ld {} { size := 4 }), (.vld {} { size := 4 }, .vld {} { size := 3 }),
    (.vst {} { size := 6 }, .vst {} { size := 7 }), (.ld { ext := true } { off := 1 }, .ld { ext := true } { lof := 1 }),
    (.ldt { ext := true } { lof := 400 }, .ldt { ext := true } { ret := true }), (.ldt {} {}, .ldt {} { mrg := true }),
    (.aadd {} { size := 3 }, .aadd {} { size := 1 }), (.aadd { ext := true } { size := 2, ret := true, lof := 9 },
      .aadd { ext := true } { size := 2, lof := 9 }), (.aadd {} { size := 2 }, .aadd { ext := true } { size := 2, mrg := true }),
    (.afadd {} { size := 2 }, .afadd {} { size := 3 }), (.fence {} { scope := 2 }, .fence {} { low := 1 }),
    (.drain {} { scope := 3 }, .drain {} { bk := 1 }), (.tchase {} { size := 3 }, .tchase {} { size := 3, step := 1 })] = true := by decide +kernel

/-- R30, R172, R175 to R192: the V slots. -/
theorem test_wf_vector : refuses [
    (.nopV {} {}, .nopV {} { d := 1 }), (.vadd {} { w := 2 }, .vadd {} { w := 3 }),
    (.vfma { ext := true } { c := 3 }, .vfma {} {}), (.vadd { ext := true } { rm := 4 }, .vadd { ext := true } { rm := 5 }),
    (.vadd { ext := true } { sat := true }, .vmin { ext := true } { sat := true }),
    (.vadd { ext := true } { sub := 1 }, .vadd { ext := true } { sub := 2 }),
    (.vadd { ext := true } { st := true, sm := 7, vstep := 1 }, .vadd { ext := true } { sm := 1 }),
    (.vmov { ext := true } { st := true, sm := 6 }, .vmov { ext := true } { st := true, sm := 1 }),
    (.vmov {} {}, .vmov {} { b := 1 }), (.vsel { ext := true } { c := 3 }, .vadd { ext := true } { c := 3 }),
    (.vcmp { ext := true } { sub := 6 }, .vcmp { ext := true } { sub := 7 }),
    (.vshuf { ext := true } { sub := 3 }, .vshuf { ext := true } { sub := 4 }),
    (.vext { ext := true } { sub := 3 }, .vext { ext := true } { sub := 4 }),
    (.vshl { ext := true } { sub := 1, b := 9 }, .vshl { ext := true } { sub := 2 }),
    (.vpack {} { b := 15 }, .vpack {} { b := 16 }), (.vmaxe {} {}, .vmaxe { ext := true } { rm := 1 })] = true := by decide +kernel

/-- R203, R205 to R210, R218, R224: the M slot. -/
theorem test_wf_matrix : refuses [
    (.nopM {} {}, .nopM {} { d := 1 }), (.mset {} { p := 7 }, .mset {} { z := 1 }), (.mcall {} { fi := true }, .mcall {} { f := 1 }),
    (.mzero {} { f := 7 }, .mzero {} { f := 8 }), (.mzero {} {}, .mzero {} { idx := 1 }),
    (.mrd { ext := true } { d := 4 }, .mrd {} { d := 4 }), (.mwr { ext := true } {}, .mwr { ext := true } { p := 1 }),
    (.mrd { ext := true } { x := 0xFFFF }, .mrd { ext := true } { x := 0x10000 }), (.mwait {} {}, .mwait {} { d := 1 }),
    (.mprov {} { d := 1 }, .mprov {} { p := 1 }), (.mpgm {} { f := 15 }, .mpgm {} { f := 16 })] = true := by decide +kernel

/-- R228 to R232, R284 to R297, R326 to R332: the X slot. -/
theorem test_wf_engines : refuses [
    (.nopX {} {}, .nopX {} { d := 1 }), (.xdim {} { sa := 2 }, .xdim {} { sa := 3 }),
    (.xcopy { ext := true } { x := 0x10 }, .xcopy { ext := true } { x := 0x14 }), (.xcopy { ext := true } {}, .xcopy {} {}),
    (.xcopy { ext := true } { xs := 12, x := 0x60 }, .xcopy { ext := true } { xs := 13, x := 0x60 }),
    (.xcopy { ext := true } {}, .xcopy { ext := true } { d := 1 }), (.xgather { ext := true } { d := 15 }, .xgather { ext := true } { d := 16 }),
    (.xfill { ext := true } { d := 63 }, .xfill { ext := true } { sa := 1 }), (.xwait {} { d := 6, xs := 15 }, .xwait {} { sa := 1 }),
    (.tmove { ext := true } { xs := 4, x := 0x100 }, .tmove { ext := true } { xs := 4 }), (.tmove {} {}, .tmove { ext := true } { x := 1 }),
    (.tstat { ext := true } { lof := 300 }, .tstat { ext := true } { da := 1 }),
    (.tsweep { ext := true } { x := 3 }, .tsweep { ext := true } { x := 4 }), (.tunmark {} { da := 2 }, .tunmark {} { d := 1 }),
    (.tunmarkF { ext := true } { x := 0x80 }, .tunmarkF { ext := true } {}),
    (.lsend { ext := true } { xs := 7 }, .lsend { ext := true } { xs := 8 }), (.lrecv { ext := true } {}, .lrecv { ext := true } { da := 1 }),
    (.lred { ext := true } {}, .lred { ext := true } { d := 1 }), (.ltime {} { d := 5 }, .ltime {} { xs := 1 }),
    (.ltime {} {}, .ltime {} { z := true }), (.lsend { ext := true } {}, .lsend { ext := true } { st := true })] = true := by decide +kernel

/-- R265: the N slot. -/
theorem test_wf_sort : refuses [
    (.nopN {} {}, .nopN {} { d := 1 }), (.nclr {} {}, .nclr {} { a := 1 }), (.nmerge {} { a := 3, b := 5 }, .nmerge {} { d := 1 }),
    (.nmergeP {} { sub := 1 }, .nmergeP {} { sub := 1, b := 1 }), (.nsort {} {}, .nsort {} { b := 1 }),
    (.nsortI {} { sub := 1 }, .nsortI {} {}), (.ntopV {} { sub := 2 }, .ntopV {} { sub := 3 }), (.nmass {} {}, .nmass {} { sub := 1 }),
    (.nhist {} {}, .nhist {} { d := 1 }), (.nhistSet {} { sub := 2 }, .nhistSet {} { sub := 2, d := 1 }),
    (.nhistRd {} { sub := 3, b := 15 }, .nhistRd {} { sub := 3, b := 16 }), (.nrng {} {}, .nrng {} { d := 1 }),
    (.nsampleTok {} {}, .nsampleTok {} { a := 1 }), (.nsave {} { sub := 3 }, .nsave {} { b := 1 }),
    (.nkth { ext := true } {}, .nkth { ext := true } { x := 1 })] = true := by decide +kernel

/-! ### The words that the manual writes out -/

/-- Slot, first word, extension word, and the operation. -/
def reads (l : List (Slot × BitVec 32 × BitVec 32 × Instr)) : Bool := l.all (fun e => decodeOp e.1 e.2.1 e.2.2.1 == .ok e.2.2.2)

/-- R51, R87, R88, R115, and the words of the decision tree and the loop (R96). -/
theorem test_decode_scalar : reads [
    (.s, 0x0200C108, 0, .add {} { d := 3, a := 1, b := 2 }), (.s, 0x02008204, 0, .add {} { d := 2, a := 2, b := 1 }),
    (.s, 0x0C01C518, 0, .div {} { d := 7, a := 5, b := 6 }), (.s, 0x600082FD, 0, .addImm {} { d := 2, a := 2, imm8 := 0xFD }),
    (.s, 0xCC024000, 0x12345678, .li { ext := true } { d := 9, imm32 := 0x12345678 }),
    (.s, 0x4C2540FF, 0, .li { g := 1 } { d := 21, imm8 := 0xFF }), (.s, 0x4A004100, 0, .amovAS {} { d := 1, a := 1 }),
    (.s, 0x60828A04, 0, .addImm { g := 4 } { d := 10, a := 10, imm8 := 4 }),
    (.s, 0x5004C10A, 0, .gcmp {} { d := 19, a := 1, b := 2, sub := 2 }), (.s, 0x5000570E, 0, .gcmp {} { d := 1, a := 23, b := 3, sub := 2 }),
    (.s, 0x52044454, 0, .gcmpLe {} { d := 17, a := 4, b := 21 }), (.s, 0x52010760, 0, .gcmpLe {} { d := 4, a := 7, b := 24 }),
    (.s, 0x54014148, 0, .gand {} { d := 5, a := 1, b := 18 })] = true := by decide +kernel

/-- R96, R124, R247 to R256, R309 to R316, R340, R349, R350, R356, R387. -/
theorem test_decode_control : reads [
    (.c, 0x0C010003, 0, .loop {} { n := 4, len := 3 }), (.c, 0x24008518, 0, .wset {} { d := 2, a := 5, b := 6 }),
    (.c, 0x2601C000, 0, .wait {} { d := 7 }), (.c, 0x28000005, 0, .arrive {} { imm14 := 5 }),
    (.c, 0x2A02400C, 0, .bwait {} { d := 9, b := 3 }), (.c, 0xAA02400C, 4, .bwait { ext := true } { d := 9, b := 3, imm32 := 4 }),
    (.c, 0x2C02800C, 0, .bphase {} { d := 10, b := 3 }), (.c, 0x2E000B0D, 0, .bsetS {} { a := 11, b := 3, sub := 1 }),
    (.c, 0x30000000, 0, .sstep {} {}), (.c, 0x32000502, 0, .spawn {} { a := 5, sub := 2 }), (.c, 0x3A000300, 0, .gres {} { a := 3 }),
    (.c, 0x5001A001, 0, .cgo4 {} { d := 6, imm14 := 0x2001 }), (.c, 0x50019103, 0, .cgo2 {} { d := 6, imm14 := 0x1103 }),
    (.c, 0x5200000C, 0, .cguess {} { disp := 12 }), (.c, 0x54000000, 0, .cchk {} {}), (.c, 0x560FFFEC, 0, .cend {} { disp := 0xFFFEC }),
    (.c, 0x60000005, 0, .trap {} { imm14 := 5 }), (.c, 0x62000000, 0, .sret {} {}), (.c, 0x64014003, 0, .csrr {} { d := 5, imm14 := 3 }),
    (.c, 0x66050006, 0, .csrw {} { d := 20, imm14 := 6 }), (.c, 0x6A010519, 0, .invqE {} { d := 4, a := 5, b := 6, sub := 1 })] = true := by
  decide +kernel

/-- R140, R141, R158, R163, R241. -/
theorem test_decode_memory : reads [
    (.l, 0x02010421, 0, .ld {} { d := 4, base := 1, size := 2, step := 1 }), (.l, 0x0A008260, 0, .vst {} { d := 2, ac := 2, size := 6 }),
    (.l, 0x06050821, 0, .st {} { d := 20, base := 2, size := 2, step := 1 }),
    (.l, 0x8C018C30, 0x00C80002, .ldt { ext := true } { d := 6, base := 3, size := 3, lof := 400, off := 2 }),
    (.l, 0x20004030, 0, .aadd {} { d := 1, size := 3 }),
    (.l, 0xA0008430, 0x00FA4001, .aadd { ext := true } { d := 2, base := 1, size := 3, lof := 500, ret := true, off := 1 }),
    (.l, 0xA0008030, 0x90000000, .aadd { ext := true, arr := true, bn := 2 } { d := 2, size := 3 }),
    (.l, 0xB000C820, 0x00002000, .afadd { ext := true } { d := 3, base := 2, size := 2, mrg := true }),
    (.l, 0xB4010C30, 0x012C4000, .acas { ext := true } { d := 4, base := 3, size := 3, lof := 600, ret := true }),
    (.l, 0x60091000, 0, .fence {} { scope := 2, bk := 8, ak := 16 }), (.l, 0x620C0000, 0, .drain {} { scope := 3 })] = true := by decide +kernel

/-- R175, R189, R190, R203, R206 to R210. -/
theorem test_decode_vector_matrix : reads [
    (.v, 0x88082022, 0x00300000, .vfma { ext := true } { w := 2, d := 4, a := 1, b := 2, c := 3 }),
    (.v, 0x4E084900, 0, .vmaxe {} { w := 2, d := 9, a := 8 }), (.v, 0x50085100, 0, .vqcvt {} { w := 2, d := 10, a := 8 }),
    (.m, 0x06000000, 0, .mcall {} {}), (.m, 0x86000800, 0x98000000, .mcall { ext := true, arr := true, bn := 3 } { fi := true }),
    (.m, 0x02015800, 0, .mset {} { d := 5, p := 3 }), (.m, 0x8A010000, 0, .mrd { ext := true } { d := 4 }),
    (.m, 0x0E000000, 0, .mwait {} {})] = true := by decide +kernel

/-- R228 to R232, R287, R295 to R297, R326, R330 to R332. -/
theorem test_decode_engines : reads [
    (.x, 0x02008000, 0, .xdim {} { d := 2 }), (.x, 0x0C018000, 0, .xwait {} { d := 6 }),
    (.x, 0x8600C480, 0x0000002C, .xgather { ext := true } { d := 3, da := 1, sa := 2, x := 0x2C }),
    (.x, 0xA000C850, 0x00000100, .tmove { ext := true } { d := 3, da := 2, sa := 1, xs := 4, x := 0x100 }),
    (.x, 0x2000C840, 0, .tmove {} { d := 3, da := 2, sa := 1 }), (.x, 0xA2014040, 0x00960000, .tstat { ext := true } { d := 5, sa := 1, lof := 300 }),
    (.x, 0xA401D800, 2, .tsweep { ext := true } { d := 7, da := 6, x := 2 }), (.x, 0xA6000800, 0x80, .tunmarkF { ext := true } { da := 2, x := 0x80 }),
    (.x, 0xC001884C, 8, .lsend { ext := true } { d := 6, da := 2, sa := 1, xs := 3, x := 8 }),
    (.x, 0xC201C00C, 0x03E80008, .lrecv { ext := true } { d := 7, xs := 3, lof := 2000, x := 8 }),
    (.x, 0xC40010CC, 0x05DC0000, .lred { ext := true } { da := 4, sa := 3, xs := 3, lof := 3000 }),
    (.x, 0x46014000, 0, .ltime {} { d := 5 })] = true := by decide +kernel

/-- R265 to R275. -/
theorem test_decode_sort : reads [
    (.n, 0x02000000, 0, .nclr {} {}), (.n, 0x04000314, 0, .nmerge {} { a := 3, b := 5 }), (.n, 0x12000310, 0, .nrng {} { a := 3, b := 4 }),
    (.n, 0x0801C000, 0, .ntop {} { d := 7 }), (.n, 0x08020502, 0, .ntopV {} { d := 8, a := 5, sub := 2 }),
    (.n, 0x0A028500, 0, .nkth {} { d := 10, a := 5 }), (.n, 0x0C02C830, 0, .nmass {} { d := 11, a := 8, b := 12 }),
    (.n, 0x14034000, 0, .nsampleTok {} { d := 13 })] = true := by decide +kernel

/-- R41: words of no operation, and of one with a must-be-zero field set. -/
theorem test_decode_refused : decodeOp .c 0x7E000000 0 = .illegalOpcode ∧ decodeOp .n 0x7E000000 0 = .illegalOpcode ∧
    decodeOp .s 0x02000001 0 = .illegalEncoding ∧ decodeOp .s 0x34000000 0 = .illegalEncoding ∧
    decodeOp .l 0x60000001 0 = .illegalEncoding := by decide +kernel

/-- The bundle of the manual's first example, with its bytes (R49). -/
theorem test_bundle_bytes :
    let b := bundleOf 1 [0x60, 0x20, 0x08, 0xC1, 0x00, 0x02, 0x21, 0x04, 0x01, 0x02]
    b.len = 10 ∧ b.hdr.stop = true ∧ b.ops.map (fun o => (o.slot, o.dec)) =
      [(1, .ok (.add {} { d := 3, a := 1, b := 2 })), (2, .ok (.ld {} { d := 4, base := 1, size := 2, step := 1 }))] := by
  decide +kernel


/-! ### A small state -/

/-- Registers that hold these values and nothing else. -/
def put (l : List (Nat × Word)) : RegFile 64 1 := { base := l.map (fun x => (x.1, [{ val := clean x.2 }])) }

/-- Own scratch at 0x10000, device memory at 0x20000, read-only at 0x30000, absent at 0x40000, another node at 0x50000. -/
def tbl : TMap TEntry :=
  [(0, ⟨0x14301, 0⟩), (1, ⟨0x24304, 0x20000⟩), (2, ⟨0x34204, 0x30000⟩), (3, ⟨0x44104, 0x40000⟩), (4, ⟨0x54325, 0x1000000000000⟩)]

/-- A running context with that table and a few registers: `s1` to `s5`, `a1` to `a7`. -/
def c1 : Ctx := {
  mode := .running, kernel := 1, table := { core := tbl, eng := tbl },
  sa := put [(1, 6), (2, 7), (4, 1024), (5, 0x20000), (65, 0x10000), (66, 0x20000), (67, 0x10003), (68, 0x30000), (69, 0x40000),
    (70, 0x50000), (71, 0x60000)] }

/-- The state in which context A of core 0 runs an operation. -/
def at0 (c : Ctx) : State :=
  { State.reset.setCtx 0 c with latch := { n := 0, ic := 10, ba := 0x1000, next := 0x1006 }, cycle := 100 }
def s1 : State := at0 c1

/-- The state in which an event happens. -/
def evS (c : Ctx) (a : EvArg) : State := { at0 c with ev := a }

theorem fires1 : s1.Fires {} := by unfold State.Fires; decide +kernel
theorem passes1 : s1.Passes {} := ⟨⟨_, fires1⟩, by decide +kernel⟩
theorem settled1 : s1.Settled {} := ⟨⟨_, fires1⟩, by decide +kernel⟩
theorem calm1 : s1.Calm := by unfold State.Calm; decide +kernel
theorem sis1 : s1.SIs 1 (clean 6) ∧ s1.SIs 2 (clean 7) ∧ s1.SIs 0 (clean 0) ∧ s1.SIs 4 (clean 1024) ∧ s1.SIs 5 (clean 0x20000) := by
  unfold State.SIs; decide +kernel
theorem ais1 : s1.AIs 1 (clean 0x10000) ∧ s1.AIs 2 (clean 0x20000) ∧ s1.AIs 3 (clean 0x10003) ∧ s1.AIs 6 (clean 0x50000) := by
  unfold State.AIs; decide +kernel
theorem vis1 : s1.VIs 1 (clean 0) := by unfold State.VIs; decide +kernel
theorem base1 : s1.BaseIs 1 (clean 0x10000) ∧ s1.BaseIs 2 (clean 0x20000) ∧ s1.BaseIs 3 (clean 0x10003) :=
  ⟨⟨rfl, 0, by decide +kernel⟩, ⟨rfl, 0, by decide +kernel⟩, ⟨rfl, 0, by decide +kernel⟩⟩

/-! ### Witnesses: states and operands that meet the hypotheses of the statements

Every state below is `s1` or `s1` with one thing changed, so that what `fires1` to `base1` say holds of those too where named. -/

/-- ScalarResults, ImmediateAndMoveResults: sources of one value, for every register that they name. -/
theorem witness_scalar : s1.Fires {} ∧ s1.SIs 1 (clean 6) ∧ s1.SIs 2 (clean 7) ∧ s1.SIs 0 (clean 0) ∧ s1.AIs 1 (clean 0x10000) :=
  ⟨fires1, sis1.1, sis1.2.1, sis1.2.2.1, ais1.1⟩

/-- DivisionResults: a divisor that is nonzero, one that is zero, and one that is a poisoned zero. -/
theorem witness_division : s1.Fires {} ∧ s1.SIs 1 (clean 6) ∧ s1.SIs 2 (clean 7) ∧ s1.cur.divBusy ≤ s1.latch.ic ∧
    ((7 : Word) ≠ 0) ∧ s1.SIs 0 (clean 0) ∧
    (at0 { c1 with sa := { base := [(3, [{ val := ⟨0, 1, none⟩ }])] } }).SIs 3 ⟨0, 1, none⟩ := by
  refine ⟨fires1, sis1.1, sis1.2.1, ?_, by decide, sis1.2.2.1, ?_⟩
  · decide +kernel
  · unfold State.SIs; decide +kernel

/-- GuardResults: known sources and resolved guards. -/
theorem witness_guards : s1.Fires {} ∧ s1.latch.stat = .go ∧ s1.cur.gAt (TOp.gd { d := 3 }) 10 = .res false ∧
    s1.GcmpReads 1 6 ∧ s1.GcmpReads 2 7 ∧ s1.cur.gAt 1 10 = .res false ∧ s1.cur.gAt 0 10 = .res true := by
  refine ⟨fires1, rfl, by decide +kernel, ⟨0, by decide +kernel⟩, ⟨0, by decide +kernel⟩, ?_, ?_⟩ <;> decide +kernel

/-- TransfersTaken: a clean and a poisoned source; room for the lines of a call's successors, and an address that can be fetched; a guard
that holds no literal and a predicted one that holds one, with room in the larder. -/
theorem witness_transfers : s1.Passes {} ∧ s1.SIs 5 (clean 0x20000) ∧ (s1.core 0).lines.length + 12 ≤ cacheLines ∧
    (let s := at0 { c1 with table := { core := [(0, ⟨0x14384, 0⟩)], eng := [] } }
     s.cur.canFetch 0x10000 = true ∧ (s.fetchHome 0 0x10000).isSome = true ∧ (s.fetchHome 0 0x20000).isSome = false) ∧
    (let s := at0 { c1 with g := [(1, .opn 3)], opens := [{ id := 3, reg := 1, pred := some true }], shadow := some {} }
     (∃ k, s.guard { g := 1 } = some k ∧ k.held ≠ [] ∧ s.cur.larder.length < 64) ∧
       ∀ id ∈ s.cur.collapsible, id ∉ s.cur.ownOpen { g := 1 } 10) ∧
    (let s := at0 { c1 with sa := { base := [(3, [{ val := ⟨8, 1, none⟩ }])] } }; s.SIs 3 ⟨8, 1, none⟩ ∧ s.guard {} = some {}) := by
  refine ⟨passes1, sis1.2.2.2.2, by decide +kernel, by decide +kernel, ⟨⟨_, rfl, by decide +kernel⟩, by decide +kernel⟩, ?_⟩
  unfold State.SIs; decide +kernel

/-- A stack of `n` levels. -/
def levels (n : Nat) : List Level := (upTo 0 n).map (fun i => { index := 1, count := 4, start := 0x2000 + i, stop := 0x3000 + 16 * i })

/-- LoopsPushedAndLeft: no level ends where the group does; an empty stack, one of six levels, and levels to leave: one whose
index goes on and one at its last. -/
theorem witness_loops : s1.Passes {} ∧ s1.isLead = true ∧ s1.cur.loops = [] ∧ s1.SIs 1 (clean 6) ∧
    (let s := at0 { c1 with loops := levels 6 }
     s.guard {} = some {} ∧ s.isLead = true ∧ 6 ≤ s.cur.loops.length + s.cur.push.length ∧
      (∀ l ∈ s.cur.loops.head?, l.stop ≠ s.cur.gnext) ∧ CIOp.val {} { imm14 := 6 } % 8 = 6 ∧
      (s.cur.loops.drop 5).length = 1 ∧ ∀ l ∈ s.cur.loops, l.index + 1 < l.count) ∧
    (let s := at0 { c1 with loops := [{ index := 3, count := 4, start := 1, stop := 2 }] }
     ∀ l ∈ s.cur.loops, ¬ l.index + 1 < l.count) := by
  refine ⟨passes1, ?_⟩
  unfold State.SIs; decide +kernel

/-- LoopIndexResults: the innermost level of one, and a level at the depth. -/
theorem witness_loopIndex : (let s := at0 { c1 with loops := levels 1 }
    s.guard {} = some {} ∧ s.seqC.loops[CIOp.val {} {} % 8]? = some { index := 1, count := 4, start := 0x2000, stop := 0x3000 } ∧
      s.seqC.loops.length ≤ CIOp.val {} { imm14 := 1 } % 8) := by decide +kernel

/-- MarksAndEnds: a quiet count; members without open guards; pre-emption points with and without a request, and a point that has been
passed by a bundle, where it holds and where a guard is open. -/
theorem witness_marks : s1.Passes {} ∧ s1.cur.quiet s1.latch.ic = true ∧
    s1.cur.spills = false ∧ s1.cur.larderOff = false ∧
    (∀ m ∈ s1.members, (s1.ctx m).opens = [] ∧ (s1.ctx m).spills = false ∧ (s1.ctx m).larderOff = false ∧
      ∀ e ∈ (s1.ctx m).larder, e.dead = true ∨ e.isStore = true) ∧ s1.cur.fuseW ≤ 1 ∧ s1.cur.pend = false ∧
    (let s := at0 { c1 with pend := true }
     s.guard {} = some {} ∧ s.cur.pend = true ∧ s.cur.atPoint = true ∧ s.short s.latch.n = [] ∧ s.cur.fuseW ≤ 1) ∧
    (let s := at0 { c1 with pointed := true }
     (s.ctx 0).pointed = true ∧ (s.ctx 0).atPoint = true ∧ s.short 0 = [] ∧ (s.ctx 0).fuseW ≤ 1) ∧
    (let s := at0 { c1 with pointed := true, opens := [{ id := 3, reg := 1 }] }
     (s.ctx 0).pointed = true ∧ (s.ctx 0).atPoint = false ∧ (s.ctx 0).fuseW ≤ 1) ∧
    (let s := at0 { c1 with opens := [{ id := 3, reg := 1 }] }
     s.guard {} = some {} ∧ s.cur.atPoint = false ∧ s.cur.pend = false ∧ s.cur.fuseW ≤ 1) ∧
    (let s := at0 { c1 with opens := [{ id := 3, reg := 1 }], pend := true }
     s.guard {} = some {} ∧ s.cur.atPoint = false ∧ s.cur.pend = true ∧ s.cur.carry.active = false) := by
  refine ⟨passes1, ?_⟩
  decide +kernel

/-- Fusion: context A apart, let pass or not, and in a machine of two; context B. -/
theorem witness_fusion : s1.Passes {} ∧ s1.latch.n % 2 = 0 ∧ s1.cur.fuseW ≤ 1 ∧ s1.cur.pass = false ∧
    (let s := at0 { c1 with pass := true }; s.guard {} = some {} ∧ s.cur.pass = true ∧ s.cur.fuseW ≤ 1) ∧
    (let s := at0 { c1 with fuseW := 2 }; s.guard {} = some {} ∧ 1 < s.cur.fuseW) := by
  refine ⟨passes1, ?_⟩
  decide +kernel

/-- A context with guard 1 open under identity 3, and without a prediction. -/
def opened : State := at0 { c1 with g := [(1, .opn 3)], opens := [{ id := 3, reg := 1 }], shadow := some {} }

/-- GuardWaits: every guard resolved; an open one without a prediction in a context that keeps marks. -/
theorem witness_guardWaits : s1.Passes {} ∧ (∀ q, 1 ≤ q → q ≤ 15 → ∃ b, s1.cur.gAt q s1.latch.ic = .res b) ∧
    (opened.guard {} = some {} ∧ opened.cur.gAt 1 10 = .opn 3 ∧ opened.cur.open? 3 = some { id := 3, reg := 1 } ∧
      opened.cur.keepsMarks = true) := by
  refine ⟨passes1, ?_, by decide +kernel⟩
  intro q h1 h2
  exact ⟨false, by interval_cases q <;> decide +kernel⟩

/-- InstructionCache: no byte, the last byte that fits the line, and a line that can be fetched. -/
theorem witness_cache :
    (let c := { c1 with table := { core := [(0, ⟨0x14384, 0⟩)], eng := [] }, sa := put [(1, 0x10000), (2, 64)] }
     let s := at0 c
     s.guard {} = some {} ∧ s.sSrc 1 = [([], clean 0x10000)] ∧ s.sSrc 2 = [([], clean 64)] ∧ s.sSrc 0 = [([], clean 0)] ∧
       s.cur.canFetch 0x10000 = true ∧ (s.fetchHome 0 0x10000).isSome = true ∧ (s.core 0).lockedLines < 2048 ∧ s.cur.ownOpen {} 10 = []) := by
  decide +kernel

/-- FormatWrites: nothing pending; the image and the last selector. -/
theorem witness_formats : s1.Settled {} ∧ s1.cur.fmtPend = [] ∧ ({ d := 8, imm14 := 3 } : CIOp).d.toNat ≤ 8 ∧
    (Instr.fmt {} { d := 8, imm14 := 3 }).wf = true ∧ (Instr.fmt { ext := true } { imm32 := 0x08814411 }).wf = true := by
  refine ⟨settled1, ?_⟩; decide +kernel

/-- WakeTokens: an owned comparator and one that is not; a range up to the end of its entry, and one byte beyond; a range whose first and
last page are its entry's, and a page between them another's; a token. -/
theorem witness_wake : s1.Fires {} ∧ (s1.core 0).owns 0 1 = true ∧ (s1.core 0).owns 0 7 = false ∧ s1.SIs 0 (clean 0) ∧
    (let s := at0 { c1 with sa := put [(1, 0x10000), (2, 0x10000), (3, 0x10001)] }
     s.guard {} = some {} ∧ s.sSrc 1 = [([], clean 0x10000)] ∧ s.sSrc 2 = [([], clean 0x10000)] ∧ s.sSrc 3 = [([], clean 0x10001)] ∧
       tLookup s.cur.table.core 0x10000 = some ⟨0x14301, 0⟩ ∧ (⟨0x14301, 0⟩ : TEntry).p = true ∧ (⟨0x14301, 0⟩ : TEntry).kind = 1 ∧
       tLookup s.cur.table.core 0x1FFFF = some ⟨0x14301, 0⟩ ∧ 0x20000 ≤ (⟨0x14301, 0⟩ : TEntry).vbase + 2 ^ (⟨0x14301, 0⟩ : TEntry).lsz ∧
       0x10000 ≤ scratchBytes (s.core 0) ∧ (⟨0x14301, 0⟩ : TEntry).vbase + 2 ^ (⟨0x14301, 0⟩ : TEntry).lsz < 0x20001 ∧
       (∀ p, 0x10000 / 65536 ≤ p ∧ p ≤ (0x10000 + 0x10000 - 1) / 65536 → tLookup s.cur.table.core (p * 65536) = some ⟨0x14301, 0⟩)) ∧
    (let e : TEntry := ⟨0x0004B01, 0⟩
     let c := { c1 with table := { core := [(0, ⟨0x14304, 0x20000⟩), (1, e)], eng := [] }, sa := put [(1, 0), (2, 0x30000)] }
     let s := at0 c
     s.sSrc 1 = [([], clean 0)] ∧ s.sSrc 2 = [([], clean 0x30000)] ∧ tLookup s.cur.table.core 0 = some e ∧ e.p = true ∧ e.kind = 1 ∧
       0x30000 ≤ e.vbase + 2 ^ e.lsz ∧ tLookup s.cur.table.core 0x20000 = some e ∧ tLookup s.cur.table.core (1 * 65536) ≠ some e) ∧
    s1.Passes {} ∧ s1.token = none ∧
    (let s := s1.onCore 0 (fun d => { d with wake := [(1, ⟨true, 0, 0, 8⟩)], tokens := [1] }); s.guard {} = some {} ∧ s.token = some 1) := by
  refine ⟨fires1, by decide +kernel, by decide +kernel, sis1.2.2.1, ⟨by decide +kernel, by decide +kernel, by decide +kernel, by decide +kernel,
    by decide +kernel, by decide +kernel, by decide +kernel, by decide +kernel, by decide +kernel, by decide +kernel, by decide +kernel, ?_⟩,
    by decide +kernel, passes1, by decide +kernel, by decide +kernel⟩
  intro p hp
  obtain rfl : p = 1 := by omega
  decide +kernel

/-- A member 1 of a carry round whose acceptance literal is open. -/
def unacc : State := at0 { c1 with carry := { lit := some 3, active := true }, opens := [{ id := 3, reg := 0 }] }

/-- BarrierInputs, BarrierPhaseRead, SpecialRegisters, StopsAndHandlers: an operation that waits for its member's literal, and one in a
context without one. -/
theorem witness_unaccepted : (∃ k, unacc.guard {} = some k) ∧ unacc.cur.ownOpen {} unacc.latch.ic = [] ∧ unacc.cur.collapsible = [] ∧
    unaccepted unacc 3 ∧ unacc.SIs 1 (clean 6) ∧ s1.cur.carryTag = [] := by
  unfold unaccepted State.SIs
  exact ⟨⟨_, rfl⟩, by decide +kernel⟩

/-- BarrierInputs, BarrierPhaseRead: a count of 1 and of 0; a completion with one left over and one arrival short; a phase at
its token, one and two past it. -/
theorem witness_barriers : s1.Settled {} ∧ s1.Passes {} ∧ s1.SIs 1 (clean 6) ∧ (6 : Word).toNat % 2 ^ 16 ≠ 0 ∧ s1.SIs 0 (clean 0) ∧
    (({ exp := 1, cnt := 0 } : Barrier).exp.toNat ≤ 0 + [arrivalAt s1 0 0 none, arrivalAt s1 0 0 none].length) ∧
    (0 + [arrivalAt s1 0 0 none].length < ({ exp := 2, cnt := 0 } : Barrier).exp.toNat) ∧
    ((s1.barrier 0 0).shown s1.cycle - (0 : BitVec 16)).toNat = 0 ∧
    (let s := at0 { c1 with sa := put [(1, 0xFFFF), (2, 0xFFFE)] }
     s.sSrc 1 = [([], clean 0xFFFF)] ∧ ((s.barrier 0 0).shown s.cycle - (0xFFFF : BitVec 16)).toNat = 1 ∧
       s.sSrc 2 = [([], clean 0xFFFE)] ∧ ((s.barrier 0 0).shown s.cycle - (0xFFFE : BitVec 16)).toNat = 2) := by
  refine ⟨settled1, passes1, sis1.1, by decide, sis1.2.2.1, ?_⟩
  decide +kernel

/-- GroupWaits: with nothing held, let pass and not; let pass with a store outstanding; a guard of its own that a policy may collapse. -/
theorem witness_groupWaits : s1.Passes {} ∧ s1.Settled {} ∧ s1.cur.pass = false ∧ s1.cur.carry.active = false ∧
    s1.cur.keepsMarks = false ∧ s1.cur.larder = [] ∧ s1.cur.outs = [] ∧ s1.SIs 1 (clean 6) ∧ s1.SIs 2 (clean 7) ∧
    (let s := at0 { c1 with pass := true }
     s.guard {} = some {} ∧ s.cur.pass = true ∧ s.cur.ownOpen {} 10 = [] ∧ s.cur.collapsible = [] ∧ s.cur.outsOf 0x1F 2 = [] ∧ s.cur.heldOf 0x1F 2 = []) ∧
    (let s := at0 { c1 with pass := true, outs := [⟨1, 1, 1, 2, false, false, 0⟩] }
     s.guard {} = some {} ∧ s.cur.pass = true ∧ s.cur.ownOpen {} 10 = [] ∧ s.cur.collapsible = [] ∧ s.cur.carry.active = false ∧
       s.cur.outsOf 0x1F 2 ++ s.cur.heldOf 0x1F 2 ≠ []) ∧
    (3 ∈ opened.cur.ownOpen { g := 1 } 10 ∧ 3 ∈ opened.cur.collapsible) := by
  refine ⟨passes1, settled1, by decide +kernel, by decide +kernel, by decide +kernel, by decide +kernel, by decide +kernel, sis1.1,
    sis1.2.1, by decide +kernel, by decide +kernel, by decide +kernel⟩

/-- SpawnSends: a node in device memory, a misaligned address, one in scratch and one that no entry maps. -/
theorem witness_spawn : s1.Fires {} ∧ s1.SIs 5 (clean 0x20000) ∧ tLookup s1.cur.table.core 0x20000 = some ⟨0x24304, 0x20000⟩ ∧
    (⟨0x24304, 0x20000⟩ : TEntry).p = true ∧ (⟨0x24304, 0x20000⟩ : TEntry).kind = 4 ∧ s1.SIs 1 (clean 6) ∧ (6 : Word).toNat % 64 ≠ 0 ∧
    tLookup s1.cur.table.core 0x60000 = none ∧ (⟨0x14301, 0⟩ : TEntry).kind ≠ 4 := by
  refine ⟨fires1, sis1.2.2.2.2, by decide +kernel, by decide +kernel, by decide +kernel, sis1.1, by decide, by decide +kernel, by decide +kernel⟩

/-- SpecialRegisters: a reserved bit, a privileged register below its level, and a legal write of each kind. -/
theorem witness_csr : s1.Settled {} ∧ s1.SIs 1 (clean 6) ∧ s1.SIs 2 (clean 7) ∧ s1.SIs 0 (clean 0) ∧ ((6 : Word) &&& csrReserved 0x007 ≠ 0) ∧
    (csrPriv 0x081 = true ∨ csrPriv 0x082 = true) ∧ s1.cur.lvl = false ∧ ((0 : Word) &&& csrReserved 0x082 = 0) ∧
    (at0 { c1 with lvl := true }).cur.lvl = true ∧ csrBad 0x001 7 = false ∧ ((7 : Word) &&& csrReserved 0x001 = 0) ∧ csrPriv 0x001 = false ∧
    csrBad 0x006 0 = false ∧ wideRegister 0x060 := by
  refine ⟨settled1, sis1.1, sis1.2.1, sis1.2.2.1, ?_⟩
  unfold wideRegister; decide +kernel

/-- SpecialRegisters, what falls due: one pending write of `FEL`, `WDOG` and the last save register, and nothing else pending; values with the
bits that clear, and none reserved. -/
theorem witness_due : (∀ num ∈ [0x003, 0x00A, 0x016, 0x018, 0x020],
      let s := at0 { c1 with csrPend := [(11, num, 0x4000000000000000)] }
      (0x4000000000000000 : Word) &&& csrReserved num = 0 ∧ (s.ctx 0).csrPend = [(11, num, 0x4000000000000000)] ∧ (s.ctx 0).felPend = [] ∧
        (s.ctx 0).npend = [] ∧ s.leadN 0 = 0) ∧
    (∀ num ∈ [0x045, 0x060, 0x082, 0x083, 0x084, 0x086, 0x081], (0 : Word) &&& csrReserved num = 0) ∧
    ((0x8000000000000000 : Word) &&& csrReserved 0x060 = 0) := by decide +kernel

/-- VectorArithmetic, VectorConversions, the values: the ends of the narrowest and the widest integer format; in every floating-point format
the largest finite value and the first NaN. -/
theorem witness_values : (∀ code ∈ [6, 9], 6 ≤ code ∧ code ≤ 9 ∧ 2 ^ codeWidth code - 1 < 2 ^ codeWidth code) ∧
    (∀ code ∈ [1, 2, 3, 4, 5], isFinite code (largestFinite code) ∧
      isNaN code (largestFinite code + (if code = 4 then 1 else 2)) ∧ largestFinite code + 2 < 2 ^ codeWidth code ∧
      ¬ isNaN code (largestFinite code) ∧ ¬ isNaN code (signBit code)) := by
  unfold isFinite isNaN; decide +kernel

/-- VectorArithmetic: a shift of the most negative element by its width; compares of the extreme integers and of the two zeros.
VectorLanes: a reduction and a scan of the widest vector of the narrowest elements. -/
theorem witness_lanes : (0x80 < 2 ^ 8 ∧ 8 % 8 = 0) ∧ 0x80 < 2 ^ codeWidth 6 ∧ 0x7F < 2 ^ codeWidth 6 ∧ 2 ^ 31 < 2 ^ codeWidth 1 ∧ 1024 = 8 * 2 ^ 7 ∧
    codeWidth 6 = 8 ∧ 256 = 64 * 2 ^ 2 ∧ codeWidth 9 = 64 := by decide

/-- StopsAndHandlers: outside a handler, and in one whose frame area is present. -/
theorem witness_handlers : s1.Passes {} ∧ s1.Fires {} ∧ s1.cur.inh = false ∧
    (let s := at0 { c1 with inh := true, tfa := 0x10000 }
     s.guard {} = some {} ∧ s.cur.inh = true ∧ s.isLead = true ∧ tLookup s.cur.table.core s.cur.tfa.toNat = some ⟨0x14301, 0⟩) := by
  refine ⟨passes1, fires1, by decide +kernel, by decide +kernel⟩

/-- FixedLoads, Stores, Atomics: own scratch, at its first byte and at the last word of its entry; what a store and an atomic
reach; a returning form has porch room. -/
theorem witness_access : s1.Fires {} ∧ s1.Calm ∧ s1.BaseIs 1 (clean 0x10000) ∧ s1.SIs 1 (clean 6) ∧ s1.SIs 2 (clean 7) ∧ s1.VIs 1 (clean 0) ∧
    accessCheck s1.cur.table.core 0 (addressOf { base := 1, size := 3 } 0x10000) 8 true false = .inr ⟨0, scratchHome 0 0, 0, 0, false, 0⟩ ∧
    s1.firstOor 0 0 8 = none ∧
    accessCheck s1.cur.table.core 0 (addressOf { base := 1, size := 3 } 0x10000) 8 false true = .inr ⟨0, scratchHome 0 0, 0, 0, false, 0⟩ ∧
    accessCheck s1.cur.table.core 0 0x1FFF8 8 false true = .inr ⟨0, scratchHome 0 0xFFF8, 0xFFF8, 0, false, 0⟩ ∧
    s1.porchRoom 1 = true := by
  refine ⟨fires1, calm1, base1.1, sis1.1, sis1.2.1, vis1, ?_⟩
  decide +kernel

/-- Stores of poisoned data: a scalar and a vector with a poisoned word among those stored, in a context that keeps no marks and in one that
does. -/
theorem witness_poison : ∀ sh ∈ [none, some {}],
    (let c := { c1 with shadow := sh, sa := { base := (3, [{ val := ⟨8, 1, none⟩ }]) :: c1.sa.base }, v := { base := [(2, [{ val := ⟨0, 2, none⟩ }])] } }
     let s := at0 c
     s.guard {} = some {} ∧ s.aSrc 1 = [([], clean 0x10000)] ∧ s.cur.larder = [] ∧ s.cur.freed = [] ∧ s.cur.fences = [] ∧ s.cur.carry = {} ∧
       accessCheck s.cur.table.core 0 (addressOf { base := 1, size := 3 } 0x10000) 8 false true = .inr ⟨0, scratchHome 0 0, 0, 0, false, 0⟩ ∧
       s.sSrc 3 = [([], ⟨8, 1, none⟩)] ∧ s.vSrc 2 = [([], ⟨0, 2, none⟩)] ∧ (2 : BitVec 32).getLsbD 1 = true ∧ s.cur.keepsMarks = sh.isSome) := by
  decide +kernel

/-- Stores and Atomics as they perform: a canonical memory, bytes in range and clean, both sizes. -/
theorem witness_performs : State.reset.MemInv ∧ (∀ j, j < 8 → State.reset.inRange (scratchHome 0 0 + j) = true) ∧
    (∀ b ∈ State.reset.badAt (scratchHome 0 0) 8, b = false) ∧ (∀ b ∈ State.reset.badAt (scratchHome 0 0) 4, b = false) := by
  unfold State.MemInv; decide +kernel

/-- TimedRequests: a request to own scratch within its range, and one to device memory. -/
theorem witness_timed : s1.Fires {} ∧ s1.Calm ∧ s1.BaseIs 1 (clean 0x10000) ∧ s1.BaseIs 2 (clean 0x20000) ∧ s1.porchRoom 1 = true ∧
    s1.firstOor 0 0 8 = none ∧
    accessCheck s1.cur.table.core 0 0x10000 8 false false = .inr ⟨0, scratchHome 0 0, 0, 0, false, 0⟩ ∧
    (match accessCheck s1.cur.table.core 0 0x20000 8 false false with | .inr t => decide (2 < t.place) | .inl _ => false) = true := by
  refine ⟨fires1, calm1, base1.1, base1.2.1, ?_⟩
  decide +kernel

/-- AccessChecks: an address for each outcome, in the order of the checks. -/
theorem witness_checks : s1.Fires {} ∧ s1.BaseIs 3 (clean 0x10003) ∧ (addressOf { base := 3, size := 3 } 0x10003).toNat % 8 ≠ 0 ∧
    s1.SIs 1 (clean 6) ∧ s1.VIs 1 (clean 0) ∧ (∀ e ∈ s1.cur.table.core, e.2.hits 0x60000 = false) ∧
    tLookup s1.cur.table.core 0x40000 = some ⟨0x44104, 0x40000⟩ ∧ (⟨0x44104, 0x40000⟩ : TEntry).p = false ∧
    tLookup s1.cur.table.core 0x20000 = some ⟨0x24304, 0x20000⟩ ∧ (⟨0x24304, 0x20000⟩ : TEntry).p = true ∧ 3 ≤ (⟨0x24304, 0x20000⟩ : TEntry).kind ∧
    tLookup s1.cur.table.core 0x30000 = some ⟨0x34204, 0x30000⟩ ∧ (⟨0x34204, 0x30000⟩ : TEntry).w = false ∧
    (⟨0x34204, 0x30000⟩ : TEntry).p = true ∧ (⟨0x14301, 0⟩ : TEntry).kind < 3 ∧ (⟨0x14301, 0⟩ : TEntry).w = true := by
  refine ⟨fires1, base1.2.2, by decide +kernel, sis1.1, vis1, ?_⟩
  decide +kernel

/-- FencesAndDrains: nothing outstanding, and a store outside and inside the scope. -/
theorem witness_fences : s1.Settled {} ∧ s1.Calm ∧ s1.cur.outs = [] ∧
    (let s := at0 { c1 with outs := [{ id := 1, seq := 1, kind := 1, home := 3 }] }
     s.guard {} = some {} ∧ s.cur.ownOpen {} 10 = [] ∧ s.cur.larder = [] ∧ s.cur.freed = [] ∧ s.cur.fences = [] ∧ s.cur.keepsMarks = false ∧
       s.cur.carry = {} ∧ (∀ q ∈ s.cur.outs, q.kind = 1 ∧ ¬ q.home ≤ ({ scope := 2 } : FOp).scope.toNat ∧
         q.home ≤ ({ scope := 3 } : FOp).scope.toNat ∧ q.perf = false)) := by
  refine ⟨settled1, calm1, ?_⟩
  decide +kernel

/-- A machine of two, its context A on core 0 in front. -/
def pair (f : Ctx → Ctx) : State :=
  (at0 (f { c1 with fuseW := 2, sa := put [(39, 5), (1, 6)] })).setCtx 2 { c1 with fuseW := 2 }
/-- The same in phase `p` of a round with `r` iterations left. -/
def round (p : Nat) (r : Word) : State := pair (fun c => { c with
  cloop := { on := true, i := 5, t := 6, r := r, start := 0x1000, phase := p, taken := 1 }, loops := [{ carry := true, start := 0x1000 }] })

/-- CarryLoops: a machine that is too narrow, one of its width, one with a full stack; each phase with its members ready, with
iterations left and at the end; a round in which member 1 is not accepted. -/
theorem witness_carry : s1.isLead = true ∧ s1.cur.fuseW ≠ 2 ∧
    (let s := pair id
     s.isLead = true ∧ s.latch.n % 2 = 0 ∧ s.cur.fuseW = 2 ∧
       (∀ m ∈ s.members, (s.ctx m).quiet s.latch.ic = true ∧ (s.ctx m).spills = false) ∧
       s.sSrc 39 = [([], clean 5)] ∧ s.sSrc 1 = [([], clean 6)] ∧ s.cur.loops.length + s.cur.push.length < 6) ∧
    (let s := pair (fun c => { c with loops := levels 6 })
     6 ≤ s.cur.loops.length + s.cur.push.length ∧ ∀ m ∈ s.members, (s.ctx m).quiet s.latch.ic = true ∧ (s.ctx m).spills = false) ∧
    (let s := round 0 0; s.isLead = true ∧ s.inPhase 0 = true ∧ s.inPhase 1 = false ∧
      ∀ m ∈ s.cur.cloop.members s.latch.n, (s.ctx m).carryWaits s.cur.cloop s.latch.ic = false) ∧
    (let s := round 0 6; s.inPhase 0 = true ∧ s.cur.cloop.r ≠ 0 ∧ s.inPhase 2 = false) ∧
    (let s := round 1 6
     s.inPhase 1 = true ∧ s.inPhase 0 = false ∧
       (∀ m ∈ s.cur.cloop.members s.latch.n, (s.ctx m).settled s.latch.ic = true ∧ ∀ g ∈ (s.ctx m).opens, g.reg = 0) ∧
       ((s.cur.cloop.members s.latch.n).drop 1 = [2]) ∧
       s.decideRound s.cur.cloop s.latch.ic s.latch.n s.cur.carry.stores 1 [2] = (2, none)) ∧
    (let s := round 2 6
     s.inPhase 2 = true ∧ targetOf s {} { disp := 0 } = s.cur.cloop.start ∧ s.cur.cloop.r - 1 ≠ 0 ∧
       ∀ m ∈ s.cur.cloop.members s.latch.n, (s.ctx m).flushed s.cycle = true ∧ (s.ctx m).quiet s.latch.ic = true) ∧
    (let s := round 2 1; s.inPhase 2 = true ∧ s.cur.cloop.r - BitVec.ofNat 64 s.cur.cloop.taken = 0 ∧ targetOf s {} { disp := 2 } ≠ s.cur.cloop.start) := by
  decide +kernel

/-- VectorArithmetic, VectorMoves, VectorConversions: legal formats; a float format for the transcendental operations; both
forms of a shift; the last part of a conversion; and FO 10. -/
theorem witness_vectors : s1.Fires {} ∧ s1.VIs 1 (clean 0) ∧ s1.SIs 1 (clean 6) ∧ ({ fo := 9 } : VOp).foOk = true ∧
    (fmtOf (s1.vCode {})).isSome = true ∧ isIntCode (s1.vCode {}) = false ∧ isIntCode (s1.vCode { fo := 6 }) = true ∧
    ({ sub := 1 } : VOp).sub.getLsbD 0 = true ∧ ({ sub := 0 } : VOp).sub.getLsbD 0 = false ∧
    partOk (codeWidth s1.vaCode) (codeWidth (s1.vdCode {})) 0 = true ∧ ({ w := 2, fo := 0 } : VOp).w = 2 ∧ 0xA ≤ ({ fo := 10 } : VOp).fo.toNat := by
  refine ⟨fires1, vis1, sis1.1, ?_⟩
  decide +kernel

/-- MatrixRegisters: nothing queued and a call queued; the last row and the first beyond. -/
theorem witness_rows : s1.Fires {} ∧ s1.SIs 1 (clean 6) ∧ s1.callsOf 0 = false ∧ s1.VIs 1 (clean 0) ∧ s1.routinesAt 0 = [] ∧
    (s1.onCore 0 (fun d => { d with queue := [{ id := 1, n := 0, op := 0 }] })).callsOf 0 = true ∧
    (6 + BitVec.ofNat 64 12281 : Word).toNat < 512 * (s1.core 0).accg.toNat ∧ 512 * (s1.core 0).accg.toNat ≤ (6 + BitVec.ofNat 64 12282 : Word).toNat ∧
    s1.SIs (KROp.a { x := 0x0200000 }) (clean 6) := by
  refine ⟨fires1, sis1.1, by decide +kernel, vis1, by decide +kernel, by decide +kernel, by decide +kernel, by decide +kernel, ?_⟩
  unfold State.SIs; decide +kernel

/-- A core whose array holds routine 0, and the parameters of a call. -/
def calls (m3 : Word) (q : Nat) : State :=
  let s := at0 { c1 with mp := [(0, 0x10000), (1, 0x10000), (2, 0), (3, m3), (4, 0x1000)] }
  (s.setArr 0 { index := [(0, 0x80000000), (9, 0x80000000)] }).onCore 0 (fun d => { d with
    queue := (upTo 0 q).map (fun i => { id := i, n := 0, op := 2 }) })

/-- MatrixCalls: a routine that is there and one that is not; legal, illegal and too many tiles; room and none. -/
theorem witness_calls :
    (let s := calls 0x01010000 3; s.guard {} = some {} ∧ ((s.arr 0).entry 0).getLsbD 31 = true ∧ ((s.arr 0).entry 200).getLsbD 31 = false ∧
      (s.routinesAt 0).length < 4 ∧ s.cur.fenced 4 = [] ∧ ({ s.mkRoutine {} 0 0 [] with fi := false, fo := false }).badArgs = false ∧
      ({ s.mkRoutine {} 0 0 [] with fi := false, fo := false }).t0 + 1 ≤ 16 * (s.core 0).accg.toNat ∧
      (s.cur.mpAt 3 10).extractLsb' 32 32 = 0 ∧ s.aSrc 1 = [([], clean 0x10000)]) ∧
    (let s := calls 0x01010180 4; ¬ (s.routinesAt 0).length < 4 ∧ s.cur.fenced 4 = [] ∧ 16 * (s.core 0).accg.toNat < (s.mkRoutine {} 0 0 []).t0 + 1 ∧
      (s.mkRoutine {} 0 0 []).badArgs = false) ∧
    (let s := calls 0 3; ({ s.mkRoutine {} 0 0 [] with fi := false, fo := false }).badArgs = true ∧
      ¬ (1 ≤ ((s.cur.mpAt 3 10).extractLsb' 16 8).toNat)) := by decide +kernel

/-- CopyCommands: one element, none, and 2^48; room and none; the bases of a gather. -/
theorem witness_copies : s1.Fires {} ∧ s1.SIs 1 (clean 6) ∧ s1.cur.copyAt ≠ s1.cycle ∧ s1.cur.fenced 3 = [] ∧ s1.BaseIs 1 (clean 0x10000) ∧ s1.BaseIs 2 (clean 0x20000) ∧
    s1.BaseIs 3 (clean 0x10003) ∧
    ((upTo 0 (QOp.dims {})).map (fun i => s1.cur.xsAt i 10)).map (fun x => x.ext.toNat) = [0] ∧
    (let s := at0 { c1 with xs := [(0, { ext := 1 }), (1, { ext := 0x1000000 }), (2, { ext := 0x1000000 })] }
     s.guard {} = some {} ∧ ([s.cur.xsAt 0 10].map (fun x => x.ext.toNat)).prod = 1 ∧
       2 ^ 48 ≤ ([s.cur.xsAt 1 10, s.cur.xsAt 2 10].map (fun x => x.ext.toNat)).prod) ∧
    ((s1.cluster 0).queue.filter (fun c => c.eng == 0 && !c.away)).length < 16 ∧
    ((s1.cluster 0).queue.filter (fun c => c.n == 0)).length + 0 ≤ ({} : QOp).xs.toNat ∧
    (let s := s1.setCluster 0 { queue := (upTo 0 16).map (fun i => { id := i, n := 0, op := 2 }) }
     s.guard {} = some {} ∧ ¬ ((s.cluster 0).queue.filter (fun c => c.eng == 0 && !c.away)).length < 16 ∧
       ({ xs := 15 } : QOp).xs.toNat < ((s.cluster 0).queue.filter (fun c => c.n == 0)).length) := by
  refine ⟨fires1, sis1.1, by decide +kernel, by decide +kernel, base1.1, base1.2.1, base1.2.2, ?_⟩
  decide +kernel

/-- RelocationInstructions: tiles apart and overlapping, one tile and 4096, an aligned status word and one that is not; a sweep of
no line; a request of `tstat` to own scratch and to device memory. -/
theorem witness_relocation : s1.Fires {} ∧ s1.AIs 1 (clean 0x10000) ∧ s1.AIs 2 (clean 0x20000) ∧ s1.AIs 3 (clean 0x10003) ∧ s1.SIs 1 (clean 6) ∧
    (let s := at0 { c1 with sa := put [(1, 1), (2, 4096), (65, 0x10000), (66, 0x20000), (67, 0x20010000)] }
     s.guard {} = some {} ∧ s.sSrc 1 = [([], clean 1)] ∧ s.sSrc 2 = [([], clean 4096)] ∧ s.aSrc 1 = [([], clean 0x10000)] ∧
       s.aSrc 2 = [([], clean 0x20000)] ∧ s.aSrc 3 = [([], clean 0x20010000)]) ∧
    (0x10000 + 1 * 65536 ≤ 0x20000 ∧ 0x10000 + 4096 * 65536 ≤ 0x20010000 ∧ ¬ (0x10000 + 4096 * 65536 ≤ 0x20000)) ∧
    ((0x10000 : Word).toNat % 8 = 0 ∧ (0x10003 : Word).toNat % 8 ≠ 0) ∧ QOp.sw { x := 0x100 } = true ∧ QOp.sw {} = false ∧
    (s1.wing 0).reloc.length < 16 ∧ s1.cur.fenced 3 = [] ∧ s1.SIs 0 (clean 0) ∧ s1.BaseIs 1 (clean 0x10000) ∧
    (∃ t, s1.access (clean 0x10000) 0x10000 1 false false = .inr t ∧ t.place ≤ 1) ∧
    (∃ t, s1.access (clean 0x20000) 0x20000 1 false false = .inr t ∧ 2 ≤ t.place) ∧ s1.porchRoom 1 = true := by
  refine ⟨fires1, ais1.1, ais1.2.1, ais1.2.2.1, sis1.1, by decide +kernel, by decide, by decide, by decide +kernel, by decide +kernel,
    by decide +kernel, by decide +kernel, sis1.2.2.1, base1.1, ⟨_, rfl, by decide +kernel⟩, ⟨_, rfl, by decide +kernel⟩, by decide +kernel⟩

/-- LinkCommands: own scratch to another node; a slot of context A and one of B; a format that reduces and one that does not. -/
theorem witness_links : s1.Fires {} ∧ s1.AIs 1 (clean 0x10000) ∧ s1.AIs 6 (clean 0x50000) ∧ s1.AIs 3 (clean 0x10003) ∧ s1.SIs 1 (clean 6) ∧
    tLookup s1.cur.table.core 0x10000 = some ⟨0x14301, 0⟩ ∧ tLookup s1.cur.table.core 0x50000 = some ⟨0x54325, 0x1000000000000⟩ ∧
    (⟨0x54325, 0x1000000000000⟩ : TEntry).kind = 5 ∧ (⟨0x54325, 0x1000000000000⟩ : TEntry).w = true ∧
    ((⟨0x14301, 0⟩ : TEntry).tgt 0 0x10000).place = 0 ∧ ((⟨0x14302, 0⟩ : TEntry).tgt 0 0x10000).place = 0 ∧
    ¬ ((⟨0x14302, 0⟩ : TEntry).tgt 1 0x10000).place = 0 ∧
    (s1.core 0).owns 0 3 = true ∧ (s1.core 0).owns 0 4 = false ∧ (s1.wing 0).link.length < 32 ∧ s1.porchRoom 1 = true ∧ s1.cur.fenced 3 = [] ∧
    ((s1.cur.fmtAt 10).extractLsb' 16 4 = 1 ∨ (s1.cur.fmtAt 10).extractLsb' 16 4 = 4) ∧
    ((at0 { c1 with fmt := 0x08854411 }).cur.fmtAt 10).extractLsb' 16 4 = 5 := by
  refine ⟨fires1, ais1.1, ais1.2.2.2, ais1.2.2.1, sis1.1, ?_⟩
  decide +kernel

/-- NoEffect: a guard that fails, for a guard register and for the contrary sense of `g0`'s. -/
theorem witness_failing : s1.guard { g := 3 } = none ∧ s1.cur.ownOpen { g := 3 } s1.latch.ic = [] ∧ ({ fo := 0 } : VOp).foOk = true := by decide +kernel

/-- SortUnit, SortsOneVector, CupboardStaysRanked: sources of one value; an empty cupboard, and one of two in rank order. -/
theorem witness_sort : s1.Fires {} ∧ s1.VIs 1 (clean 0) ∧ s1.SIs 1 (clean 6) ∧ s1.SIs 2 (clean 7) ∧ (s1.cur.nAt 10).cand.length ≤ 64 ∧
    (let s := at0 { c1 with nunit := { exact := true } }
     s.cur.nunit.exact = true ∧ s.guard {} = some {} ∧ s.vSrc 1 = [([], clean 0)]) ∧
    (let u : NUnit := { cand := [⟨9, 1, false⟩, ⟨9, 2, false⟩] }
     u.cand.length ≤ 64 ∧ (∀ e ∈ u.cand, u.thr.toNat ≤ e.key.toNat) ∧
       u.cand.Pairwise (fun e f => f.key.toNat < e.key.toNat ∨ (e.key = f.key ∧ e.idx.toNat ≤ f.idx.toNat))) := by
  refine ⟨fires1, vis1, sis1.1, sis1.2.1, by decide +kernel, by decide +kernel⟩

/-! ### Witnesses of the statements about events -/

/-- The routine of core 0 that an event of array 0 means. -/
def runs (r : Routine) : State := (evS c1 { core := 0, id := 7 }).onCore 0 (fun d => { d with queue := [r] })
def rout : Routine := {
  id := 7, n := 0, op := 0, prog := [0, 0, 0], mp := [0x10000, 0x10000, 0, 0x01010000, 0x40]
  fmt := 0x08814411, begun := true, std := true }

/-- Microwords: a word that goes on, one that closes a loop and goes back, one that leaves it; a tile within and beyond the
storage; loops with room and without; legal and illegal plane counts. -/
theorem witness_microwords : (runs rout).evRoutine = some rout ∧ goesOn rout { rout with uw := 1 } false ∧
    goesOn { rout with loops := [(1, 2)] } { rout with loops := [(1, 1)], uw := 1 } true ∧
    goesOn { rout with loops := [(1, 1)] } { rout with loops := [], uw := 1 } true ∧
    ¬ (16 * ((runs rout).core 0).accg.toNat ≤ rout.t) ∧
    16 * ((runs { rout with t := 384 }).core 0).accg.toNat ≤ ({ rout with t := 384 } : Routine).t ∧
    (∃ w, (runs rout).cycle < w ∧ w % 4 = 0) ∧ rout.loops.length < 4 ∧
    4 ≤ ({ rout with loops := [(0, 1), (0, 1), (0, 1), (0, 1)] } : Routine).loops.length := by
  refine ⟨by decide +kernel, .inl ⟨rfl, by decide, rfl⟩, .inr ⟨1, 2, [], rfl, rfl, .inr ⟨by decide, by decide, rfl⟩⟩,
    .inr ⟨1, 1, [], rfl, rfl, .inl ⟨by decide, by decide, rfl⟩⟩, by decide +kernel, by decide +kernel, ⟨104, by decide +kernel⟩, by decide, by decide⟩

/-- A routine whose tile goes to own scratch, in FP32. -/
def drains : Routine := { rout with pd := 0x10000 }

/-- Microwords: a `DRN` of a whole tile that moves PD by its rows: each element's place is in own scratch; a drain that ends its tile. -/
theorem witness_drains : (runs drains).evRoutine = some drains ∧ 1 ≤ drains.md ∧ drains.md ≤ 9 ∧ drains.drow = 0 ∧
    drains.t < 16 * ((runs drains).core 0).accg.toNat ∧ (⟨false, 2 ^ 55⟩ : UopArg).arg.getLsbD 57 = false ∧
    (∀ m ∈ List.range 32, ∀ i ∈ List.range 32,
      let a := drains.pd + m * drains.ldb + i * mdSize drains.md
      a < 2 ^ 48 ∧ a % mdSize drains.md = 0 ∧ tLookup ((runs drains).ctx 0).table.eng a = some ⟨0x14301, 0⟩) ∧
    (⟨0x14301, 0⟩ : TEntry).p = true ∧ (⟨0x14301, 0⟩ : TEntry).w = true ∧ (⟨0x14301, 0⟩ : TEntry).kind = 1 ∧ (⟨0x14301, 0⟩ : TEntry).mv = false ∧
    (match (runs drains).drainPipe { drains with drow := 31 } false with | .ok _ r _ => decide (32 ≤ r.drow) | _ => false) = true := by
  decide +kernel
theorem witness_afterDrain : goesOn { afterDrain drains ⟨false, 2 ^ 55⟩ with row := 32 }
    { afterDrain drains ⟨false, 2 ^ 55⟩ with row := 32, uw := 1 } false := .inl ⟨rfl, by decide, rfl⟩

/-- A routine past its checks: a step and a drain that go through. -/
theorem witness_tiles : (match (runs { rout with fmt := 0x088A4411 }).drainPipe { rout with drow := 32 } false with | .ok _ _ _ => true | _ => false) = true ∧
    (match (runs rout).drainPipe { rout with mp := [0x10000, 0x10000, 0, 0, 0, 0, 0x10000], pd := 0x10000, drow := 31 } false with
      | .ok _ r _ => decide (r.drow ≤ 32) | _ => false) = true ∧
    (match (runs rout).stepPipe { rout with pa := 0x10000, pb := 0x10000 } with | .ok _ _ _ => true | _ => false) = true := by decide +kernel

/-- HandledTraps: a handled trap outside a handler, with a handler and a writable frame area in own scratch. -/
theorem witness_traps : (let t : TrapRec := { code := .divZero, ba := 0x1000, ra := 0x1000, info0 := 6 }
    let s := evS { c1 with trapP := some t, tvec := 0x20000, tfa := 0x10000 } { n := 0 }
    (s.ctx 0).fuseW ≤ 1 ∧ (s.ctx 0).cloop.on = false ∧ (s.ctx 0).trapP = some t ∧ t.forceFatal = false ∧ 1 ≤ t.code.num ∧ t.code.num ≤ 6 ∧
      (s.ctx 0).tvec ≠ 0 ∧ (s.ctx 0).inh = false ∧ (s.ctx 0).trapQ = [] ∧ (s.frameHome 0).isSome = true) := by decide +kernel

/-- KernelStops: a fatal trap, also within the repeats of a bundle; a context that is to stop behind them; a fault without a mark and with
one, of a context by itself. -/
theorem witness_firstFatal :
    (evS { c1 with fatalP := some { code := .accRange } } {}).firstFatal 0 = some { code := .accRange } := by decide +kernel

theorem witness_stops : (evS { c1 with fatalP := some { code := .accRange } } {}).ctx 0 = { c1 with fatalP := some { code := .accRange } } ∧
    ((evS { c1 with faultP := some { code := .pageFault } } {}).ctx 0).shadow = none ∧
    (let s := evS { c1 with faultP := some { code := .pageFault }, shadow := some {} } { who := .core 0 }
     (s.ctx 0).faultP = some { code := .pageFault } ∧ (s.ctx 0).shadow = some {} ∧ (s.ctx 0).fuseW ≤ 1 ∧ (s.ctx 0).cloop.on = false ∧
       ({} : Shadow).cloop.on = false ∧ s.ev.who = .core 0) ∧
    ((evS { c1 with dies := true } {}).ctx 0).dies = true ∧ c1.dies = false ∧
    (evS { c1 with group := [{ addr := 0x1000, len := 6, hdr := { rep := 3 }, left := 2 }] } {}).midRep 0 = true ∧ (evS c1 {}).midRep 0 = false := by
  decide +kernel

/-- ContextEvents: an arrival that is held under no literal, and under one; a line that can be fetched; no fault waiting to be
posted. -/
theorem witness_contextEvents : (let e : Held := { id := 4, op := .arrive 1 0 0x1000 3 [] }
    let s := evS { c1 with ic := 3, larder := [e, { e with id := 5, tag := [⟨3, true⟩] }] } {}
    (s.ctx 0).larder = [e, { e with id := 5, tag := [⟨3, true⟩] }] ∧ e.dead = false ∧ e.tag = [] ∧ 3 ≤ (s.ctx 0).ic ∧ (s.ctx 0).larderOff = false ∧
      (s.leadC 0).cloop.on = false ∧ s.mod.posts = [] ∧ s.mem.wf = true ∧ (s.core 0).lines.length < cacheLines) ∧
    (let s := evS { c1 with table := { core := [(0, ⟨0x14384, 0⟩)], eng := [] } } { addr := 0x10040 }
     (s.ctx 0).canFetch 0x10040 = true ∧ (s.fetchHome 0 0x10040).isSome = true ∧
       (let t := s.onCore 0 (fun d => { d with lines := [(1, 0)], locks := [(0, 1)] })
        ∃ l ∈ (t.core 0).lines, (t.core 0).locks.any (fun x => x.2 == l.1) = true)) := by decide +kernel

/-- A context whose next bundle, an empty one with STOP, stands in memory at the address that its executable entry maps. -/
def fetching (pc : Nat) : State :=
  let s := evS { c1 with pc := pc, table := { core := [(0, ⟨0x24384, 0x20000⟩)], eng := [] } } {}
  { s with mem := s.mem.write 0x20000 [0x00, 0x20] }

/-- IssueGroups: a misaligned pc; a group of one bundle that can be fetched and passes its checks. -/
theorem witness_groups : ((fetching 0x20001).ctx 0).pc % 2 = 1 ∧
    (let s := fetching 0x20000
     let s1 := s.evict 0 (linesOf 0x20000 1048)
     let bs := s1.assemble 0 1 0x20000 4
     (s.ctx 0).pc % 2 = 0 ∧ (s.ctx 0).part = none ∧ bs.length = 1 ∧ s1.fetchBad 0 bs = none ∧
       (s1.fillLines 0 (linesOf 0x20000 (groupEnd 0x20000 bs - 0x20000))).checkGroup 0 0x20000 1 bs = none) := by decide +kernel

/-- SwitchesAndStops: a running context, a kernel all of whose contexts have left, a context that is out, and one with a stop to take. -/
theorem witness_switches : (let s := evS c1 {}
    (s.ctx 0).mode = .running ∧ (s.ctx 0).fuseW ≤ 1 ∧ s.ev.idx ≠ 1) ∧
    (let s := evS { c1 with mode := .off, kernel := 0 } { idx := 1, id := 1 }
     let t := { s with mod := { s.mod with kernels := [(1, { record := 0x30000, state := .running })] } }
     let u := t.setCtx 192 { c1 with mode := .switchedOut }
     u.ev.idx = 1 ∧ u.mod.kernels.find? (fun e => e.1 == u.ev.id) = some (1, { record := 0x30000, state := .running }) ∧
       u.kernelLeft u.ev.id = true) ∧
    (let s := evS { c1 with mode := .switchedOut, fuseW := 2, fuse0 := 192 } {}
     (s.ctx 0).mode = .switchedOut ∧ (s.ctx 0).cloop.on = false ∧ 1 < (s.ctx 0).fuseW ∧ (s.ctx (s.ctx 0).fuse0).cloop.on = false) ∧
    (evS { c1 with mode := .stopped } {}).ctx 0 = { c1 with mode := .stopped } := by decide +kernel

/-- A context in front of the bundle at 0x1000, which its breakpoint 1 names, with debugging enabled. -/
def atBreak : Ctx := { c1 with pc := 0x1000, dbg := 0xC000000000000000, bka := [(1, 0x8000000000001000)], wpt := [(1, 0xF0C0000000010000)] }

/-- SwitchesAndStops: a stop of each cause: asked for by `dstop`, met at a breakpoint, asked for by a watchpoint or a step, asked for by the
host; a watchpoint that an access meets at its last byte. -/
theorem witness_causes : causes { atBreak with stopReq := some (1, 0) } 1 0 ∧ causes { atBreak with stopReq := some (3, 1) } 2 1 ∧
    causes { atBreak with stopReq := some (4, 0), resumed := some 0x1000 } 4 0 ∧
    causes { atBreak with hostReq := true, resumed := some 0x1000 } 5 0 ∧
    watches atBreak 1 62 0x10007 1 ∧ ¬ watches atBreak 1 62 0x10008 8 ∧ ¬ watches atBreak 0 62 0x10007 1 ∧
    atBreak.dbg.getLsbD 63 = true ∧ atBreak.dbg.getLsbD 62 = true ∧ atBreak.stopReq = none ∧ atBreak.fuseW ≤ 1 := by
  have hb : breaks { atBreak with stopReq := some (3, 1) } 1 := by
    refine ⟨by decide +kernel, by decide +kernel, by decide, by decide +kernel, ?_⟩
    intro j hj
    obtain rfl : j = 0 := by omega
    decide +kernel
  refine ⟨.inl ⟨rfl, .inl (by decide)⟩, .inr (.inl ⟨rfl, hb, ?_⟩), .inl ⟨rfl, .inr (fun i h => h.2.1 (by decide +kernel))⟩,
    .inr (.inr ⟨rfl, rfl, rfl, rfl, fun i h => h.2.1 (by decide +kernel)⟩), ?_⟩
  · intro w i h
    simp only [Option.some.injEq, Prod.mk.injEq] at h
    omega
  · unfold watches; decide +kernel

/-- An access of context 0 to a home. -/
def acc (k : AccKind) (place home : Nat) : Acc := { id := 7, n := 0, kind := k, place := place, home := home, size := 8, data := toBytes 5 8 }

/-- NetworkEvents: an answer with data and one without; an access leaving; accesses at a home of device memory and at one that is
none; a request while the module is off, not ready and ready. -/
theorem witness_network : (let s := { evS c1 { id := 7 } with resps := [{ acc := { acc .load 3 0 with dst := .s 1 false } }] }
     (s.resps.find? (fun r => r.acc.id == 7 && r.acc.returns)).isSome = true) ∧
    (let s := { evS c1 { id := 7 } with resps := [{ acc := acc .store 3 0 }] }
     (s.resps.find? (fun r => r.acc.id == 7 && !r.acc.returns)).isSome = true ∧ s.ev.idx ≠ 1) ∧
    (let s := { evS c1 { id := 7 } with outq := [acc .load 3 0] }
     s.outq.find? (fun a => a.id == 7) = some (acc .load 3 0) ∧ s.net = []) ∧
    (let s := { evS c1 { id := 7 } with net := [acc .store 3 0x20000] }
     s.net.find? (fun a => a.id == 7) = some (acc .store 3 0x20000) ∧ isDevice 0x20000 = true ∧ isDevice 0x20008 = true ∧
       s.mem.wf = true ∧ s.moveFrom 0x20000 = none ∧ (acc .store 3 0x20000).mv = false ∧ (acc .store 3 0x20000).kind = .store) ∧
    (let a := { acc .tchase 3 deviceSize with hops := 3 }
     let s := { evS c1 { id := 7 } with net := [a] }
     s.net.find? (fun a => a.id == 7) = some a ∧ a.place = 3 ∧ isDevice a.home = false ∧ a.kind = .tchase ∧ a.mv = false ∧ a.hops ≤ 3) ∧
    (∀ h ∈ [0, 3], let a := { acc .load 3 0x20008 with mv := true, ea := 0x20008, hops := h }
     let s := { evS c1 { id := 7 } with net := [a] }
     let t := { s with mem := { (s.mem.write 0x20000 (toBytes 0x30000 8)) with marks := [0x20000] } }
     let u := { s with mem := { (s.mem.write 0x20000 (toBytes 0x60000 8)) with marks := [0x20000] } }
     t.net.find? (fun a => a.id == 7) = some a ∧ t.mem.marked a.home = true ∧ t.mem.nat 0x20000 8 = 0x30000 ∧
       (match accessCheck (t.ctx 0).table.core 0 (BitVec.ofNat 64 (0x30000 + 8)) 8 false false with | .inr _ => true | _ => false) = true ∧
       u.mem.nat 0x20000 8 = 0x60000 ∧
       (match accessCheck (u.ctx 0).table.core 0 (BitVec.ofNat 64 (0x60000 + 8)) 8 false false with | .inl _ => true | _ => false) = true) ∧
    (let r : Resp := { acc := { acc .load 3 0 with dst := .s 1 false } }
     let s := (evS { c1 with sa := { pend := [{ dst := 1, due := 12, alts := [{ ref := some 7 }] }] } } { id := 7 }).onCore 0 (fun d =>
       { d with porch := [⟨7, 0, 12, false, false, false, []⟩] })
     r.fault = none ∧ r.acc.hops = 0 ∧ (s.core (coreOf r.acc.n)).porchDead 7 = false ∧ (s.ctx r.acc.n).tagGone r.acc.tag = false ∧
       ∃ x ∈ (s.ctx 0).sa.pend, ∃ al ∈ x.alts, al.ref = some 7) ∧
    isDevice deviceSize = false ∧ isDevice (deviceSize - 1) = true ∧
    (let s := evS c1 { req := { node := 5, len := 8, mv := true } }
     let t := { s with fab := [{ addr := 64 }] }
     let u := { s with mem := { marks := [0] }, mod := { s.mod with stage := 6 } }
     s.mod.power = true ∧ s.mod.stage ≠ 6 ∧ u.mod.stage = 6 ∧ s.ev.req.addr + s.ev.req.len ≤ deviceSize ∧ s.ev.req.kind = 0 ∧ s.ev.idx ≠ 1 ∧
       s.ev.req.node.toNat ≠ s.mod.node.toNat ∧ s.fabricWaits s.ev.req = false ∧ u.fabricWaits s.ev.req = false ∧
       t.fabricWaits s.ev.req = true ∧ s.ev.req.mv = true ∧ s.mem.marked 0 = false ∧ u.mem.marked 0 = true) := by
  decide +kernel

/-- RoutineEvents: a call, a clear and a pack that are at their start; a read of a page that is not there. -/
theorem witness_routines : (runs rout).evRoutine = some rout ∧ rout.op = 0 ∧ rout.idx < 6 ∧
    (runs { rout with op := 1 }).evRoutine = some { rout with op := 1 } ∧
    (match (runs rout).nextPipe { rout with begun := false, mp := [0x40000, 0x40000, 0, 0x01010000, 0x40, 0, 0, 1], idx := 6 } with
      | .page _ _ _ => true | _ => false) = true ∧
    (match ({ runs rout with mem := (runs rout).mem.write 0x10000 [1] }).packPipe { rout with op := 2, pack := 0x20000 } with
      | .ok _ _ _ => true | _ => false) = true := by decide +kernel

/-- RoutineEvents: `load` of one tile and `pack` of one block of 512 bytes in each of 32 rows, at depth 2, all in own scratch. -/
theorem witness_whole :
    (let r := { rout with idx := 6 }
     (runs r).evRoutine = some r ∧ r.op = 0 ∧ r.std = true ∧ (runs r).ev.core = coreOf r.n ∧ r.mt = 1 ∧ r.nt = 1 ∧ r.lda = 0 ∧
       ∀ n ∈ List.range 32, 0x10000 + 4 * n < 2 ^ 48 ∧ (0x10000 + 4 * n) % 4 = 0 ∧
         tLookup ((runs r).ctx 0).table.eng (0x10000 + 4 * n) = some ⟨0x14301, 0⟩) ∧
    (let r := { rout with idx := 7, mp := [0x10000, 0x18000, 0x8000000200, 0x01010000, 0x200, 0, 0, 0x2200] }
     (runs r).evRoutine = some r ∧ r.std = true ∧ r.mt = 1 ∧ r.kTot / 512 = 1 ∧ r.dA = 2 ∧ r.lda = 512 ∧ r.ldb = 128 ∧
       ∀ m ∈ List.range 32, (∀ c ∈ List.range 8, (0x10000 + m * 512 + 64 * c) % 64 = 0 ∧
           tLookup ((runs r).ctx 0).table.eng (0x10000 + m * 512 + 64 * c) = some ⟨0x14301, 0⟩) ∧
         ∀ x ∈ List.range 2, tLookup ((runs r).ctx 0).table.eng (0x18000 + m * 128 + 64 * x + 63) = some ⟨0x14301, 0⟩) ∧
    (⟨0x14301, 0⟩ : TEntry).p = true ∧ (⟨0x14301, 0⟩ : TEntry).w = true ∧ (⟨0x14301, 0⟩ : TEntry).kind = 1 ∧ (⟨0x14301, 0⟩ : TEntry).mv = false := by
  decide +kernel

/-- A command of cluster 0. -/
def copying (c : CopyCmd) (a : EvArg) : State := (evS c1 a).setCluster 0 { queue := [c] }
def cmd : CopyCmd := { id := 7, n := 0, op := 2, dst := 0x20000, src := 0x20100, dims := [{ ext := 1 }], elem := 8 }

/-- EngineEvents: an element that starts, one that traps, one to be read, one to be written and one that waits for its page; tiles that may move
and tiles that may not; a command at each phase, and a marked line. -/
theorem witness_engines : (copying cmd { id := 7 }).copyCmd? 0 7 = some cmd ∧
    (match (copying cmd { id := 7 }).nextElem { cmd with phase := 1, waitF := none } with | .ok _ _ => true | _ => false) = true ∧
    (match (copying cmd { id := 7 }).nextElem { cmd with src := 0x60000, phase := 1, waitF := none } with | .stop _ => true | _ => false) = true ∧
    (match (copying cmd { id := 7 }).nextElem { cmd with src := 0x40000 } with | .page _ _ _ => true | _ => false) = true ∧
    (let f : Flight := { q := 0, home := 0x20000, src := some { home := 0x20100 } }
     let c := { cmd with flight := [f] }
     let s := copying c { id := 7, idx := 1 }
     s.copyCmd? 0 7 = some c ∧ f.src.isSome = true ∧ s.ownHome 0x20100 = 0x20100) ∧
    (let f : Flight := { q := 0, home := 0x20000, bytes := toBytes 5 8 }
     let c := { cmd with flight := [f] }
     (copying c { id := 7, idx := 1 }).copyCmd? 0 7 = some c ∧ f.src = none ∧ c.op ≠ 6 ∧ isDevice 0x20000 = true ∧ isDevice 0x20008 = true) ∧
    (let tab := [(0, (⟨0x24344, 0x20000⟩ : TEntry)), (1, ⟨0x34344, 0x30000⟩)]
     let c : RelocCmd := { id := 7, n := 0, op := 0, src := 0x20000, dst := 0x30000, len := 1, table := tab }
     let s := (evS c1 { id := 7 }).setWing 0 { reloc := [c] }
     s.relocCmd? 0 7 = some c ∧ (match s.tileCheck c with | .ok _ _ => true | _ => false) = true ∧
       (match s.tileCheck { c with table := tbl } with | .code _ => true | _ => false) = true ∧
       (evS { c1 with table := { core := tab, eng := tab } } {}).mayTake 0x20000 0x30000 0x30000 = true ∧ ({ s with mem := { poison := [0x30000] } } : State).mayTake 0x20000 0x30000 0x30000 = false ∧
       (let d := { c with n := firmwareN }
        ((evS c1 { id := 7 }).setWing 0 { reloc := [d] }).relocCmd? 0 7 = some d ∧ c.n ≠ firmwareN) ∧
       tLookup tab 0x20000 = some ⟨0x24344, 0x20000⟩ ∧ (⟨0x24344, 0x20000⟩ : TEntry).mv = true ∧ (⟨0x24344, 0x20000⟩ : TEntry).kind = 4 ∧
       ({ s.mem with marks := [0x20000] } : Mem).marked 0x20000 = true) := by decide +kernel

/-- TileMoved: whole tiles of device memory, apart, in each of the three phases, with no writes queued. -/
theorem witness_tile : ∀ p ∈ [3, 4, 5],
    (let c : RelocCmd := {
      id := 7, n := 0, op := 0, src := 0x20000, dst := 0x30000, len := 1, phase := p, srcH := 0x20000, dstH := 0x30000 }
    let s := (evS c1 { id := 7 }).setWing 0 { reloc := [c] }
    movesTile s c ∧ c.phase = p ∧ c.stores = [] ∧ s.MemInv) := by
  unfold movesTile State.MemInv; decide +kernel

/-- LinkEvents: a flit that comes before READY; a send one of whose flits is poisoned, and one of whose destinations is no scratchpad. -/
theorem witness_flitsTaken :
    (let s := evS c1 { id := 5 }
     s.ev.flit.send = none ∧ s.mod.power = true ∧ s.mod.stage ≠ 6 ∧ s.ev.id ≠ s.mod.node.toNat) ∧
    (let s : State := { at0 c1 with mem := { poison := [scratchHome 0 0] } }
     (s.badAt (s.ownHome (scratchHome 0 0)) 64).any (fun b => b) = true) ∧
    (let y : Tgt := { place := 4, home := nodeHome 9 64 }
     [(y, 0)].find? (fun y => !(at0 c1).flitPlace y.1) = some (y, 0)) := by decide +kernel

/-- LinkEvents: a flit whose slot's owner is here; a send to a scratchpad of another node and one that leads elsewhere; a send whose
flits are written; a reduction whose flits are there. -/
theorem witness_linkEvents :
    (let s := evS c1 { flit := { core := 0, slot := 3, bytes := toBytes 5 64 } }
     s.ev.flit.send = none ∧ s.ev.flit.core < 96 ∧ s.inRange (scratchHome 0 63) = true ∧ s.flitAway s.ev.flit (s.ev.idx == 1) = false) ∧
    (let c : LinkCmd := { id := 7, n := 0, op := 0, src := 0x10000, dst := 0x50000, flits := 1 }
     let s := (evS c1 { id := 7 }).setWing 0 { link := [c] }
     s.linkCmd? 0 7 = some c ∧ (match s.flitWays c false c.src 1 with | .ok xs => xs.all (fun x => !(s.badAt (s.ownHome x.1.home) 64).any (fun b => b)) | _ => false) = true ∧
       (match s.flitWays c true c.dst 1 with | .ok l => l.length == 1 | _ => false) = true) ∧
    (let c : LinkCmd := { id := 7, n := 0, op := 0, gone := true }
     let s := (evS c1 { id := 7 }).setWing 0 { link := [c] }
     s.linkCmd? 0 7 = some c ∧ c.gone = true ∧ c.sent = [] ∧ (0 : Nat) = wingOf c.n) := by decide +kernel

/-- A module with a launch that waits, one that runs, and an activation. -/
def launched (k : Kernel) (a : EvArg) : State :=
  let s := evS c1 a
  { s with mod := { s.mod with kernels := [(1, k)], acts := [{ node := 0x20000, prio := 1 }], head := 3 } }

/-- RingEvents, KernelEvents, NodeActivations: a backlog at the size of the ring and one beyond it; a record that is no newer, and
one that is and is bad; kernels in each state; a node whose STATE says that it runs, and one at rest. -/
theorem witness_launch :
    (let s := launched { record := 0x30000 } { addr := 0x30000, id := 1, v := 19 }
     ((s.ev.v.setWidth 32 : BitVec 32) - s.mod.head).toNat ≤ 2 ^ (s.mod.ring.toNat % 64) ∧
       2 ^ (s.mod.ring.toNat % 64) < ((20 : BitVec 32) - s.mod.head).toNat ∧ s.ev.idx ≠ 1 ∧ wordAt s 0x30000 ≤ s.mod.seqTop.toNat ∧
       s.mod.kernels.find? (fun e => e.2.record == s.ev.addr) = some (1, { record := 0x30000 }) ∧ s.mem.wf = true ∧
       s.mod.kernels.find? (fun x => x.1 == s.ev.id) = some (1, { record := 0x30000 }) ∧ s.recNarg 0x30000 ≤ 16 ∧ s.recPrio 0x30000 ≠ 3 ∧
       s.mod.acts = [{ node := 0x20000, prio := 1 }] ∧ wordAt s 0x20008 < 2 ^ 63 ∧
       ({ s with mem := s.mem.write 0x3002C [3] } : State).recPrio 0x30000 = 3) ∧
    (let s := launched { record := 0 } { addr := 0x30000 }
     let t := { s with mem := s.mem.write 0x30000 [1] }
     t.mod.seqTop.toNat < wordAt t 0x30000 ∧ t.launchCheck 0x30000 ≠ 0 ∧ t.mod.kernels.find? (fun e => e.2.record == t.ev.addr) = none) ∧
    (let s := launched { record := 0, state := .running } {}
     let t := { s with mem := s.mem.write 0x2000F [0x80] }
     2 ^ 63 ≤ wordAt t 0x20008) ∧
    (({ record := 0, dying := some 1, retry := 1 } : Kernel).reruns < ({ record := 0, retry := 1 } : Kernel).retry) := by decide +kernel

/-- KernelEvents, RingEvents: a launch that waits with and without a preload on its core; a bad activation of a kernel that runs, and of
one that has retired. -/
theorem witness_preload :
    (let k : Kernel := { record := 0x30000 }
     let s := launched k { id := 1 }
     let t := { s with mem := ((((s.mem.write 0x3000A [4]).write 0x40006 [1]).write 0x40040 [7]).write 0x40048 [128]).write 0x4004C [8] }
     k.state = .waiting ∧ k.preOn = [] ∧ ({ k with places := [0] } : Kernel).places = [0] ∧ (∀ e ∈ t.mod.kernels, coreOf 0 ∉ e.2.preOn) ∧ t.recNarg 0x30000 ≤ 16 ∧
       t.places 0x30000 = [(0, 0, 0)]) ∧
    (let k : Kernel := { record := 0x30000, pre := true, preOn := [0] }
     k.state = .waiting ∧ k.pre = true ∧ coreOf 1 ∈ k.preOn) ∧
    (let s := launched { record := 0x30000 } {}
     let t := { s with mod := { s.mod with acts := [{ node := 5, prio := 0, by' := some 1 }] } }
     t.mod.acts = [{ node := 5, prio := 0, by' := some 1 }] ∧ t.mod.kernels.any (fun e => e.1 == 1) = true) ∧
    (let s := launched { record := 0x30000 } {}
     s.mod.kernels.any (fun e => e.1 == 2) = false ∧ s.MemInv) := by unfold State.MemInv; decide +kernel

/-- BringUp, ServiceActions: each stage, and each action in progress, at the edge of its target's range. -/
theorem witness_service :
    (let s : State := { State.reset with mod := { stage := 2 } }; s.imageErr ≠ 0 ∧ s.mod.stage = 2) ∧
    (let m : Module := { stage := 6, svc := { busy := true, act := 3, tgt := 23 }, phys := [(23, (6, true))] }
     let s : State := { State.reset with mod := m, ev := { v := 1 } }
     s.mod.svc.busy = true ∧ s.mod.svc.act = 3 ∧ s.mod.svc.tgt.toNat < 24 ∧ s.spareOf 23 = none ∧ s.ev.v = 1 ∧ s.mod.stage = 6) ∧
    (let ph : TMap (BitVec 3 × Bool) := (upTo 0 24).map (fun c => (c, (BitVec.ofNat 3 (c % 6), false)))
     let s : State := { State.reset with mod := { stage := 6, svc := { busy := true, act := 3, tgt := 5 }, phys := ph } }
     s.spareOf 5 = some 6 ∧ s.clusterFree 5 = true) ∧
    (let s : State := { State.reset with mod := { svc := { busy := true, act := 4, tgt := 383 } } }
     s.mod.svc.tgt.toNat < 384 ∧ s.mod.svc.moves = false ∧ s.mod.svc.rest = [] ∧ s.movesDone = true ∧ s.fixedInUse 383 = false) ∧
    (({ busy := true, act := 4, tgt := 383, moves := true } : Service).moves = true) ∧
    (let s : State := { State.reset with mod := { stage := 6, staged := [1], svc := { busy := true, act := 1, tgt := 1 } } }
     s.mod.svc.act = 1 ∧ 1 ∈ s.mod.staged ∧ s.mod.svc.tgt.toNat < 2 ∧ s.mod.svc.tgt.toNat ≠ s.mod.slot.toNat ∧ (2 : BitVec 48).toNat = 2) ∧
    (let s : State := { State.reset with mod := { svc := { busy := true, act := 2, tgt := 0x20000 }, attest := true } }
     s.mod.svc.tgt.toNat + 64 < deviceSize ∧ s.mem.wf = true ∧ s.mod.attest = true ∧
       s.drawn.installCode s.mod.svc.tgt.toNat (s.free.toNat % 256) (upTo 0 48) ≠ 0) := by decide +kernel

/-- ServiceActions: a channel of which no tile is left; one that still moves some. -/
theorem witness_drain : State.reset.tilesLeft 383 = [] ∧
    (let s := State.reset.setWing 0 { reloc := [{ id := 1, n := firmwareN, op := 0 }] }; s.movesDone = false) := by
  constructor
  · simp [State.tilesLeft, State.movableVa, State.reset]
  · decide +kernel

/-- EncodingRoundTrip: a well-formed operation of every slot with its extension word. -/
theorem witness_encoding : [Instr.li { ext := true, g := 4 } { d := 9, imm32 := 0x12345678 }, .br {} { disp := 4 },
    .ldt { ext := true, arr := true, bn := 9 } { d := 6, base := 3, size := 3, lof := 400, off := 2 }, .vfma { ext := true } { w := 2, c := 3 },
    .mcall {} { fi := true }, .tmove {} { d := 3 }, .ntopV {} { sub := 2 }].all (fun i => i.wf && (encode i).isSome) = true := by decide +kernel

/-- One step of the state that `withFetchWord` makes, from the word of `sub s3, s1, s2` (R49's fields under R77's operation code
0x02): the machine fetches it, its result is on its way to `s3`, and the next bundle is the next one in memory. -/
theorem test_step_sub : (match step (State.reset.withFetchWord 32 0x0400C108) with
    | .next t => (t.ctx 0).sa.pend.map (fun x => x.dst) == [3] && decide ((t.ctx 0).pc = fetchPlace + 6)
    | _ => false) = true := by decide +kernel

/-- A context at the merge stage with the `div s7, s5, s6` of R87: StepRunsTheOperation. -/
def staged : State :=
  let o : RawOp := { slot := 1, w0 := 0x0C01C518, dec := decodeOp .s 0x0C01C518 0 }
  let b : GBundle := { addr := 0x1000, len := 6, hdr := { stop := true, p := 0x40 }, ops := [o] }
  { at0 { c1 with group := [b], sa := put [(5, 1000), (6, -7)] } with turns := [0] }
theorem witness_step : (match (staged.ctx 0).group with
    | [b] => (match staged.jobs 0 b with
      | [j] => j.n == 0 && j.i == .div {} { d := 7, a := 5, b := 6 } && staged.ready 0 && staged.membersOf 0 == [0] &&
          (staged.ctx 0).trapP.isNone && !(staged.ctx 0).swOut && !staged.stopsHere 0 && !staged.unitHold 0 0 &&
          (match exec j.i (atJob { staged with turns := [] } 0 b j) with
            | .next t => t.latch.stat == .go &&
              !(((State.settleB { staged with turns := [] } (t.headDone { staged with turns := [] } 0 b [j]) 0).ctx 0).group.head?.any
                (fun x => x.early))
            | _ => false) && !staged.interlocked 0 [j] && !staged.collides [j] && !b.ops.isEmpty && b.names.isNone && staged.todo.isEmpty
      | _ => false)
    | _ => false) = true := by decide +kernel

/-! ### Results that the manual works out -/

/-- Runs one operation on `s1 = x`, `s2 = y`, `s3 = z` and answers what is on its way to a scalar register. -/
def result (x y z : Word) (i : Instr) : List (Nat × Nat × List Word) :=
  match exec i (at0 { c1 with sa := put [(1, x), (2, y), (3, z)] }) with
  | .next t => t.cur.sa.pend.map (fun p => (p.dst, p.due - 10, p.alts.map (fun a => a.val.v)))
  | _ => []

/-- R88: 1000 divided by -7 is -142 after 20 counts, with remainder 6; -142 times -7 is 994 after 3. -/
theorem test_division : result 1000 (-7) 0 (.div {} { d := 4, a := 1, b := 2 }) = [(4, 20, [-142])] ∧
    result 1000 (-7) 0 (.rem {} { d := 5, a := 1, b := 2 }) = [(5, 20, [6])] ∧
    result (-142) (-7) 0 (.mul {} { d := 6, a := 1, b := 2 }) = [(6, 3, [994])] := by decide +kernel

/-- R81: the most negative number by -1; R76: wrapping; R77: shifts by 64 are shifts by 0; R80: `sel`. -/
theorem test_scalar_corners : result 0x8000000000000000 (-1) 0 (.div {} { d := 4, a := 1, b := 2 }) = [(4, 34, [0x8000000000000000])] ∧
    result 0x8000000000000000 (-1) 0 (.rem {} { d := 4, a := 1, b := 2 }) = [(4, 34, [0])] ∧
    result 0xFFFFFFFFFFFFFFFF 1 0 (.add {} { d := 4, a := 1, b := 2 }) = [(4, 1, [0])] ∧
    result 5 64 0 (.shl {} { d := 4, a := 1, b := 2 }) = [(4, 1, [5])] ∧
    result 5 7 0 (.sel { ext := true } { d := 4, a := 1, b := 2, c := 3 }) = [(4, 1, [7])] ∧
    result 5 7 1 (.sel { ext := true } { d := 4, a := 1, b := 2, c := 3 }) = [(4, 1, [5])] := by decide +kernel

/-- R13, R75: a result for `s0` is discarded. -/
theorem test_s0 : result 5 7 0 (.add {} { d := 0, a := 1, b := 2 }) = [] := by decide +kernel

/-- R364, R366: the header of the manual's example; a reader that starts behind offset 0 finds the record at 32 and takes no other. -/
theorem test_trace_reader : traceHdr 1 0 3 10 0x2E = [0xC3, 0xA5, 0x00, 0x14, 0x03, 0x00, 0x05, 0x2E] ∧
    (let w : Wing := { tsb := 12, tsw := 96 }
     ({ State.reset with wings := [(0, w)], mem := State.reset.mem.write 32 (traceHdr 1 0 3 10 0x2E) } : State).traceReader 0 5) = [32] := by
  decide +kernel

/-- R397: the portable form of `ld.w s4, [a1]` and `add s5, s4, s2`, with the bytes that the manual writes out. -/
def kpfBody : List Byte := [2, 0, 0, 0, 0, 0, 0, 0, 0, 0, 0, 0, 0, 0, 0, 0,
  0, 0, 0, 0, 0x20, 0x04, 0x01, 0x02, 0, 0, 0, 0, 0, 0, 0, 0, 0x08, 0x44, 0x01, 0x02, 0, 0, 0, 0, 0, 0, 0, 0, 0, 0, 0, 0]
theorem test_kpf : (kzxl kpfBody [0, 0]).map nativeBody = some [0x20, 0x20, 0x20, 0x04, 0x01, 0x02, 0x40, 0x20, 0x08, 0x44, 0x01, 0x02] ∧
    kzxl kpfBody [0, 8] = none := by decide +kernel

end Sys2Proof.Tests
end

section
/-! PROOFS. Special registers (R4 to R7, R338 to R341): what `csrr` and `csrw` do, and what a write leaves as it falls due. -/

namespace Sys2Proof.Machine

open Sys2Proof.Claims

/-! ### An operation of a member of a carry round -/

theorem State.underLit_unaccepted {s : State} {id : Nat} (h : unaccepted s id) (f : State) :
    s.underLit f = s.stat (.stall [id]) := by
  unfold State.underLit; rw [show s.cur.carryTag = [⟨id, true⟩] from h]

theorem State.underLit_accepted {s : State} (h : s.cur.carryTag = []) (f : State) : s.underLit f = f := by
  unfold State.underLit; rw [h]

/-! ### Reads -/

theorem State.csrClear_other (s : State) (n : Nat) {num : Nat} (h6 : num ≠ 0x006) (hB : num ≠ 0x00B) (h81 : num ≠ 0x081) :
    s.csrClear n num = s := by
  unfold State.csrClear
  split
  · exact absurd rfl h6
  · exact absurd rfl hB
  · exact absurd rfl h81
  · rfl

/-- What a read clears is one RC field: memory, the operation being run, its registers and the fresh names stay. -/
theorem State.csrClear_keeps (s : State) (num : Nat) :
    let t := s.csrClear s.latch.n num
    t.mem = s.mem ∧ t.latch = s.latch ∧ t.uid = s.uid ∧ t.cores = s.cores ∧ t.cur.sa = s.cur.sa := by
  unfold State.csrClear
  split
  · exact ⟨rfl, rfl, rfl, rfl, by simp [State.cur]⟩
  · exact ⟨rfl, rfl, rfl, rfl, by simp [State.cur]⟩
  · exact ⟨rfl, rfl, rfl, rfl, rfl⟩
  · exact ⟨rfl, rfl, rfl, rfl, rfl⟩

/-- A result depends on the operation being run, its core and the fresh name alone. -/
theorem State.result_congr {w p : Nat} {s t : State} (hl : t.latch = s.latch) (hu : t.uid = s.uid) (hc : t.cores = s.cores)
    (r lat : Nat) (v : Val w p) : t.result r lat v = s.result r lat v := by
  simp only [State.result, State.readyAt, State.core, hl, hu, hc]

/-- The context after a read: the cleared one with the register's value on its way. -/
theorem State.csrClear_deliverS (s : State) (num r : Nat) (v : SVal) :
    let t := s.csrClear s.latch.n num
    t.Becomes (t.deliverS {} r 1 [([], v)]) { t.cur with sa := (given s r 1 v).sa } := by
  obtain ⟨-, hl, hu, hc, hsa⟩ := s.csrClear_keeps num
  have h := (s.csrClear s.latch.n num).deliverS_becomes r 1 v
  rwa [State.result_congr hl hu hc, hsa] at h

/-- `csrr` whose guard is settled: it waits for the literal of an unaccepted member, else delivers and clears (R341). -/
theorem exec_csrr {s : State} {h : Hdr} (o : CIOp) (hs : s.Settled h) :
    exec (.csrr h o) s = .next (s.underLit ((s.csrClear s.latch.n (ciVal h o).toNat).deliverS {} o.d.toNat 1
      [([], clean (s.csrRead s.latch.n (ciVal h o).toNat s.latch.ic))])) :=
  congrArg Host.Outcome.next (hs.waiting [] _ rfl)

/-- R4, R6, R341: `csrr`. -/
theorem specialRegisterReads : SpecialRegisterReads := by
  intro h s o hs num
  refine ⟨fun id hid => by rw [exec_csrr o hs, State.underLit_unaccepted hid], fun hc => ?_⟩
  obtain ⟨hmem, -, -, -, -⟩ := s.csrClear_keeps num
  have hb := s.csrClear_deliverS num o.d.toNat (clean (s.csrRead s.latch.n num s.latch.ic))
  refine ⟨_, by rw [exec_csrr o hs, State.underLit_accepted hc], ?_, by rw [hb.cur], ?_, ?_, ?_, ?_⟩
  · rw [hb.1]; exact hmem
  · intro h6; rw [hb.cur, h6]; simp [State.csrClear, State.cur]
  · intro hB; rw [hb.cur, hB]; simp [State.csrClear, State.cur]
  · intro h81; rw [hb.1, h81]; rfl
  · intro h6 hB h81
    rwa [s.csrClear_other _ h6 hB h81] at hb ⊢

/-! ### Writes -/

/-- `csrw` of a clean source: an unprivileged write of a privileged register traps, and so does an illegal value (R5, R7). -/
theorem exec_csrw {s : State} {h : Hdr} {o : CIOp} {v : Word} {num : Nat} (hn : (ciVal h o).toNat = num) (hs : s.Settled h)
    (hv : s.SIs o.d.toNat (clean v)) :
    exec (.csrw h o) s = .next (
      if csrPriv num && !s.cur.lvl then (if csrSets num v then s.illegal else s.stat (.trap (s.privTrap num)))
      else if csrSets num v || csrBad num v then s.illegal else s.csrPut num v) := by
  have hone : manyAlts [[(([] : Tag), (clean v : SVal))]] = none := rfl
  have hv : s.sSrc o.d.toNat = [([], clean v)] := hv
  show execCsrw h o s = _
  unfold execCsrw
  simp only [hn, hv, State.csrwStops, hs.waiting _ _ hone, hone]
  split <;> simp [one, clean, State.useTrap]

theorem State.csrPut_wide (s : State) {num : Nat} (v : Word) (h : wideRegister num) :
    s.csrPut num v = { s with csrLate := s.csrLate ++ [(s.latch.n, num, v)] } := by
  have h : 0x040 ≤ num := h
  unfold State.csrPut
  split
  · omega
  · omega
  · omega
  · simp [csrWide, h]

theorem State.csrPut_context (s : State) {num : Nat} (v : Word) (h3 : 3 ≤ num) (h : num < 0x040) :
    s.csrPut num v = s.onCur (fun c => { c with csrPend := csrIns (s.latch.ic + 1, num, v) c.csrPend }) := by
  unfold State.csrPut
  split
  · omega
  · omega
  · omega
  · simp [csrWide, Nat.not_le.mpr h]

/-- A write waits in its own list: memory and the registers of the context stay. -/
theorem State.csrPut_keeps (s : State) (num : Nat) (v : Word) :
    (s.csrPut num v).mem = s.mem ∧ (s.csrPut num v).cur.sa = s.cur.sa ∧ (s.csrPut num v).cur.v = s.cur.v := by
  unfold State.csrPut
  split
  · simp
  · simp
  · simp
  · split
    · exact ⟨rfl, rfl, rfl⟩
    · simp

/-- The low bits of a word. -/
theorem bits_zero {w : Nat} (v : BitVec w) (n : Nat) : bits v 0 n = v.setWidth n := by
  ext i hi; simp [bits]

/-- R5, R7, R341: `csrw`. -/
theorem specialRegisterWrites : SpecialRegisterWrites := by
  intro h s o v hs hv num
  have hx := exec_csrw (num := num) rfl hs hv
  refine ⟨fun hr => ?_, fun hr hp hl => ?_, fun hr hp hb => ?_⟩
  · have hset : csrSets num v = true := decide_eq_true hr
    refine ⟨s.illegalRec, rfl, ?_⟩
    rw [hx, hset, if_pos rfl, Bool.true_or, if_pos rfl, ite_self]; rfl
  · have hset : csrSets num v = false := by simp [csrSets, hr]
    refine ⟨s.privTrap num, rfl, rfl, ?_⟩
    rw [hx, hp, hl, hset]; rfl
  · have hset : csrSets num v = false := by simp [csrSets, hr]
    have hpass : (csrPriv num && !s.cur.lvl) = false := by
      cases hq : csrPriv num with
      | false => rfl
      | true => rw [hp hq]; rfl
    obtain ⟨hmem, hsa, hvec⟩ := s.csrPut_keeps num v
    refine ⟨s.csrPut num v, ?_, hmem, hsa, hvec, ?_, ?_, ?_, ?_, s.csrPut_wide v⟩
    · rw [hx, hpass, hset, hb]; rfl
    · intro h0; rw [h0]; simp [State.csrPut, bits_zero]
    · intro h1; rw [h1]; simp [State.csrPut, bits_zero]
    · intro h2; rw [h2]; simp [State.csrPut, bits_zero]
    · intro h3 h40; rw [s.csrPut_context v h3 h40]; simp

/-! ### What a write of a context's register leaves when it is due -/

/-- The results of a context due by count `t`, but for its writes of special registers, its first events and its sort unit. -/
def Ctx.landResults (c : Ctx) (t : Nat) : Ctx :=
  { c with
    sa := c.sa.commit t, v := c.v.commit t,
    g := laterCommit c.g c.gpend t, gpend := laterRest c.gpend t,
    mp := laterCommit c.mp c.mpPend t, mpPend := laterRest c.mpPend t,
    xs := laterCommit c.xs c.xsPend t, xsPend := laterRest c.xsPend t,
    fmt := c.fmtAt t, fmtPend := laterRest c.fmtPend t,
    ql := laterCommit c.ql c.qlPend t, qlPend := laterRest c.qlPend t }

theorem Ctx.commit_eq (c : Ctx) (t : Nat) :
    c.commit t = ((({ c with csrPend := c.csrPend.filter (fun x => !decide (x.1 ≤ t)) }).commitCsr
      (c.csrPend.filter (fun x => decide (x.1 ≤ t)))).commitSets t).landResults t := rfl

theorem Ctx.felCommit_none {c : Ctx} (hf : c.felPend = []) (t : Nat) : c.felCommit t = c := by
  unfold Ctx.felCommit
  rw [hf]
  show { c with felPend := [] } = c
  rw [← hf]

theorem Ctx.nAt_none {c : Ctx} (hn : c.npend = []) (t : Nat) : c.nAt t = c.nunit := by
  unfold Ctx.nAt; rw [hn]; rfl

/-- Without a first event and a change of the sort unit on their way, the hardware sets nothing. -/
theorem Ctx.commitSets_none {c : Ctx} (hf : c.felPend = []) (hn : c.npend = []) (t : Nat) : c.commitSets t = c := by
  unfold Ctx.commitSets
  rw [Ctx.felCommit_none hf]
  simp only [Ctx.nAt_none hn]
  rw [hn]
  show { c with npend := [] } = c
  rw [← hn]

/-- A write leaves what is on its way to the first-event log and to the sort unit. -/
theorem Ctx.csrApply_keeps (c : Ctx) (num : Nat) (v : Word) :
    (c.csrApply num v).felPend = c.felPend ∧ (c.csrApply num v).npend = c.npend := by
  unfold Ctx.csrApply
  split
  all_goals repeat' split
  all_goals exact ⟨rfl, rfl⟩

/-- Without pending writes of special registers, only results land. -/
theorem Ctx.commit_quiet {c : Ctx} (hf : c.felPend = []) (hn : c.npend = []) (t : Nat) :
    ({ c with csrPend := [] } : Ctx).commit t = ({ c with csrPend := [] } : Ctx).landResults t := by
  rw [Ctx.commit_eq]
  exact congrArg (fun x => Ctx.landResults x t) (Ctx.commitSets_none (c := { c with csrPend := [] }) hf hn t)

/-- One pending write that is due: it is applied, and results land. -/
theorem Ctx.commit_write {c : Ctx} {t num : Nat} {v : Word} (hc : c.csrPend = [(t, num, v)]) (hf : c.felPend = [])
    (hn : c.npend = []) : c.commit t = (({ c with csrPend := [] } : Ctx).csrApply num v).landResults t := by
  rw [Ctx.commit_eq, hc]
  simp only [List.filter, le_refl, decide_true, Bool.not_true, Ctx.commitCsr]
  obtain ⟨hf', hn'⟩ := Ctx.csrApply_keeps { c with csrPend := [] } num v
  rw [Ctx.commitSets_none (c := { c with csrPend := [] }) hf hn, Ctx.commitSets_none (hf'.trans hf) (hn'.trans hn)]

/-- A value that sets none of the reserved bits stands whole in the others (R5). -/
theorem and_not_of_and_eq_zero {w : Nat} {v r : BitVec w} (h : v &&& r = 0) : v &&& ~~~r = v := by
  ext i hi
  have hbit : (v[i] && r[i]) = false := by simpa using congrArg (fun x => x[i]) h
  rw [BitVec.getElem_and, BitVec.getElem_not]
  revert hbit
  cases v[i] <;> cases r[i] <;> decide

/-! One equation for each register that a legal write changes (R339). -/

theorem Ctx.csrApply_soor (c : Ctx) (v : Word) : c.csrApply 0x004 v =
    if v.getLsbD 63 && !c.hw.contains 0x004 then { c with soor := 0, soorx := 0 } else c := rfl

theorem Ctx.csrApply_nctl (c : Ctx) (v : Word) : c.csrApply 0x00A v =
    { c with nunit := { c.nunit with ovf := c.nunit.ovf && !v.getLsbD 62 } } := by
  show (if v.getLsbD 62 then _ else c) = _
  cases v.getLsbD 62 <;> simp

theorem Ctx.csrApply_tvec {v : Word} (h : v &&& csrReserved 0x00D = 0) (c : Ctx) : c.csrApply 0x00D v = { c with tvec := v } :=
  congrArg (fun x => { c with tvec := x }) (and_not_of_and_eq_zero (r := 0xFFFF000000000001) h)

theorem Ctx.csrApply_tfa {v : Word} (h : v &&& csrReserved 0x00E = 0) (c : Ctx) : c.csrApply 0x00E v = { c with tfa := v } :=
  congrArg (fun x => { c with tfa := x }) (and_not_of_and_eq_zero (r := 0xFFFF00000000007F) h)

theorem Ctx.csrApply_save (c : Ctx) (v : Word) {i : Nat} (hi : i < 6) : c.csrApply (0x011 + i) v =
    if c.lscs.toNat ≤ 20 then { c with lsc := mput c.lsc (32 * i + c.lscs.toNat) v } else c := by
  have hx : (if 0x011 ≤ 0x011 + i ∧ 0x011 + i ≤ 0x016 ∧ c.lscs.toNat ≤ 20 then
        { c with lsc := mput c.lsc (32 * (0x011 + i - 0x11) + c.lscs.toNat) v } else c) =
      if c.lscs.toNat ≤ 20 then { c with lsc := mput c.lsc (32 * i + c.lscs.toNat) v } else c := by
    rw [Nat.add_sub_cancel_left]
    exact if_congr ⟨fun h => h.2.2, fun h => ⟨by omega, by omega, h⟩⟩ rfl rfl
  rw [← hx]
  interval_cases i <;> rfl

theorem Ctx.csrApply_break {v : Word} {i : Nat} (hi : i < 4) (h : v &&& csrReserved (0x01B + i) = 0) (c : Ctx) :
    c.csrApply (0x01B + i) v = { c with bka := mput c.bka i v } := by
  have hx : c.csrApply (0x01B + i) v = { c with bka := mput c.bka i (v &&& 0x8000FFFFFFFFFFFE) } := by
    interval_cases i <;> rfl
  have hr : csrReserved (0x01B + i) = 0x7FFF000000000001 := by interval_cases i <;> rfl
  have hv : v &&& 0x8000FFFFFFFFFFFE = v := and_not_of_and_eq_zero (r := 0x7FFF000000000001) (hr ▸ h)
  rw [hx, hv]

theorem Ctx.csrApply_watch {v : Word} {i : Nat} (hi : i < 2) (h : v &&& csrReserved (0x01F + i) = 0) (c : Ctx) :
    c.csrApply (0x01F + i) v = { c with wpt := mput c.wpt i v } := by
  have hx : c.csrApply (0x01F + i) v = { c with wpt := mput c.wpt i (v &&& 0xFFC0FFFFFFFFFFFF) } := by
    interval_cases i <;> rfl
  have hr : csrReserved (0x01F + i) = 0x003F000000000000 := by interval_cases i <;> rfl
  have hv : v &&& 0xFFC0FFFFFFFFFFFF = v := and_not_of_and_eq_zero (r := 0x003F000000000000) (hr ▸ h)
  rw [hx, hv]

/-- Registers without a field that a write of the context's own changes. -/
theorem Ctx.csrApply_readOnly (c : Ctx) (v : Word) {num : Nat}
    (h : num ∈ [0x005, 0x008, 0x009, 0x00B, 0x00C, 0x00F, 0x017, 0x018, 0x019]) :
    c.csrApply num v = c := by
  simp only [List.mem_cons, List.not_mem_nil, or_false] at h
  rcases h with rfl | rfl | rfl | rfl | rfl | rfl | rfl | rfl | rfl <;> rfl

/-! ### `FEL` and `DBG`: fields of both kinds -/

/-- Bits of a mask choose between two words. -/
theorem getLsbD_masked {x y m k : Word} {p : Nat → Bool} (hm : ∀ i, i < 64 → m.getLsbD i = !p i)
    (hk : ∀ i, i < 64 → k.getLsbD i = p i) {i : Nat} (hi : i < 64) :
    ((x &&& m) ||| (y &&& k)).getLsbD i = if p i then y.getLsbD i else x.getLsbD i := by
  rw [BitVec.getLsbD_or, BitVec.getLsbD_and, BitVec.getLsbD_and, hm i hi, hk i hi]
  cases p i <;> simp

/-- The bits of `FEL` that name the kinds to be recorded (R72). -/
def felKinds (i : Nat) : Bool := decide (58 ≤ i ∧ i < 63)

/-- `FEL` with the kinds of a written value. -/
def felWith (fel v : Word) : Word := (fel &&& 0x83FFFFFFFFFFFFFF) ||| (v &&& 0x7C00000000000000)

theorem getLsbD_felMask {i : Nat} (hi : i < 64) : (0x7C00000000000000 : Word).getLsbD i = felKinds i := by
  have h : ∀ i, i < 64 → (0x7C00000000000000 : Word).getLsbD i = felKinds i := by decide
  exact h i hi

theorem getLsbD_felWith (fel v : Word) {i : Nat} (hi : i < 64) :
    (felWith fel v).getLsbD i = if felKinds i then v.getLsbD i else fel.getLsbD i :=
  getLsbD_masked (by decide) (fun _ => getLsbD_felMask) hi

/-- The kinds that `FEL` records are written; a 1 in bit 63 clears the other fields (R4, R72). -/
theorem Ctx.csrApply_fel (c : Ctx) (v : Word) : ∃ f k, c.csrApply 0x003 v = { c with fel := f, felKey := k } ∧
    ∀ i, i < 64 → f.getLsbD i = if 58 ≤ i ∧ i < 63 then v.getLsbD i else c.fel.getLsbD i && !v.getLsbD 63 := by
  have happly : c.csrApply 0x003 v = if v.getLsbD 63 then
      { c with fel := felWith c.fel v &&& 0x7C00000000000000, felKey := (0, 0, 0) } else { c with fel := felWith c.fel v } := rfl
  rw [happly]
  cases v.getLsbD 63 with
  | true =>
    refine ⟨_, _, rfl, fun i hi => ?_⟩
    rw [BitVec.getLsbD_and, getLsbD_felWith _ _ hi, getLsbD_felMask hi]
    by_cases h : 58 ≤ i ∧ i < 63
    · simp [felKinds, h]
    · rw [if_neg h, show felKinds i = false from decide_eq_false h]
      simp
  | false =>
    refine ⟨_, c.felKey, rfl, fun i hi => ?_⟩
    rw [getLsbD_felWith _ _ hi]
    simp [felKinds]

/-- The two enables of `DBG` are written (R360). -/
theorem Ctx.csrApply_dbg (c : Ctx) (v : Word) : ∃ d, c.csrApply 0x01A v = { c with dbg := d } ∧
    ∀ i, i < 64 → d.getLsbD i = if 62 ≤ i then v.getLsbD i else c.dbg.getLsbD i := by
  refine ⟨(c.dbg &&& 0x3FFFFFFFFFFFFFFF) ||| (v &&& 0xC000000000000000), rfl, fun i hi => ?_⟩
  rw [getLsbD_masked (p := fun i => decide (62 ≤ i)) (by decide) (by decide) hi]
  simp

/-- An overrun that a due `csrw` clears: of the machine that the context leads, where the hardware sets none in this cycle (R6, R357). -/
theorem State.dogClear_leader {s : State} {n t : Nat} {v : Word} (hc : (s.ctx n).csrPend = [(t, 0x018, v)]) (hn : s.leadN n = n) :
    (s.dogClear n t).ctx n =
      { s.ctx n with ovr := (s.ctx n).ovr && (!v.getLsbD 63 || (s.ctx n).hw.contains 0x018) } := by
  have hd : (s.ctx n).dogClears t = v.getLsbD 63 := by simp [Ctx.dogClears, hc, bit]
  unfold State.dogClear
  rw [hd, hn]
  cases v.getLsbD 63 with
  | false => simp
  | true =>
    rw [if_pos rfl, State.ctx_onCtx_same]
    cases (s.ctx n).hw.contains 0x018 <;> simp

/-- R4, R6, R341: a due write, by the equation of its register. -/
theorem specialRegisterDue : SpecialRegisterDue := by
  intro s n t num v c hr hc hf hn b d clears
  have hb : b = ({ c with csrPend := [] } : Ctx).landResults t := Ctx.commit_quiet hf hn t
  have hd : d = (({ c with csrPend := [] } : Ctx).csrApply num v).landResults t := Ctx.commit_write hc hf hn
  rw [hb]
  refine ⟨?_, ?_, ?_, ?_, ?_, ?_, ?_, ?_, ?_, ?_, ?_, ?_, ?_, ?_⟩
  · rintro rfl
    obtain ⟨f, k, he, hbits⟩ := Ctx.csrApply_fel { c with csrPend := [] } v
    rw [hd, he]
    exact ⟨rfl, hbits⟩
  · rintro rfl
    rw [hd, Ctx.csrApply_soor]
    exact apply_ite (fun x => Ctx.landResults x t) _ _ _
  · rintro rfl; rw [hd]; rfl
  · rintro rfl; rw [hd]; rfl
  · rintro rfl; rw [hd, Ctx.csrApply_nctl]; rfl
  · rintro rfl; rw [hd, Ctx.csrApply_tvec hr]; rfl
  · rintro rfl; rw [hd, Ctx.csrApply_tfa hr]; rfl
  · rintro rfl; rw [hd]; rfl
  · rintro i hi rfl
    rw [hd, Ctx.csrApply_save _ v hi]
    exact apply_ite (fun x => Ctx.landResults x t) _ _ _
  · rintro rfl hlead
    exact ⟨State.dogClear_leader hc hlead, by rw [hd, Ctx.csrApply_readOnly _ v (by decide)]⟩
  · rintro rfl
    obtain ⟨x, he, hbits⟩ := Ctx.csrApply_dbg { c with csrPend := [] } v
    rw [hd, he]
    exact ⟨rfl, hbits⟩
  · rintro i hi rfl; rw [hd, Ctx.csrApply_break hi hr]; rfl
  · rintro i hi rfl; rw [hd, Ctx.csrApply_watch hi hr]; rfl
  · intro hm
    have hm' : num ∈ [0x005, 0x008, 0x009, 0x00B, 0x00C, 0x00F, 0x017, 0x018, 0x019] := by
      simp only [List.mem_cons, List.not_mem_nil, or_false] at hm ⊢
      tauto
    rw [hd, Ctx.csrApply_readOnly _ v hm']

/-! ### Registers of a wider scope -/

/-- R4, R6, R341: a write of a wider register, in the next cycle. -/
theorem wideRegisterDue : WideRegisterDue := by
  intro s n num v hr t ar cl w
  refine ⟨?_, ?_, ?_, ?_, ?_, ?_, ?_⟩
  · rintro rfl; rfl
  · rintro rfl; rfl
  · rintro rfl; rfl
  · rintro rfl
    have hv : v &&& 0x0000FFFFFFFFF03F = v := and_not_of_and_eq_zero (r := 0xFFFF000000000FC0) hr
    exact congrArg (fun x => s.setWing w { s.wing w with tsb := x }) hv
  · rintro rfl; rfl
  · rintro rfl
    exact congrArg (fun x => s.setWing w { s.wing w with tsl := x }) (bits_zero v 32)
  · intro hm
    simp only [List.mem_cons, List.not_mem_nil, or_false] at hm
    rcases hm with rfl | rfl | rfl | rfl | rfl | rfl | rfl | rfl <;> rfl

/-- Settles O18, register by register: what a read clears and delivers, how a write is judged, and one equation for what each register's
write leaves. -/
theorem specialRegisters : Obligations.SpecialRegisters :=
  ⟨specialRegisterReads, specialRegisterWrites, specialRegisterDue, wideRegisterDue⟩

end Sys2Proof.Machine
end

section
/-! PROOFS. Bytes and numbers: a number that is stored is read back (R1, R16). -/

namespace Sys2Proof

theorem leBytes_lt (bs : List Byte) : leBytes bs < 256 ^ bs.length := by
  induction bs with
  | nil => simp [leBytes]
  | cons b bs ih =>
    have hb := b.isLt
    rw [leBytes, List.length_cons, Nat.pow_succ]
    omega

theorem toBytes_length (v n : Nat) : (toBytes v n).length = n := by
  induction n generalizing v with
  | zero => rfl
  | succ n ih => simp [toBytes, ih]

theorem leBytes_toBytes (v n : Nat) : leBytes (toBytes v n) = v % 256 ^ n := by
  induction n generalizing v with
  | zero => simp [toBytes, leBytes, Nat.mod_one]
  | succ n ih =>
    have hv : v % 256 ^ (n + 1) = v % 256 + 256 * (v / 256 % 256 ^ n) := by rw [Nat.pow_succ', Nat.mod_mul]
    rw [toBytes, leBytes, ih, BitVec.toNat_ofNat, hv]

end Sys2Proof

namespace Sys2Proof.Machine

theorem Mem.read_length (m : Mem) (a n : Nat) : (m.read a n).length = n := by
  induction n generalizing a with
  | zero => rfl
  | succ n ih => simp [Mem.read, ih]

theorem Mem.nat_lt (m : Mem) (a n : Nat) : m.nat a n < 256 ^ n := by
  have h := leBytes_lt (m.read a n)
  rwa [Mem.read_length] at h

/-- What is read at an address depends on the bytes there. -/
theorem Mem.read_eq_of_get {m : Mem} {a : Nat} {bs : List Byte} (h : ∀ i (hi : i < bs.length), m.get (a + i) = bs[i]) :
    m.read a bs.length = bs := by
  induction bs generalizing a with
  | nil => rfl
  | cons b bs ih =>
    have hb : m.get a = b := h 0 (by simp)
    rw [List.length_cons, Mem.read, hb, ih fun i hi => ?_]
    have hi' := h (i + 1) (by simpa using hi)
    rwa [← Nat.add_assoc, Nat.add_right_comm] at hi'

theorem Mem.read_store_same {m : Mem} (a : Nat) (bs : List Byte) (bad : List Bool) (h : m.wf = true) :
    (m.store a bs bad).read a bs.length = bs :=
  Mem.read_eq_of_get fun i hi => by rw [Mem.get_store]; exact Mem.get_write a i bs h hi

/-- A number that is stored is the number read. -/
theorem Mem.nat_store_same {m : Mem} (a v n : Nat) (bad : List Bool) (h : m.wf = true) :
    (m.store a (toBytes v n) bad).nat a n = v % 256 ^ n := by
  have hr := Mem.read_store_same a (toBytes v n) bad h
  rw [toBytes_length] at hr
  rw [Mem.nat, hr, leBytes_toBytes]

end Sys2Proof.Machine
end

section
/-! PROOFS. The ring (R371 to R373, R377, R385): the start word, launches, graph entries and kills. -/

namespace Sys2Proof.Machine

open Sys2Proof.Claims

/-! ### The start word -/

theorem fieldOf_zero (v n : Nat) : fieldOf v 0 n = v % 2 ^ n := by simp [fieldOf]

/-- `SKIP` counts to its bound, and the count of this cycle with it. -/
theorem Module.skipped_eq (m : Module) (k : Nat) : m.skipped k = skipping m k := by
  have hs := m.skip.isLt
  have hnow : BitVec.ofNat 16 (min 0xFFFF (m.skip.toNat + k) - m.skip.toNat) =
      BitVec.ofNat 16 (min 0xFFFF (m.skip.toNat + k)) - m.skip := by
    apply BitVec.eq_of_toNat_eq
    rw [BitVec.toNat_sub, BitVec.toNat_ofNat, BitVec.toNat_ofNat]
    omega
  exact congrArg (fun x => { m with skip := skips m k, skipNow := m.skipNow + x }) hnow

theorem exec_start_store {s : State} (h : s.ev.idx ≠ 1) :
    exec .start s = .next (
      let tail : BitVec 32 := s.ev.v.setWidth 32
      let room := 2 ^ (s.mod.ring.toNat % 64)
      let n := (tail - s.mod.head).toNat
      { s with mod := if room < n then { skipping s.mod (n - room) with tail := tail, head := tail - BitVec.ofNat 32 room }
                      else { s.mod with tail := tail } }) := by
  show execStart s = _
  unfold execStart
  rw [if_neg h, bits_zero]
  simp only [fieldOf_zero, Module.skipped_eq]
  rfl

/-! ### Launch records: they and their checks are read from memory alone (R374, R377) -/

section
variable {s t : State}

theorem State.rd_congr (h : t.mem = s.mem) : t.rd = s.rd := by
  funext a n; rw [State.rd, State.rd, h]

theorem State.section?_congr (h : t.mem = s.mem) : t.section? = s.section? := by
  funext c ty; simp only [State.section?, State.rd_congr h]

theorem State.recBad_congr (h : t.mem = s.mem) (r : Nat) : t.recBad r = s.recBad r := by
  unfold State.recBad State.recCode State.recTtb State.recPart State.recArgs State.recNarg State.recFlags State.recTvec
    State.recTfa State.recStatus State.recLbase State.recRetry State.recBar
  rw [State.rd_congr h]

theorem State.codeBad_congr (h : t.mem = s.mem) (c : Nat) : t.codeBad c = s.codeBad c := by
  simp only [State.codeBad, State.rd_congr h, State.section?_congr h]

theorem State.stampOk_congr (h : t.mem = s.mem) (c : Nat) : t.stampOk c = s.stampOk c := by
  simp only [State.stampOk, State.section?_congr h, h]

theorem State.masterBad_congr (h : t.mem = s.mem) (b : Nat) : t.masterBad b = s.masterBad b := by
  simp only [State.masterBad, State.masterEntry, h]

theorem State.places_congr (h : t.mem = s.mem) (r : Nat) : t.places r = s.places r := by
  simp only [State.places, State.recCode, State.recLbase, State.rd_congr h, State.section?_congr h]

theorem State.placeBad_congr (h : t.mem = s.mem) (r : Nat) : t.placeBad r = s.placeBad r := by
  unfold State.placeBad State.recPart
  rw [State.places_congr h, State.rd_congr h]

theorem State.launchCheck_congr (h : t.mem = s.mem) (r : Nat) : t.launchCheck r = s.launchCheck r := by
  unfold State.launchCheck State.recCode State.recPart State.recTtb
  rw [State.rd_congr h]
  simp only [State.recBad_congr h, State.codeBad_congr h, State.stampOk_congr h, State.masterBad_congr h, State.placeBad_congr h]

theorem State.recPrio_congr (h : t.mem = s.mem) (r : Nat) : t.recPrio r = s.recPrio r := by
  rw [State.recPrio, State.recPrio, State.recFlags, State.recFlags, State.rd_congr h]

theorem State.recStatus_congr (h : t.mem = s.mem) (r : Nat) : t.recStatus r = s.recStatus r := by
  rw [State.recStatus, State.recStatus, State.rd_congr h]

end

/-! ### Launches -/

/-- An entry that is no newer than the last one is skipped (R383). -/
theorem exec_launch_old {s : State} (h : wordAt s s.ev.addr ≤ s.mod.seqTop.toNat) :
    exec .launch s = .next { s with mod := skipping (took s).mod 1 } := by
  have hseq : (BitVec.ofNat 64 (s.takeEntry.rd s.ev.addr 8)).toNat = wordAt s s.ev.addr :=
    Nat.mod_eq_of_lt (s.mem.nat_lt s.ev.addr 8)
  refine (congrArg Host.Outcome.next (if_pos (hseq.le.trans h))).trans ?_
  rw [Module.skipped_eq]; rfl

/-- The state in which a newer entry is launched. -/
def State.newer (s : State) : State :=
  { took s with mod := { (took s).mod with seqTop := BitVec.ofNat 64 (wordAt s s.ev.addr) } }

theorem State.newer_mem (s : State) : s.newer.mem = s.mem := rfl

theorem State.newer_seqTop (s : State) : s.newer.mod.seqTop.toNat = wordAt s s.ev.addr :=
  Nat.mod_eq_of_lt (s.mem.nat_lt s.ev.addr 8)

theorem exec_launch_new {s : State} (h : s.mod.seqTop.toNat < wordAt s s.ev.addr) :
    exec .launch s = .next (s.newer.launch s.ev.addr 4 none) := by
  have hnew : ¬ s.newer.mod.seqTop.toNat ≤ s.mod.seqTop.toNat := by rw [s.newer_seqTop]; exact Nat.not_le.mpr h
  exact congrArg Host.Outcome.next (if_neg hnew)

/-- A record that passes its checks is queued. -/
theorem State.launch_queues {s : State} {r : Nat} (h : s.launchCheck r = 0) (prio : Nat) (node : Option Nat) :
    ∃ k : Kernel, s.launch r prio node =
        { s with uid := s.uid + 1, mod := { s.mod with kernels := mput s.mod.kernels (s.uid + 1) k } } ∧
      k.record = r ∧ k.state = .waiting ∧ k.prio = (if prio < 4 then prio else s.recPrio r) ∧
      k.places = (s.places r).map (fun p => p.2.1) ∧ k.node = node := by
  unfold State.launch
  rw [h]
  exact ⟨_, rfl, rfl, rfl, rfl, rfl, rfl⟩

/-- A record that fails a check is refused with its outcome. -/
theorem State.launch_refuses {s : State} {r : Nat} (h : s.launchCheck r ≠ 0) (prio : Nat) :
    s.launch r prio none = s.complete r (s.launchCheck r) 0 0 false [] := by
  cases hc : s.launchCheck r with
  | zero => exact absurd hc h
  | succ n => unfold State.launch; rw [hc]; rfl

@[simp] theorem State.complete_mod (s : State) (r out cyc n : Nat) (x : Bool) (f : List Byte) :
    (s.complete r out cyc n x f).mod = s.mod := by unfold State.complete; rfl

/-- The completion record holds DONE and the outcome (R378). -/
theorem State.complete_status {s : State} (hm : s.MemInv) (r out cyc n : Nat) (x : Bool) (f : List Byte) :
    wordAt (s.complete r out cyc n x f) (s.recStatus r) = (2 ^ 63 + out) % 2 ^ 64 :=
  Mem.nat_store_same (s.recStatus r) (2 ^ 63 + out) 8 [] (Mem.wf_store _ _ _ hm)

/-- A newer entry whose record passes its checks (R377, R379). -/
theorem exec_launch_passes {s : State} (hseq : s.mod.seqTop.toNat < wordAt s s.ev.addr) (hc : s.launchCheck s.ev.addr = 0) :
    ∃ u k, exec .launch s = .next u ∧ u.mem = s.mem ∧ u.mod.head = s.mod.head + 1 ∧
      u.mod.seqTop.toNat = wordAt s s.ev.addr ∧ u.mod.kernels = mput s.mod.kernels (s.uid + 1) k ∧ k.record = s.ev.addr ∧
      k.state = .waiting ∧ k.prio = s.recPrio s.ev.addr ∧ k.places = (s.places s.ev.addr).map (fun p => p.2.1) ∧ k.node = none := by
  have hmem := s.newer_mem
  obtain ⟨k, hk, hrec, hst, hprio, hpl, hnode⟩ :=
    State.launch_queues ((State.launchCheck_congr hmem s.ev.addr).trans hc) 4 none
  rw [State.recPrio_congr hmem] at hprio
  rw [State.places_congr hmem] at hpl
  refine ⟨_, k, (exec_launch_new hseq).trans (congrArg Host.Outcome.next hk), rfl, rfl, s.newer_seqTop, rfl, hrec, hst, hprio, hpl,
    hnode⟩

/-- A newer entry whose record fails a check (R377, R378). -/
theorem exec_launch_fails {s : State} (hseq : s.mod.seqTop.toNat < wordAt s s.ev.addr) {out : Nat}
    (hc : s.launchCheck s.ev.addr = out) (h0 : out ≠ 0) (hm : s.MemInv) :
    ∃ u, exec .launch s = .next u ∧ u.mod.kernels = s.mod.kernels ∧ u.mod.head = s.mod.head + 1 ∧
      wordAt u (s.recStatus s.ev.addr) = (2 ^ 63 + out) % 2 ^ 64 := by
  have hmem := s.newer_mem
  have hc' : s.newer.launchCheck s.ev.addr = out := (State.launchCheck_congr hmem s.ev.addr).trans hc
  have hr : s.newer.launch s.ev.addr 4 none = s.newer.complete s.ev.addr out 0 0 false [] :=
    hc' ▸ State.launch_refuses (hc' ▸ h0) 4
  refine ⟨_, (exec_launch_new hseq).trans (congrArg Host.Outcome.next hr), ?_, ?_, ?_⟩
  · rw [State.complete_mod]; rfl
  · rw [State.complete_mod]; rfl
  · rw [← State.recStatus_congr hmem]
    exact State.complete_status (s := s.newer) hm s.ev.addr out 0 0 false []

/-! ### Graph entries -/

theorem exec_graph_bad {s : State} (h : s.ev.idx = 1) {x : Activation} {l : List Activation} (ha : s.mod.acts = x :: l) :
    exec .graph s = .next (State.badNode { s with mod := { s.mod with acts := l } } x) := by
  show execGraph s = _
  unfold execGraph
  rw [if_pos h, ha]

theorem State.badNode_acts (s : State) (x : Activation) : (s.badNode x).mod.acts = s.mod.acts := by
  unfold State.badNode
  split
  · rfl
  · split <;> rfl

theorem State.badNode_entry {s : State} {x : Activation} (h : x.by' = none) : s.badNode x = s := by
  unfold State.badNode; rw [h]

theorem State.badNode_running {s : State} {x : Activation} {k : Nat} (h : x.by' = some k)
    (hk : s.mod.kernels.any (fun e => e.1 == k) = true) : s.badNode x =
      { s with mod := { s.mod with
        kernels := s.mod.kernels.map (fun e => if e.1 = k then (e.1, { e.2 with spawnX := true }) else e) } } := by
  unfold State.badNode; rw [h]; exact if_pos hk

theorem State.badNode_retired {s : State} {x : Activation} {k : Nat} (h : x.by' = some k)
    (hk : s.mod.kernels.any (fun e => e.1 == k) = false) : s.badNode x =
      { s with mem := s.mem.store (x.st + 24) [BitVec.ofNat 8 (s.rd (x.st + 24) 1 ||| 16)] [] } := by
  unfold State.badNode; rw [h]; exact if_neg (by simp [hk])

/-- Every kernel of the name is marked. -/
theorem spawnX_of_marked {l : TMap Kernel} {k : Nat} {e : Nat × Kernel}
    (he : e ∈ l.map (fun e => if e.1 = k then (e.1, { e.2 with spawnX := true }) else e)) (hk : e.1 = k) : e.2.spawnX = true := by
  obtain ⟨y, -, rfl⟩ := List.mem_map.1 he
  by_cases hy : y.1 = k
  · rw [if_pos hy]
  · rw [if_neg hy] at hk; exact absurd hk hy

/-- A completion record is marked: bit 4 of its byte (R378). -/
theorem State.marked_bit {s : State} (hm : s.MemInv) (a v : Nat) :
    ((s.mem.store a [BitVec.ofNat 8 (v ||| 16)] []).get a).getLsbD 4 = true := by
  have hb : (s.mem.store a [BitVec.ofNat 8 (v ||| 16)] []).get a = BitVec.ofNat 8 (v ||| 16) := by
    rw [Mem.get_store]; exact Mem.get_write a 0 _ hm (by simp)
  rw [hb, BitVec.getLsbD_ofNat, Nat.testBit_or]
  simp [show Nat.testBit 16 4 = true from rfl]

/-! ### Kills -/

theorem State.clearPre_keeps (s : State) (cs : List Nat) : (s.clearPre cs).mem = s.mem ∧ (s.clearPre cs).mod = s.mod := by
  induction cs generalizing s with
  | nil => exact ⟨rfl, rfl⟩
  | cons c cs ih =>
    obtain ⟨hmem, hmod⟩ := ih (if (s.ctx (2 * c + 1)).mode == .off then s.setCtx (2 * c + 1) {} else s)
    rw [State.clearPre, hmem, hmod]
    split <;> exact ⟨rfl, rfl⟩

theorem State.discard_mem (s : State) (f : Nat × Kernel → Bool) : (s.discard f).mem = s.mem := (s.clearPre_keeps _).1

theorem State.discard_kernels (s : State) (f : Nat × Kernel → Bool) :
    (s.discard f).mod.kernels = s.mod.kernels.map (fun e => if f e then (e.1, e.2.bare) else e) := by
  show ((s.clearPre _).mod.kernels).map _ = _
  rw [(s.clearPre_keeps _).2]

/-- A kernel that is dropped leaves the others, whatever preload it loses first. -/
theorem filter_bare (l : TMap Kernel) (k : Nat) :
    (l.map (fun e => if e.1 == k then (e.1, e.2.bare) else e)).filter (fun e => e.1 != k) = l.filter (fun e => e.1 != k) := by
  induction l with
  | nil => rfl
  | cons e l ih =>
    rw [List.map_cons, List.filter_cons, List.filter_cons, ih]
    by_cases h : e.1 = k <;> simp [h]

theorem exec_kill_none {s : State} (h : s.mod.kernels.find? (fun e => e.2.record == s.ev.addr) = none) :
    exec .kill s = .next (took s) := by
  show execKill s = _
  unfold execKill
  simp only [State.takeEntry, h]; rfl

theorem exec_kill_waiting {s : State} {e : Nat × Kernel}
    (h : s.mod.kernels.find? (fun e => e.2.record == s.ev.addr) = some e) (hw : e.2.state = .waiting) (hn : e.2.node = none) :
    exec .kill s = .next ((((took s).discard (fun x => x.1 == e.1)).complete e.2.record 2 0 e.2.reruns e.2.spawnX []).dropKernel
      e.1) := by
  show execKill s = _
  unfold execKill
  simp only [State.takeEntry, h, hw, hn]; rfl

theorem exec_kill_running {s : State} {e : Nat × Kernel}
    (h : s.mod.kernels.find? (fun e => e.2.record == s.ev.addr) = some e) (hr : e.2.state = .running) :
    exec .kill s = .next ((took s).killKernel e.1 2 []) := by
  show execKill s = _
  unfold execKill
  simp only [State.takeEntry, h, hr]; rfl

/-! ### The contexts of a kernel that is killed (R348) -/

/-- A context that has stopped for good. -/
def Ctx.stands (c : Ctx) : Prop := c.mode = .halted ∧ c.larder = []

theorem State.dropPorch_ctx (s : State) (n : Nat) (keep : List Nat) (q : Nat) : ∃ o, ∀ m,
    (s.dropPorch n keep q).ctx m = if m = n then { s.ctx n with outs := o } else s.ctx m :=
  ⟨((s.dropPorch n keep q).ctx n).outs, fun m => by
    simp only [State.dropPorch, State.dropRecvs, State.ctx_onCore, State.ctx_onCtx]
    rfl⟩

theorem State.dropPorch_other (s : State) {n m : Nat} (h : m ≠ n) (keep : List Nat) (q : Nat) :
    (s.dropPorch n keep q).ctx m = s.ctx m := by
  obtain ⟨o, ho⟩ := s.dropPorch_ctx n keep q
  rw [ho, if_neg h]

theorem State.dropPorch_stands {s : State} {n : Nat} (h : (s.ctx n).stands) (keep : List Nat) (q : Nat) :
    ((s.dropPorch n keep q).ctx n).stands := by
  obtain ⟨o, ho⟩ := s.dropPorch_ctx n keep q
  rw [ho, if_pos rfl]
  exact h

/-- Stopping a list of contexts stops its first one, and then the others. -/
theorem State.stopAll_cons (s : State) (n : Nat) (ns : List Nat) : ∃ t : State, s.stopAll (n :: ns) = t.stopAll ns ∧
    (t.ctx n).stands ∧ ∀ m, m ≠ n → t.ctx m = s.ctx m := by
  refine ⟨_, rfl, State.dropPorch_stands ?_ [] 0, fun m hm => ?_⟩
  · rw [State.ctx_onCtx_same]; exact ⟨rfl, rfl⟩
  · rw [State.dropPorch_other _ hm, State.ctx_onCtx, if_neg hm]

theorem State.stopAll_ctx_other {s : State} {m : Nat} {ns : List Nat} (h : m ∉ ns) : (s.stopAll ns).ctx m = s.ctx m := by
  induction ns generalizing s with
  | nil => rfl
  | cons n ns ih =>
    obtain ⟨hm, hns⟩ := not_or.1 (mt List.mem_cons.2 h)
    obtain ⟨t, he, -, hother⟩ := s.stopAll_cons n ns
    rw [he, ih hns, hother m hm]

theorem State.stopAll_stands {s : State} {m : Nat} {ns : List Nat} (h : m ∈ ns) : ((s.stopAll ns).ctx m).stands := by
  induction ns generalizing s with
  | nil => exact absurd h List.not_mem_nil
  | cons n ns ih =>
    obtain ⟨t, he, hstands, -⟩ := s.stopAll_cons n ns
    rw [he]
    by_cases hns : m ∈ ns
    · exact ih hns
    · obtain rfl : m = n := (List.mem_cons.1 h).resolve_right hns
      rw [State.stopAll_ctx_other hns]
      exact hstands

theorem State.onCtxs_ctx_other {s : State} {f : Ctx → Ctx} {m : Nat} {ns : List Nat} (h : m ∉ ns) :
    (s.onCtxs f ns).ctx m = s.ctx m := by
  induction ns generalizing s with
  | nil => rfl
  | cons n ns ih =>
    obtain ⟨hm, hns⟩ := not_or.1 (mt List.mem_cons.2 h)
    rw [State.onCtxs, ih hns, State.ctx_onCtx, if_neg hm]

theorem State.onCtxs_dies {s : State} {m : Nat} {ns : List Nat} (h : m ∈ ns) :
    ((s.onCtxs (fun c => { c with dies := true }) ns).ctx m).dies = true := by
  induction ns generalizing s with
  | nil => exact absurd h List.not_mem_nil
  | cons n ns ih =>
    by_cases hns : m ∈ ns
    · exact ih hns
    · obtain rfl : m = n := (List.mem_cons.1 h).resolve_right hns
      rw [State.onCtxs, State.onCtxs_ctx_other hns, State.ctx_onCtx_same]

/-- Contexts that stop: at once, or behind the repeats of their bundle. -/
theorem State.stopAt_stops {s : State} {m : Nat} {ns : List Nat} (h : m ∈ ns) :
    (s.midRep m = false → ((s.stopAt ns).ctx m).stands) ∧ (s.midRep m = true → ((s.stopAt ns).ctx m).dies = true) := by
  refine ⟨fun hm => State.stopAll_stands (List.mem_filter.2 ⟨h, by simp [hm]⟩), fun hm => ?_⟩
  rw [State.stopAt, State.stopAll_ctx_other (by simp [hm])]
  exact State.onCtxs_dies (List.mem_filter.2 ⟨h, hm⟩)

/-- A kill changes contexts by stopping them alone. -/
theorem State.killKernel_ctxs (s : State) (k out : Nat) (f : List Byte) :
    (s.killKernel k out f).ctxs = ((s.dropCommands (s.ctxsOf k)).stopAt (s.ctxsOf k)).ctxs := by
  simp only [State.killKernel]
  split <;> rfl

theorem State.killKernel_stopped (s : State) (k out : Nat) (f : List Byte) : stopped s (s.killKernel k out f) k := by
  intro m hm
  have h := (s.dropCommands (s.ctxsOf k)).stopAt_stops hm
  have hc : (s.killKernel k out f).ctx m = ((s.dropCommands (s.ctxsOf k)).stopAt (s.ctxsOf k)).ctx m := by
    rw [State.ctx, State.killKernel_ctxs]; rfl
  rw [hc]
  exact h

/-! ### The events of the ring -/

/-- R372, R373: the start word. -/
theorem exec_start_bounded {s : State} (h : s.ev.idx ≠ 1) :
    let tail : BitVec 32 := s.ev.v.setWidth 32
    let room := 2 ^ (s.mod.ring.toNat % 64)
    let n := (tail - s.mod.head).toNat
    (n ≤ room → exec .start s = .next { s with mod := { s.mod with tail := tail } }) ∧
    (room < n → exec .start s = .next { s with mod := { skipping s.mod (n - room) with
      tail := tail, head := tail - BitVec.ofNat 32 room } }) := by
  refine ⟨fun hn => ?_, fun hn => ?_⟩
  · rw [exec_start_store h]; simp only [if_neg (Nat.not_lt.mpr hn)]
  · rw [exec_start_store h]; simp only [if_pos hn]

/-- R372: a bad entry. -/
theorem exec_start_skip {s : State} (h : s.ev.idx = 1) : exec .start s = .next { s with mod := skipping (took s).mod 1 } := by
  refine (congrArg Host.Outcome.next (if_pos h)).trans ?_
  rw [Module.skipped_eq]; rfl

/-- R385, R387: a bad activation. -/
theorem exec_graph_marks {s : State} (h : s.ev.idx = 1) (x : Activation) (l : List Activation) (hx : s.mod.acts = x :: l) :
    ∃ u, exec .graph s = .next u ∧ u.mod.acts = l ∧ (x.by' = none → u.mem = s.mem) ∧
      ∀ k, x.by' = some k →
        (s.mod.kernels.any (fun e => e.1 == k) = true → u.mem = s.mem ∧ ∀ e ∈ u.mod.kernels, e.1 = k → e.2.spawnX = true) ∧
        (s.mod.kernels.any (fun e => e.1 == k) = false → s.MemInv → (u.mem.get (x.st + 24)).getLsbD 4 = true) := by
  refine ⟨_, exec_graph_bad h hx, State.badNode_acts _ x, fun hby => by rw [State.badNode_entry hby],
    fun k hby => ⟨fun hk => ?_, fun hk hm => ?_⟩⟩
  · rw [State.badNode_running (s := { s with mod := { s.mod with acts := l } }) hby hk]
    exact ⟨rfl, fun e he hek => spawnX_of_marked he hek⟩
  · rw [State.badNode_retired (s := { s with mod := { s.mod with acts := l } }) hby hk]
    exact State.marked_bit hm _ _

/-- R372, R377: a launch that waits and is killed. -/
theorem exec_kill_refuses {s : State} {e : Nat × Kernel}
    (h : s.mod.kernels.find? (fun e => e.2.record == s.ev.addr) = some e) (hw : e.2.state = .waiting) (hn : e.2.node = none)
    (hm : s.MemInv) : ∃ u, exec .kill s = .next u ∧ u.mod.kernels = s.mod.kernels.filter (fun x => x.1 != e.1) ∧
      wordAt u (s.recStatus e.2.record) = 2 ^ 63 + 2 := by
  have hmem : ((took s).discard (fun x => x.1 == e.1)).mem = s.mem := State.discard_mem _ _
  refine ⟨_, exec_kill_waiting h hw hn, ?_, ?_⟩
  · rw [State.dropKernel, State.complete_mod, State.discard_kernels]
    exact filter_bare s.mod.kernels e.1
  · rw [← State.recStatus_congr hmem]
    exact State.complete_status (by rw [State.MemInv, hmem]; exact hm) _ _ _ _ _ _

/-- Settles O51, event by event. -/
theorem ringEvents : Obligations.RingEvents := fun s =>
  ⟨exec_start_bounded, exec_start_skip, exec_launch_old,
    fun hseq => ⟨exec_launch_passes hseq, fun _ hc h0 hm => exec_launch_fails hseq hc h0 hm⟩,
    fun h => congrArg Host.Outcome.next (if_neg h), exec_graph_marks, exec_kill_none,
    fun e h hr => ⟨_, exec_kill_running h hr, State.killKernel_stopped (took s) e.1 2 []⟩,
    fun _ => exec_kill_refuses⟩

end Sys2Proof.Machine
end

section
/-! PROOFS. Memory stays canonical (R16, R135), the frame: a lemma for each function of the model that a step calls and that
leaves memory alone, in the order of the definitions. -/

namespace Sys2Proof.Machine

theorem foldl_mem {α : Type} {f : State → α → State} (hf : ∀ s x, (f s x).mem = s.mem) (l : List α) (s : State) :
    (l.foldl f s).mem = s.mem := by
  induction l generalizing s with
  | nil => rfl
  | cons x l ih => exact (ih (f s x)).trans (hf s x)

/-! ### Answers, deliveries and the larder -/

@[simp] theorem State.pushHeld_mem (s : State) (e : Held) : (s.pushHeld e).mem = s.mem := rfl

@[simp] theorem State.withRoom_mem {s f : State} {n : Nat} {st : Bool} {g : Ctx → Ctx} (hf : f.mem = s.mem) :
    (s.withRoom n st (s.onCur g) f).mem = s.mem := by
  unfold State.withRoom
  repeat' split
  all_goals simp [hf]

@[simp] theorem State.raiseTag_mem (s : State) (t : Tag) (r : TrapRec) : (s.raiseTag t r).mem = s.mem := by
  unfold State.raiseTag
  split <;> simp

@[simp] theorem State.raiseAll_mem (s : State) (l : List (Tag × TrapRec)) : (s.raiseAll l).mem = s.mem := by
  induction l generalizing s with
  | nil => rfl
  | cons x l ih => simp [State.raiseAll, ih]

@[simp] theorem State.addS_mem (s : State) (x : Pend 64 1) : (s.addS x).mem = s.mem := by
  unfold State.addS
  split <;> simp

@[simp] theorem State.addV_mem (s : State) (x : Pend 1024 32) : (s.addV x).mem = s.mem := by
  unfold State.addV
  split <;> simp

@[simp] theorem State.deliverS_mem (s : State) (k : Cond2) (r lat : Nat) (outs : List (Tag × SVal)) :
    (s.deliverS k r lat outs).mem = s.mem := by
  unfold State.deliverS
  split <;> simp

@[simp] theorem State.deliverA_mem (s : State) (k : Cond2) (r lat : Nat) (outs : List (Tag × SVal)) :
    (s.deliverA k r lat outs).mem = s.mem := by simp [State.deliverA]

@[simp] theorem State.deliverV_mem (s : State) (k : Cond2) (r lat : Nat) (outs : List (Tag × VVal)) :
    (s.deliverV k r lat outs).mem = s.mem := by simp [State.deliverV]

@[simp] theorem State.deliverG_mem (s : State) (r lat : Nat) (b : Bool) : (s.deliverG r lat b).mem = s.mem := by
  unfold State.deliverG
  split <;> simp

@[simp] theorem State.toBarrier_mem (s : State) (n slot ba bar : Nat) (set : Option (BitVec 16 × Bool)) :
    (s.toBarrier n slot ba bar set).mem = s.mem := rfl

@[simp] theorem State.arriveOne_mem (s : State) (h : Hdr) (due : Nat) (x : Tag × List Nat) :
    (s.arriveOne h due x).mem = s.mem := by
  unfold State.arriveOne
  split <;> simp

@[simp] theorem State.arriveAll_mem (s : State) (h : Hdr) (due : Nat) (l : List (Tag × List Nat)) :
    (s.arriveAll h due l).mem = s.mem := by
  induction l generalizing s with
  | nil => rfl
  | cons x l ih => simp [State.arriveAll, ih]

@[simp] theorem State.arriveAt_mem (s : State) (k : Cond2) (h : Hdr) (due : Nat) (xs : List (Tag × List Nat)) :
    (s.arriveAt k h due xs).mem = s.mem := by simp [State.arriveAt]

@[simp] theorem State.arriveLat_mem (s : State) (k : Cond2) (h : Hdr) (lat : Nat) : (s.arriveLat k h lat).mem = s.mem := by
  simp [State.arriveLat]

@[simp] theorem State.withArrivals_mem {α : Type} {s f : State} {k : Cond2} {h : Hdr} {lat : Nat} {outs : List (Tag × α)}
    (hf : f.mem = s.mem) : (s.withArrivals k h lat outs f).mem = s.mem :=
  State.withRoom_mem (by simp [hf])

@[simp] theorem State.guarded_mem {s : State} {h : Hdr} {f : Cond2 → State} (hf : ∀ k, (f k).mem = s.mem) :
    (s.guarded h f).mem = s.mem := by
  unfold State.guarded
  split
  · rfl
  · exact hf _

@[simp] theorem State.regS_mem (s : State) (h : Hdr) (r lat : Nat) (outs : List (Tag × SVal)) :
    (s.regS h r lat outs).mem = s.mem := State.guarded_mem fun _ => by simp

@[simp] theorem State.regA_mem (s : State) (h : Hdr) (r lat : Nat) (outs : List (Tag × SVal)) :
    (s.regA h r lat outs).mem = s.mem := State.guarded_mem fun _ => by simp

@[simp] theorem State.waitingN_mem {s : State} {h : Hdr} {many : Bool} {f : Cond2 → State} (hf : ∀ k, (f k).mem = s.mem) :
    (s.waitingN h many f).mem = s.mem := by
  unfold State.waitingN
  split
  · rfl
  · exact State.guarded_mem fun k => by split <;> simp [hf]

@[simp] theorem State.waiting_mem {s f : State} {h : Hdr} {srcs : List (List (Tag × SVal))} (hf : f.mem = s.mem) :
    (s.waiting h srcs f).mem = s.mem :=
  State.waitingN_mem fun _ => hf

@[simp] theorem State.underLit_mem {s f : State} (hf : f.mem = s.mem) : (s.underLit f).mem = s.mem := by
  unfold State.underLit
  split <;> simp [hf]

@[simp] theorem State.branchingK_mem {s : State} {h : Hdr} {srcs : List (List (Tag × SVal))} {f : Cond2 → State}
    (hf : ∀ k, (f k).mem = s.mem) : (s.branchingK h srcs f).mem = s.mem := by
  unfold State.branchingK
  dsimp only
  split
  · rfl
  · exact State.guarded_mem fun k => by split <;> simp [hf]

@[simp] theorem State.branching_mem {s f : State} {h : Hdr} {srcs : List (List (Tag × SVal))} (hf : f.mem = s.mem) :
    (s.branching h srcs f).mem = s.mem :=
  State.branchingK_mem fun _ => hf

/-! ### Flags -/

@[simp] theorem State.guardWrite_mem (s : State) (gd hint : Nat) (q : Tag) (cases : List (Tag × GLeaf)) :
    (s.guardWrite gd hint q cases).mem = s.mem := by
  unfold State.guardWrite
  dsimp only
  repeat' split
  all_goals simp

/-! ### The scalar slot -/

@[simp] theorem State.bin_mem (s : State) (h : Hdr) (o : TOp) (lat : Nat) (f : Word → Word → Word) :
    (s.bin h o lat f).mem = s.mem := s.regS_mem _ _ _ _

@[simp] theorem State.un_mem (s : State) (h : Hdr) (o : TOp) (f : Word → Word) :
    (s.un h o f).mem = s.mem := s.regS_mem _ _ _ _

@[simp] theorem State.imm_mem (s : State) (h : Hdr) (o : IOp) (lat : Nat) (f : Word → Word → Word) :
    (s.imm h o lat f).mem = s.mem := s.regS_mem _ _ _ _

@[simp] theorem State.divide_mem (s : State) (h : Hdr) (o : TOp) (opc : Word) (sg : Bool) (f : Word → Word → Word) :
    (s.divide h o opc sg f).mem = s.mem := by
  refine State.guarded_mem fun k => ?_
  dsimp only
  split
  · rfl
  · split
    · rfl
    · exact State.withRoom_mem (by simp [apply_ite State.mem])

@[simp] theorem State.gcmp_mem (s : State) (h : Hdr) (o : TOp) (cd : Cond) : (s.gcmp h o cd).mem = s.mem := by
  refine State.guarded_mem fun k => ?_
  dsimp only
  split
  · rfl
  · exact State.withRoom_mem (by simp [apply_ite State.mem])

@[simp] theorem State.gbin_mem (s : State) (h : Hdr) (o : TOp) (f : Bool → Bool → Bool) : (s.gbin h o f).mem = s.mem := by
  simp [State.gbin]

/-! ### Accesses -/

@[simp] theorem State.send_mem (s : State) (a : Acc) (kind : Nat) : (s.send a kind).mem = s.mem := rfl

@[simp] theorem State.recordOor_mem (s : State) (n : Nat) (wr : Bool) (place core off len ba : Nat) :
    (s.recordOor n wr place core off len ba).mem = s.mem := by
  unfold State.recordOor
  repeat' split
  all_goals simp

@[simp] theorem State.freezeEcc_mem (s : State) (core : Nat) : (s.freezeEcc core).mem = s.mem := rfl

@[simp] theorem State.recordLine_mem (s : State) (st : Bool) (home n : Nat) : (s.recordLine st home n).mem = s.mem := rfl

@[simp] theorem State.watch_mem (s : State) (kindB : Nat) (ea : Word) (n : Nat) : (s.watch kindB ea n).mem = s.mem := rfl

@[simp] theorem State.atPort_mem (s : State) (rank : Nat) (a : Acc) (bad : List Bool) :
    (s.atPort rank a bad).mem = s.mem := rfl

@[simp] theorem State.launchAcc_mem (s : State) (a : Acc) (release : Bool) : (s.launchAcc a release).mem = s.mem := by
  simp [State.launchAcc, apply_ite State.mem]

@[simp] theorem State.postStep_mem (s : State) (k : Cond2) (r : Nat) (d : Word) : (s.postStep k r d).mem = s.mem := by
  unfold State.postStep
  split <;> simp

@[simp] theorem State.postStepBut_mem (s : State) (skip : List Tag) (k : Cond2) (r : Nat) (d : Word) :
    (s.postStepBut skip k r d).mem = s.mem := by simp [State.postStepBut, apply_ite State.mem]

@[simp] theorem State.addAltsS_mem (s : State) (k : Cond2) (r lat : Nat) (as : List (Alt 64 1)) :
    (s.addAltsS k r lat as).mem = s.mem := by
  unfold State.addAltsS
  split <;> simp

@[simp] theorem State.addAltsV_mem (s : State) (k : Cond2) (r lat : Nat) (as : List (Alt 1024 32)) :
    (s.addAltsV k r lat as).mem = s.mem := by simp [State.addAltsV]

/-! ### Loads and stores -/

@[simp] theorem State.withTraps_mem {s : State} {traps : List (Tag × TrapRec)} {more : Nat} {f : State → State} {st : Bool}
    (hf : (f s).mem = s.mem) : (s.withTraps traps more f st).mem = s.mem := by
  unfold State.withTraps
  split
  · rfl
  · exact State.withRoom_mem (by simp [hf])

@[simp] theorem State.underWay_mem (s : State) (t : Tgt) : (s.underWay t).mem = s.mem := rfl

@[simp] theorem State.beginTimed_mem (s : State) (a : Acc) : (s.beginTimed a).mem = s.mem := by
  unfold State.beginTimed
  split <;> simp

@[simp] theorem State.porchFill_mem (s : State) (due : Nat) (ps : List (Tag × Part)) : (s.porchFill due ps).mem = s.mem := by
  unfold State.porchFill
  split <;> simp

@[simp] theorem State.arriveTimed_mem (s : State) (k : Cond2) (h : Hdr) (due : Nat) (ps : List (Tag × Part)) :
    (s.arriveTimed k h due ps).mem = s.mem := by simp [State.arriveTimed]

@[simp] theorem putPartS_mem (r : Nat) (signed : Bool) (s : State) (k : Cond2) (lat : Nat) (ps : List (Tag × Part)) :
    (putPartS r signed s k lat ps).mem = s.mem := by simp [putPartS]

@[simp] theorem putPartV_mem (r : Nat) (s : State) (k : Cond2) (lat : Nat) (ps : List (Tag × Part)) :
    (putPartV r s k lat ps).mem = s.mem := by simp [putPartV]

@[simp] theorem State.storeOne_mem (s : State) (a : Acc) (bad : Option TrapRec) : (s.storeOne a bad).mem = s.mem := by
  simp [State.storeOne, apply_ite State.mem]

/-! ### Atomics -/

@[simp] theorem State.behind_mem {s f : State} {ret : Bool} (hf : f.mem = s.mem) : (s.behind ret f).mem = s.mem := by
  unfold State.behind
  repeat' split
  all_goals simp [hf]

@[simp] theorem State.atomOne_mem (s : State) (a : Acc) : (s.atomOne a).mem = s.mem := by
  unfold State.atomOne
  split
  · simp
  · split
    · exact State.behind_mem (by simp)
    · simp

/-! ### Control -/

@[simp] theorem State.fillLine_mem (s : State) (n va : Nat) : (s.fillLine n va).mem = s.mem := by
  unfold State.fillLine
  dsimp only
  repeat' split
  all_goals simp

@[simp] theorem State.prefetch_mem (s : State) (n : Nat) (l : List Nat) : (s.prefetch n l).mem = s.mem := by
  induction l generalizing s with
  | nil => rfl
  | cons t l ih => exact (ih _).trans (foldl_mem (fun s va => s.fillLine_mem n va) _ s)

@[simp] theorem State.onCtxs_mem (s : State) (f : Ctx → Ctx) (l : List Nat) : (s.onCtxs f l).mem = s.mem := by
  induction l generalizing s with
  | nil => rfl
  | cons x l ih => simp [State.onCtxs, ih]

@[simp] theorem State.jump_mem (s : State) (t cost : Nat) : (s.jump t cost).mem = s.mem := by
  unfold State.jump
  split <;> simp

@[simp] theorem State.branchTrap_mem (s : State) (k : Cond2) (t : TrapRec) : (s.branchTrap k t).mem = s.mem := by
  simp [State.branchTrap]

@[simp] theorem State.branchOnK_mem {s : State} {h : Hdr} {r : Nat} {f : Cond2 → Word → State}
    (hf : ∀ k w, (f k w).mem = s.mem) : (s.branchOnK h r f).mem = s.mem := by
  refine State.branchingK_mem fun k => ?_
  split <;> simp [hf]

@[simp] theorem State.branchOn_mem {s : State} {h : Hdr} {r : Nat} {f : Word → State} (hf : ∀ w, (f w).mem = s.mem) :
    (s.branchOn h r f).mem = s.mem :=
  State.branchOnK_mem fun _ => hf

@[simp] theorem State.linkTo_mem (s : State) (r : Nat) : (s.linkTo r).mem = s.mem := by simp [State.linkTo]

@[simp] theorem State.callTo_mem (s : State) (r t cost : Nat) : (s.callTo r t cost).mem = s.mem := by simp [State.callTo]

@[simp] theorem State.illegal_mem (s : State) : s.illegal.mem = s.mem := rfl

@[simp] theorem State.enterLoop_mem (s : State) (k : Cond2) (c : Word) (len : Nat) : (s.enterLoop k c len).mem = s.mem := by
  simp [State.enterLoop, apply_ite State.mem]

@[simp] theorem State.pointOf_mem (s : State) (n : Nat) : (s.pointOf n).mem = s.mem := by
  simp [State.pointOf, apply_ite State.mem]

@[simp] theorem State.passPoint_mem (s : State) (n : Nat) : (s.passPoint n).mem = s.mem := by
  unfold State.passPoint
  split <;> simp

@[simp] theorem State.loopStep_mem (s : State) (n : Nat) : (s.loopStep n).1.mem = s.mem := by simp [State.loopStep]

@[simp] theorem State.loopIndex_mem (s : State) (h : Hdr) (o : CIOp) (f : Level → Word) :
    (s.loopIndex h o f).mem = s.mem := by
  refine State.guarded_mem fun k => ?_
  split <;> simp

@[simp] theorem State.performStore_mem (s : State) (n : Nat) (a : Acc) : (s.performStore n a).mem = s.mem := by
  simp [State.performStore]

@[simp] theorem State.performStores_mem (s : State) (n : Nat) (l : List Held) : (s.performStores n l).mem = s.mem := by
  induction l generalizing s n with
  | nil => rfl
  | cons x l ih =>
    unfold State.performStores
    repeat' split
    all_goals simp [ih]

@[simp] theorem State.emptyStores_mem (s : State) (n : Nat) : (s.emptyStores n).mem = s.mem := by
  unfold State.emptyStores
  split <;> simp

@[simp] theorem State.spill_mem (s : State) (n : Nat) : (s.spill n).mem = s.mem := by
  unfold State.spill
  dsimp only
  repeat' split
  all_goals simp

@[simp] theorem State.spillAll_mem (s : State) (l : List Nat) : (s.spillAll l).mem = s.mem := by
  induction l generalizing s with
  | nil => rfl
  | cons x l ih => simp [State.spillAll, ih]

@[simp] theorem State.takeMark_mem (s : State) (n addr : Nat) : (s.takeMark n addr).mem = s.mem := by simp [State.takeMark]

@[simp] theorem State.dropRecvs_mem (s : State) (n q : Nat) : (s.dropRecvs n q).mem = s.mem := rfl

@[simp] theorem State.dropPorch_mem (s : State) (n : Nat) (keep : List Nat) (q : Nat) :
    (s.dropPorch n keep q).mem = s.mem := rfl

@[simp] theorem State.retireAll_mem (s : State) (l : List Nat) : (s.retireAll l).mem = s.mem := by
  induction l generalizing s with
  | nil => rfl
  | cons x l ih => simp [State.retireAll, ih]

@[simp] theorem State.fuse_mem (s : State) (k : Cond2) (w : Nat) : (s.fuse k w).mem = s.mem := by
  simp [State.fuse, apply_ite State.mem]

@[simp] theorem State.rejoin_mem (s : State) (k : Cond2) (w : Nat) : (s.rejoin k w).mem = s.mem := by
  simp [State.rejoin, apply_ite State.mem]

@[simp] theorem State.lockGo_mem (s : State) (n : Nat) (l : List Nat) : (s.lockGo n l).1.mem = s.mem := by
  induction l generalizing s with
  | nil => rfl
  | cons va l ih =>
    unfold State.lockGo
    dsimp only
    split
    · exact ih s
    · split
      · rfl
      · simp [ih]

@[simp] theorem State.gres_mem (s : State) (r : Nat) : (s.gres r).mem = s.mem := by
  unfold State.gres
  split <;> simp

@[simp] theorem State.gcol_mem (s : State) (r : Nat) (b : Option Bool) : (s.gcol r b).mem = s.mem := by
  unfold State.gcol
  repeat' split
  all_goals simp

/-! ### Waits, barriers and fences -/

@[simp] theorem State.armWake_mem (s : State) (n w lo hi : Nat) : (s.armWake n w lo hi).mem = s.mem := rfl

@[simp] theorem State.wsetAll_mem (s : State) (k : Cond2) (w : Nat) (l : List (Tag × SVal × SVal)) :
    (s.wsetAll k w l).mem = s.mem := by
  induction l generalizing s with
  | nil => rfl
  | cons x l ih =>
    refine (ih _).trans ?_
    split
    · rfl
    · split <;> simp

@[simp] theorem State.takeToken_mem (s : State) (d w : Nat) : (s.takeToken d w).mem = s.mem := by simp [State.takeToken]

@[simp] theorem State.arriveNow_mem (s : State) (k : Cond2) (b : Nat) : (s.arriveNow k b).mem = s.mem := by
  unfold State.arriveNow
  split <;> simp

@[simp] theorem State.onBarrier_mem (s : State) (cl b : Nat) (f : Barrier → Barrier) : (s.onBarrier cl b f).mem = s.mem := rfl

@[simp] theorem State.seePhase_mem (s : State) (b : Nat) : (s.seePhase b).mem = s.mem := rfl

@[simp] theorem State.barSet_mem (s : State) (h : Hdr) (o : CROp) (strict : Bool) : (s.barSet h o strict).mem = s.mem := by
  refine State.waiting_mem (State.underLit_mem ?_)
  split <;> simp [apply_ite State.mem]

@[simp] theorem State.larderFirst_mem {s f : State} (hf : f.mem = s.mem) : (s.larderFirst f).mem = s.mem := by
  unfold State.larderFirst
  split
  · exact hf
  · split
    · split <;> simp [hf]
    · split <;> simp [hf]

@[simp] theorem State.addFence_mem (s : State) (h : Hdr) (members heldB : List Nat) (ak : BitVec 5) :
    (s.addFence h members heldB ak).mem = s.mem := rfl

@[simp] theorem State.fencePoint_mem (s : State) (h : Hdr) (bk ak : BitVec 5) (sc : Nat) :
    (s.fencePoint h bk ak sc).mem = s.mem := by simp [State.fencePoint, apply_ite State.mem]

/-! ### Fetch -/

@[simp] theorem State.evict_mem (s : State) (n : Nat) (l : List Nat) : (s.evict n l).mem = s.mem := by
  induction l generalizing s n with
  | nil => rfl
  | cons x l ih => simp [State.evict, ih, apply_ite State.mem]

@[simp] theorem State.fillLines_mem (s : State) (n : Nat) (l : List Nat) : (s.fillLines n l).mem = s.mem := by
  induction l generalizing s with
  | nil => rfl
  | cons x l ih => simp [State.fillLines, ih]

/-! ### The fault buffer and traces -/

@[simp] theorem State.waitOn_mem (s : State) (f : Nat) (i : Option Nat) : (s.waitOn f i).mem = s.mem := rfl

@[simp] theorem State.tracePut_mem (s : State) (k n ty : Nat) (body : List Byte) : (s.tracePut k n ty body).mem = s.mem := rfl

@[simp] theorem State.traceRec_mem (s : State) (k n ty : Nat) (body : List Byte) : (s.traceRec k n ty body).mem = s.mem := by
  simp [State.traceRec, apply_ite State.mem]

@[simp] theorem State.traceSample_mem (s : State) (n : Nat) : (s.traceSample n).mem = s.mem := by simp [State.traceSample]

@[simp] theorem State.traceStop_mem (s : State) (n ba why : Nat) : (s.traceStop n ba why).mem = s.mem := by
  unfold State.traceStop
  split <;> simp

@[simp] theorem State.traceTrap_mem (s : State) (n : Nat) (t : TrapRec) (frame : List Byte) :
    (s.traceTrap n t frame).mem = s.mem := by
  unfold State.traceTrap
  split <;> simp

/-! ### Carry loops -/

@[simp] theorem State.joinRound_mem (s : State) (lead k : Nat) : (s.joinRound lead k).mem = s.mem := rfl

@[simp] theorem State.joinAll_mem (s : State) (lead : Nat) (l : List Nat) : (s.joinAll lead l).mem = s.mem := by
  induction l generalizing s with
  | nil => rfl
  | cons x l ih => simp [State.joinAll, ih]

@[simp] theorem State.startRound_mem (s : State) (lead : Nat) : (s.startRound lead).mem = s.mem := by simp [State.startRound]

@[simp] theorem State.abandonRound_mem (s : State) (lead : Nat) : (s.abandonRound lead).mem = s.mem := by
  simp [State.abandonRound, apply_ite State.mem]

@[simp] theorem State.markAll_mem (s : State) (addr : Nat) (l : List Nat) : (s.markAll addr l).mem = s.mem := by
  induction l generalizing s with
  | nil => rfl
  | cons x l ih => simp [State.markAll, ih]

@[simp] theorem State.cgo_mem (s : State) (h : Hdr) (o : CIOp) (w : Nat) : (s.cgo h o w).mem = s.mem := by
  unfold State.cgo
  dsimp only
  repeat' split
  all_goals simp

@[simp] theorem State.settleLits_mem (s : State) (taken k : Nat) (l : List Nat) : (s.settleLits taken k l).mem = s.mem := by
  induction l generalizing s taken k with
  | nil => rfl
  | cons x l ih => simp [State.settleLits, ih]

/-! ### Traps -/

@[simp] theorem State.rollback_mem (s : State) (n : Nat) : (s.rollback n).mem = s.mem := by
  unfold State.rollback
  split <;> simp

@[simp] theorem State.rollAll_mem (s : State) (l : List Nat) : (s.rollAll l).mem = s.mem := by
  induction l generalizing s with
  | nil => rfl
  | cons x l ih => simp [State.rollAll, ih]

@[simp] theorem State.rollGroup_mem (s : State) (n : Nat) : (s.rollGroup n).mem = s.mem := by
  simp [State.rollGroup, apply_ite State.mem]

@[simp] theorem State.dropCommands_mem (s : State) (ns : List Nat) : (s.dropCommands ns).mem = s.mem := rfl

@[simp] theorem State.stopAll_mem (s : State) (l : List Nat) : (s.stopAll l).mem = s.mem := by
  induction l generalizing s with
  | nil => rfl
  | cons x l ih => simp [State.stopAll, ih]

@[simp] theorem State.stopAt_mem (s : State) (ns : List Nat) : (s.stopAt ns).mem = s.mem := by simp [State.stopAt]

@[simp] theorem State.killKernel_mem (s : State) (k out : Nat) (frame : List Byte) :
    (s.killKernel k out frame).mem = s.mem := by
  unfold State.killKernel
  dsimp only
  repeat' split
  all_goals simp

@[simp] theorem State.fatal_mem (s : State) (n : Nat) (t : TrapRec) : (s.fatal n t).mem = s.mem := by simp [State.fatal]

@[simp] theorem State.storeFrame_mem (s : State) (n : Nat) (t : TrapRec) (g : Tgt) (f : List Byte) :
    (s.storeFrame n t g f).mem = s.mem := rfl

@[simp] theorem State.enterOne_mem (s : State) (n : Nat) (t : TrapRec) : (s.enterOne n t).mem = s.mem := by
  unfold State.enterOne
  split <;> simp

@[simp] theorem State.enterAll_mem (s : State) (t : TrapRec) (l : List Nat) : (s.enterAll t l).mem = s.mem := by
  induction l generalizing s with
  | nil => rfl
  | cons x l ih => simp [State.enterAll, ih]

@[simp] theorem State.takeTrap_mem (s : State) (n : Nat) (t : TrapRec) : (s.takeTrap n t).mem = s.mem := by
  unfold State.takeTrap
  split <;> simp

@[simp] theorem State.sretFrom_mem (s : State) (hm : Nat) : (s.sretFrom hm).mem = s.mem := by simp [State.sretFrom]

/-! ### Accesses that perform -/

@[simp] theorem State.tally_mem (s : State) (n id : Nat) : (s.tally n id).mem = s.mem := rfl

@[simp] theorem State.flitSent_mem (s : State) (x : Nat) : (s.flitSent x).mem = s.mem := rfl

@[simp] theorem State.completed_mem (s : State) (a : Acc) (bytes : List Byte) (bad : List Bool) :
    (s.completed a bytes bad).mem = s.mem := by
  unfold State.completed
  repeat' split
  all_goals simp

@[simp] theorem State.rebase_mem (s : State) (n : Nat) (b : BaseRef) (d : Word) (due : Nat) :
    (s.rebase n b d due).mem = s.mem := by
  unfold State.rebase
  split <;> simp

@[simp] theorem State.rebaseOpt_mem (s : State) (n : Nat) (b : Option BaseRef) (d : Word) (hops due : Nat) :
    (s.rebaseOpt n b d hops due).mem = s.mem := by
  unfold State.rebaseOpt
  repeat' split
  all_goals simp

@[simp] theorem State.reportAcc_mem (s : State) (a : Acc) (t : TrapRec) : (s.reportAcc a t).mem = s.mem := by
  unfold State.reportAcc
  split <;> simp

@[simp] theorem State.landData_mem (s : State) (r : Resp) : (s.landData r).mem = s.mem := by
  unfold State.landData
  dsimp only
  repeat' split
  all_goals simp

@[simp] theorem State.ackMerged_mem (s : State) (d : Word) (hops : Nat) (l : List Acc1) :
    (s.ackMerged d hops l).mem = s.mem := by
  induction l generalizing s with
  | nil => rfl
  | cons x l ih => unfold State.ackMerged; split <;> simp [ih]

@[simp] theorem State.faultMerged_mem (s : State) (t : TrapRec) (l : List Acc1) : (s.faultMerged t l).mem = s.mem := by
  induction l generalizing s with
  | nil => rfl
  | cons x l ih => simp [State.faultMerged, ih]

@[simp] theorem State.landAck_mem (s : State) (r : Resp) : (s.landAck r).mem = s.mem := by
  unfold State.landAck
  dsimp only
  repeat' split
  all_goals simp

@[simp] theorem State.addOut_mem (s : State) (n id kind : Nat) : (s.addOut n id kind).mem = s.mem := rfl

@[simp] theorem State.enqCopy_mem (s : State) (c : CopyCmd) : (s.enqCopy c).mem = s.mem := by
  unfold State.enqCopy
  repeat' split
  all_goals simp

@[simp] theorem State.enqReloc_mem (s : State) (c : RelocCmd) : (s.enqReloc c).mem = s.mem := rfl

@[simp] theorem State.enqLink_mem (s : State) (c : LinkCmd) : (s.enqLink c).mem = s.mem := by
  unfold State.enqLink
  split <;> simp

@[simp] theorem State.enqRoutine_mem (s : State) (r : Routine) : (s.enqRoutine r).mem = s.mem := rfl

@[simp] theorem State.raiseHeld_mem (s : State) (n id : Nat) (t : TrapRec) : (s.raiseHeld n id t).mem = s.mem := by
  unfold State.raiseHeld
  split <;> simp

@[simp] theorem State.performHeld_mem (s : State) (n : Nat) (e : Held) : (s.performHeld n e).mem = s.mem := by
  unfold State.performHeld
  dsimp only
  repeat' split
  all_goals simp

@[simp] theorem State.releaseGo_mem (s : State) (n : Nat) (keep : Bool) (l : List Held) :
    (s.releaseGo n keep l).mem = s.mem := by
  induction l generalizing s n keep with
  | nil => rfl
  | cons x l ih =>
    unfold State.releaseGo
    repeat' split
    all_goals simp [ih]

@[simp] theorem State.release_mem (s : State) (n : Nat) : (s.release n).mem = s.mem := by
  simp [State.release, apply_ite State.mem]

/-! ### The window -/

@[simp] theorem State.windowRead_mem (s : State) (o n : Nat) : (s.windowRead o n).mem = s.mem := by
  unfold State.windowRead
  split <;> simp

@[simp] theorem State.homeSeen_mem (s : State) (hm n : Nat) : (s.homeSeen hm n).mem = s.mem := by
  unfold State.homeSeen
  split <;> simp

/-! ### Switches and reports -/

@[simp] theorem State.nodeStore_mem (s : State) (a : Nat) (bs : List Byte) : (s.nodeStore a bs).mem = s.mem := rfl

@[simp] theorem State.answer_mem (s : State) (node : Nat) (refused : Bool) (bs : List Byte) (mark : Bool) :
    (s.answer node refused bs mark).mem = s.mem := by
  unfold State.answer
  split <;> simp

@[simp] theorem State.queueAt_mem (s : State) (a : Acc) : (s.queueAt a).mem = s.mem := rfl

@[simp] theorem State.engineTrap_mem (s : State) (n : Nat) (t : TrapRec) : (s.engineTrap n t).mem = s.mem := rfl

/-! ### Copies -/

@[simp] theorem State.copyAll_mem (s : State) (h : Hdr) (o : QOp) (op : Nat) (ds : List XShape) (k : Cond2)
    (l : List CopyTry) : (s.copyAll h o op ds k l).mem = s.mem := by
  induction l generalizing s h o op ds k with
  | nil => rfl
  | cons x l ih => simp [State.copyAll, ih, apply_ite State.mem]

@[simp] theorem State.copySteps_mem (s : State) (o : QOp) (op : Nat) (oD : XShape) (k : Cond2) :
    (s.copySteps o op oD k).mem = s.mem := by
  unfold State.copySteps
  split <;> simp

@[simp] theorem State.copyOp_mem (s : State) (h : Hdr) (o : QOp) (op : Nat) : (s.copyOp h o op).mem = s.mem := by
  refine State.guarded_mem fun k => State.withTraps_mem ?_
  split
  · rfl
  · split <;> simp

@[simp] theorem State.sweepAll_mem (s : State) (h : Hdr) (o : QOp) (k : Cond2) : (s.sweepAll h o k a).mem = s.mem := by
  induction a generalizing s h o k with
  | nil => rfl
  | cons x l ih => simp [State.sweepAll, ih, apply_ite State.mem]

@[simp] theorem State.setCmd_mem (s : State) (cl : Nat) (c : CopyCmd) : (s.setCmd cl c).mem = s.mem := rfl

@[simp] theorem State.rebaseNow_mem (s : State) (n : Nat) (base : Option BaseRef) (d : Option Word) :
    (s.rebaseNow n base d).mem = s.mem := by
  unfold State.rebaseNow
  split <;> simp

@[simp] theorem State.sweepRegs_mem (s : State) (n : Nat) : (s.sweepRegs n).mem = s.mem := rfl

@[simp] theorem State.copyGone_mem (s : State) (cl : Nat) (c : CopyCmd) : (s.copyGone cl c).mem = s.mem := by
  unfold State.copyGone
  split <;> simp

/-! ### Relocations -/

@[simp] theorem State.relocAll_mem (s : State) (k : Cond2) (l : List (Tag × RelocCmd)) : (s.relocAll k l).mem = s.mem := by
  induction l generalizing s k with
  | nil => rfl
  | cons x l ih => simp [State.relocAll, ih, apply_ite State.mem]

@[simp] theorem State.relocOp_mem (s : State) (k : Cond2) (cs : List (Tag × Sum TrapRec RelocCmd)) :
    (s.relocOp k cs).mem = s.mem := by
  refine State.withTraps_mem ?_
  split
  · rfl
  · split <;> simp

@[simp] theorem State.unmark_mem (s : State) (h : Hdr) (o : QOp) (op : Nat) : (s.unmark h o op).mem = s.mem :=
  State.guarded_mem fun k => s.relocOp_mem k _

@[simp] theorem State.beginStat_mem (s : State) (a : Acc) : (s.beginStat a).mem = s.mem := by
  unfold State.beginStat
  split <;> simp

@[simp] theorem State.setReloc_mem (s : State) (w : Nat) (c : RelocCmd) : (s.setReloc w c).mem = s.mem := rfl

@[simp] theorem State.dropReloc_mem (s : State) (w : Nat) (c : RelocCmd) : (s.dropReloc w c).mem = s.mem := rfl

/-! ### The vector slot -/

@[simp] theorem State.illegalNow_mem (s : State) : s.illegalNow.mem = s.mem := rfl

@[simp] theorem State.addEvents_mem (s : State) (k : Cond2) (lat : Nat) (outs : List (Tag × VRes)) :
    (s.addEvents k lat outs).mem = s.mem := rfl

@[simp] theorem State.vop_mem (s : State) (h : Hdr) (o : VOp) (ok : Bool) (lat : Nat) (outs : List (Tag × VRes)) :
    (s.vop h o ok lat outs).mem = s.mem := by
  unfold State.vop
  split
  · simp
  · exact State.guarded_mem fun k => State.withArrivals_mem (by simp)

@[simp] theorem State.v1_mem (s : State) (h : Hdr) (o : VOp) (ok : Bool) (lat : Nat) (f : Nat → ERes) :
    (s.v1 h o ok lat f).mem = s.mem := s.vop_mem _ _ _ _ _

@[simp] theorem State.v2_mem (s : State) (h : Hdr) (o : VOp) (lat : Nat) (f : Nat → Nat → ERes) :
    (s.v2 h o lat f).mem = s.mem := s.vop_mem _ _ _ _ _

@[simp] theorem State.v3_mem (s : State) (h : Hdr) (o : VOp) (lat : Nat) (f : Nat → Nat → Nat → ERes) :
    (s.v3 h o lat f).mem = s.mem := s.vop_mem _ _ _ _ _

@[simp] theorem State.vMove_mem (s : State) (h : Hdr) (o : VOp) (idx : Nat → List (Nat × Bool)) :
    (s.vMove h o idx).mem = s.mem := s.vop_mem _ _ _ _ _

@[simp] theorem State.vShift_mem (s : State) (h : Hdr) (o : VOp) (op : Nat) : (s.vShift h o op).mem = s.mem := by
  unfold State.vShift
  split <;> simp

/-! ### Matrix calls -/

@[simp] theorem State.issueRoutine_mem (s : State) (tag : Tag) (r : Routine) : (s.issueRoutine tag r).mem = s.mem := by
  unfold State.issueRoutine
  split <;> simp

@[simp] theorem State.callOp_mem (s : State) (k : Cond2) (t : Option TrapRec) (r : Routine) :
    (s.callOp k t r).mem = s.mem := by
  unfold State.callOp
  split
  · simp
  · refine State.withTraps_mem ?_
    split
    · rfl
    · split <;> simp

@[simp] theorem State.mpgmAll_mem (s : State) (h : Hdr) (o : KCOp) (k : Cond2) (l : List (Tag × SVal)) :
    (s.mpgmAll h o k l).mem = s.mem := by
  induction l generalizing s with
  | nil => rfl
  | cons x l ih => simp [State.mpgmAll, ih]

/-! ### Array routines -/

@[simp] theorem State.setRoutine_mem (s : State) (k : Nat) (r : Routine) : (s.setRoutine k r).mem = s.mem := rfl

@[simp] theorem State.dropRoutine_mem (s : State) (k : Nat) (r : Routine) : (s.dropRoutine k r).mem = s.mem := rfl

@[simp] theorem State.killRoutine_mem (s : State) (k : Nat) (r : Routine) (t : TrapRec) :
    (s.killRoutine k r t).mem = s.mem := rfl

@[simp] theorem State.rebaseMp_mem (s : State) (r : Routine) (side d : Nat) : (s.rebaseMp r side d).mem = s.mem := by
  unfold State.rebaseMp
  split <;> simp

@[simp] theorem State.freeTile_mem (s : State) (k t : Nat) (l : List Nat) : (s.freeTile k t l).mem = s.mem := by
  induction l generalizing s with
  | nil => rfl
  | cons x l ih => simp [State.freeTile, ih]

@[simp] theorem State.uopDone_mem (s : State) (r : Routine) (le : Bool) (cost : Nat) : (s.uopDone r le cost).mem = s.mem := by
  unfold State.uopDone
  split <;> simp

@[simp] theorem State.uopPlain_mem (s : State) (u : UopArg) (f : Routine → Routine) : (s.uopPlain u f).mem = s.mem := by
  unfold State.uopPlain
  split <;> simp

/-! ### Links -/

@[simp] theorem State.sendAll_mem (s : State) (h : Hdr) (o : QOp) (k : Cond2) : (s.sendAll h o k a).mem = s.mem := by
  induction a generalizing s h o k with
  | nil => rfl
  | cons x l ih => simp [State.sendAll, ih, apply_ite State.mem]

@[simp] theorem State.receive_mem (s : State) (h : Hdr) (o : QOp) (op dst src : Nat) (tick : Word) (timed : Bool) :
    (s.receive h o op dst src tick timed).mem = s.mem := by simp [State.receive, apply_ite State.mem]

@[simp] theorem State.setLink_mem (s : State) (c : LinkCmd) : (s.setLink c).mem = s.mem := rfl

@[simp] theorem State.dropLink_mem (s : State) (c : LinkCmd) : (s.dropLink c).mem = s.mem := rfl

@[simp] theorem State.linkGone_mem (s : State) (c : LinkCmd) : (s.linkGone c).mem = s.mem := by
  unfold State.linkGone
  split <;> simp

@[simp] theorem State.consume_mem (s : State) (c : LinkCmd) : (s.consume c).mem = s.mem := by
  simp [State.consume, apply_ite State.mem]

@[simp] theorem State.flitIn_mem (s : State) (f : Flit) : (s.flitIn f).mem = s.mem := rfl

@[simp] theorem State.flitHere_mem (s : State) (f : Flit) (away : Bool) : (s.flitHere f away).mem = s.mem := by
  unfold State.flitHere
  split <;> simp

/-! ### The sort unit -/

@[simp] theorem State.nChange_mem (s : State) (x : NChg) : (s.nChange x).mem = s.mem := rfl

@[simp] theorem State.nOp_mem {s : State} {h : Hdr} {uses : List (List (Tag × SVal))} {others : Bool} {lat : Nat}
    {f : Cond2 → State} (hf : ∀ k, (f k).mem = s.mem) : (s.nOp h uses others lat f).mem = s.mem := by
  refine State.waitingN_mem fun k => ?_
  split <;> simp [hf]

/-! ### Special registers -/

@[simp] theorem State.csrClear_mem (s : State) (n num : Nat) : (s.csrClear n num).mem = s.mem := by
  unfold State.csrClear
  split <;> simp

@[simp] theorem State.csrPut_mem (s : State) (num : Nat) (v : Word) : (s.csrPut num v).mem = s.mem := by
  unfold State.csrPut
  repeat' split
  all_goals simp

@[simp] theorem State.reloadAsid_mem (s : State) (asid : BitVec 16) (lo len lvl : Nat) :
    (s.reloadAsid asid lo len lvl).mem = s.mem := rfl

@[simp] theorem State.invStart_mem (s : State) (n : Nat) (asid : BitVec 16) (lo len lvl : Nat) :
    (s.invStart n asid lo len lvl).mem = s.mem := rfl

@[simp] theorem State.invq_mem (s : State) (h : Hdr) (o : CROp) (lvl : Nat) : (s.invq h o lvl).mem = s.mem := by
  refine State.waiting_mem ?_
  split
  · rfl
  · split
    · rfl
    · exact State.larderFirst_mem (by split <;> simp)

@[simp] theorem State.spawnAll_mem (s : State) (prio : Nat) (k : Cond2) (l : List (Tag × Nat × Nat)) :
    (s.spawnAll prio k l).mem = s.mem := by
  induction l generalizing s prio k with
  | nil => rfl
  | cons x l ih => simp [State.spawnAll, ih, apply_ite State.mem]

/-! ### Groups -/

@[simp] theorem State.reportTo_mem (s : State) (t : TrapRec) (l : List Nat) : (s.reportTo t l).mem = s.mem := by
  induction l generalizing s with
  | nil => rfl
  | cons x l ih => simp [State.reportTo, ih]

@[simp] theorem State.takeGroup_mem (s : State) (n va : Nat) (bs : List (Nat × RawBundle)) :
    (s.takeGroup n va bs).mem = s.mem := rfl

@[simp] theorem State.issueGroup_mem (s : State) (n : Nat) : (s.issueGroup n).mem = s.mem := by
  unfold State.issueGroup
  dsimp only
  repeat' split
  all_goals simp

/-! ### The issue of a bundle -/

@[simp] theorem State.emptyCycle_mem (s : State) (n : Nat) : (s.emptyCycle n).mem = s.mem := by simp [State.emptyCycle]

@[simp] theorem State.freezeOn_mem (s : State) (t : Nat) (js : List Job) (l : List Nat) :
    (s.freezeOn t js l).mem = s.mem := by
  induction l generalizing s with
  | nil => rfl
  | cons x l ih => unfold State.freezeOn; split <;> simp [ih]

@[simp] theorem State.overdue_mem (s : State) (t : Nat) (js : List Job) (l : List Nat) : (s.overdue t js l).mem = s.mem := by
  induction l generalizing s t js with
  | nil => rfl
  | cons x l ih => simp [State.overdue, ih, apply_ite State.mem]

@[simp] theorem State.arriveDue_mem (s : State) (n t : Nat) (l : List ArrP) : (s.arriveDue n t l).mem = s.mem := by
  induction l generalizing s with
  | nil => rfl
  | cons x l ih => unfold State.arriveDue; split <;> simp [ih]

@[simp] theorem State.dogClear_mem (s : State) (n t : Nat) : (s.dogClear n t).mem = s.mem := by
  unfold State.dogClear
  split <;> simp

@[simp] theorem State.pullOne_mem (s : State) (t k n : Nat) : (s.pullOne t k n).mem = s.mem := by
  simp [State.pullOne, apply_ite State.mem]

@[simp] theorem State.pullAll_mem (s : State) (t k : Nat) (l : List Nat) : (s.pullAll t k l).mem = s.mem := by
  induction l generalizing s with
  | nil => rfl
  | cons x l ih => simp [State.pullAll, ih]

@[simp] theorem State.endGroup_mem (s : State) (n : Nat) : (s.endGroup n).mem = s.mem := by
  simp [State.endGroup, apply_ite State.mem]

@[simp] theorem State.popGo_mem (s : State) (n : Nat) (l : List GBundle) : (s.popGo n l).mem = s.mem := by
  induction l generalizing s with
  | nil => rfl
  | cons x l ih => unfold State.popGo; split <;> simp [ih]

@[simp] theorem State.popHead_mem (s : State) (n : Nat) : (s.popHead n).mem = s.mem := by simp [State.popHead]

@[simp] theorem State.gouge_mem (s : State) (n : Nat) (b : GBundle) : (s.gouge n b).mem = s.mem := by
  simp [State.gouge, apply_ite State.mem]

@[simp] theorem State.notSpecHere_mem (s : State) (h : Hdr) : (s.notSpecHere h).mem = s.mem :=
  State.guarded_mem fun _ => State.withRoom_mem (s.raiseTag_mem _ _)

@[simp] theorem State.latchFor_mem (s : State) (lead : Nat) (b : GBundle) (t : Nat) (j : Job) :
    (s.latchFor lead b t j).mem = s.mem := rfl

@[simp] theorem State.reportTraps_mem (s : State) (l : List (Nat × TrapRec)) : (s.reportTraps l).mem = s.mem := by
  induction l generalizing s with
  | nil => rfl
  | cons x l ih => simp [State.reportTraps, ih]

@[simp] theorem State.markHere_mem (s : State) (addr : Nat) (l : List Nat) : (s.markHere addr l).mem = s.mem := by
  induction l generalizing s with
  | nil => rfl
  | cons x l ih => simp [State.markHere, ih]

@[simp] theorem State.delayAhead_mem (s : State) (n u : Nat) : (s.delayAhead n u).mem = s.mem := rfl

@[simp] theorem State.idle_mem (s : State) (n : Nat) : (s.idle n).mem = s.mem := by
  unfold State.idle
  repeat' split
  all_goals simp

@[simp] theorem State.waitHere_mem (s : State) (n m : Nat) (l : LStat) : (s.waitHere n m l).mem = s.mem := by
  unfold State.waitHere
  dsimp only
  repeat' split
  all_goals simp

@[simp] theorem State.countAll_mem (s : State) (depth : Nat) (js : List Job) (l : List Nat) :
    (s.countAll depth js l).mem = s.mem := by
  induction l generalizing s with
  | nil => rfl
  | cons x l ih => simp [State.countAll, ih]

@[simp] theorem State.armAll_mem (s : State) (js : List Job) (l : List Nat) : (s.armAll js l).mem = s.mem := by
  induction l generalizing s with
  | nil => rfl
  | cons x l ih => simp [State.armAll, ih]

@[simp] theorem State.endMarks_mem (s : State) (lead : Nat) (l : List Nat) : (s.endMarks lead l).mem = s.mem := by
  induction l generalizing s with
  | nil => rfl
  | cons x l ih => unfold State.endMarks; split <;> simp [ih]

@[simp] theorem State.afterBundle_mem (s : State) (n was : Nat) (ms : List Nat) : (s.afterBundle n was ms).mem = s.mem := by
  simp [State.afterBundle, apply_ite State.mem]

@[simp] theorem State.takeUnits_mem (s : State) (l : List Job) : (s.takeUnits l).mem = s.mem := by
  induction l generalizing s with
  | nil => rfl
  | cons x l ih => simp [State.takeUnits, ih]

@[simp] theorem State.headDone_mem (s s0 : State) (n : Nat) (b : GBundle) (js : List Job) :
    (s.headDone s0 n b js).mem = s.mem := by simp [State.headDone, apply_ite State.mem]

@[simp] theorem State.nameBefore_mem (s : State) (n idx : Nat) : (s.nameBefore n idx).mem = s.mem := rfl

@[simp] theorem State.laterDone_mem (s : State) (n idx : Nat) (js : List Job) : (s.laterDone n idx js).mem = s.mem := by
  simp [State.laterDone]

@[simp] theorem State.laterEarly_mem (s : State) (n idx : Nat) (js : List Job) : (s.laterEarly n idx js).mem = s.mem := by
  simp [State.laterEarly]

@[simp] theorem State.gougeLater_mem (s : State) (n idx t : Nat) : (s.gougeLater n idx t).mem = s.mem := by
  simp [State.gougeLater]

@[simp] theorem State.restartHead_mem (s : State) (n : Nat) (b : GBundle) : (s.restartHead n b).mem = s.mem := by
  unfold State.restartHead
  split <;> simp

@[simp] theorem State.settleB_mem (s0 s : State) (n : Nat) : (State.settleB s0 s n).mem = s.mem := by
  simp [State.settleB, apply_ite State.mem]

/-! ### Events -/

@[simp] theorem State.rename_mem (s : State) (n m : Nat) : (s.rename n m).mem = s.mem := rfl

@[simp] theorem State.leaveQueues_mem (s : State) (m : Nat) : (s.leaveQueues m).mem = s.mem := rfl

@[simp] theorem State.switchOne_mem (s : State) (n : Nat) : (s.switchOne n).mem = s.mem := rfl

@[simp] theorem State.switchAll_mem (s : State) (l : List Nat) : (s.switchAll l).mem = s.mem := by
  induction l generalizing s with
  | nil => rfl
  | cons x l ih => simp [State.switchAll, ih]

@[simp] theorem State.haltedAway_mem (s : State) (l : List Nat) : (s.haltedAway l).mem = s.mem := by
  induction l generalizing s with
  | nil => rfl
  | cons x l ih => simp [State.haltedAway, ih]

@[simp] theorem State.kernelOut_mem (s : State) (k : Nat) : (s.kernelOut k).mem = s.mem := by
  unfold State.kernelOut
  dsimp only
  repeat' split
  all_goals simp

@[simp] theorem State.keptFor_mem (s : State) (n : Nat) (l : List Flit) : (s.keptFor n l).mem = s.mem := by
  induction l generalizing s with
  | nil => rfl
  | cons x l ih => unfold State.keptFor; split <;> simp [ih]

@[simp] theorem State.resumeRound_mem (s : State) (n : Nat) : (s.resumeRound n).mem = s.mem := by
  simp [State.resumeRound, apply_ite State.mem]

@[simp] theorem State.traceStops_mem (s : State) (ba why : Nat) (l : List Nat) : (s.traceStops ba why l).mem = s.mem := by
  induction l generalizing s with
  | nil => rfl
  | cons x l ih => simp [State.traceStops, ih]

@[simp] theorem State.sampleAll_mem (s : State) (l : List Nat) : (s.sampleAll l).mem = s.mem := by
  induction l generalizing s with
  | nil => rfl
  | cons x l ih => unfold State.sampleAll; split <;> simp [ih]

/-! ### Launches -/

@[simp] theorem State.activate_mem (s : State) (as : List Activation) : (s.activate as).mem = s.mem := rfl

@[simp] theorem State.takeEntry_mem (s : State) : s.takeEntry.mem = s.mem := rfl

@[simp] theorem State.dropKernel_mem (s : State) (id : Nat) : (s.dropKernel id).mem = s.mem := rfl

@[simp] theorem State.clearPre_mem (s : State) (l : List Nat) : (s.clearPre l).mem = s.mem := by
  induction l generalizing s with
  | nil => rfl
  | cons x l ih => unfold State.clearPre; split <;> simp [ih]

@[simp] theorem State.startCore_mem (s : State) (r n : Nat) (shared : Bool) : (s.startCore r n shared).mem = s.mem := rfl

@[simp] theorem State.presetBars_mem (s : State) (r cl : Nat) : (s.presetBars r cl).mem = s.mem := rfl

@[simp] theorem State.fenAll_mem (s : State) (on : Bool) (l : List Nat) : (s.fenAll on l).mem = s.mem := by
  induction l generalizing s with
  | nil => rfl
  | cons x l ih => simp [State.fenAll, ih]

@[simp] theorem State.presetAll_mem (s : State) (r : Nat) (l : List Nat) : (s.presetAll r l).mem = s.mem := by
  induction l generalizing s with
  | nil => rfl
  | cons x l ih => simp [State.presetAll, ih]

@[simp] theorem State.setKernel_mem (s : State) (id : Nat) (k : Kernel) : (s.setKernel id k).mem = s.mem := rfl

@[simp] theorem State.discardFor_mem (s : State) (id : Nat) (k : Kernel) : (s.discardFor id k).mem = s.mem := by
  simp [State.discardFor, State.discard_mem]

@[simp] theorem State.fillPre_mem (s : State) (r : Nat) (l : List Nat) : (s.fillPre r l).mem = s.mem := by
  induction l generalizing s with
  | nil => rfl
  | cons x l ih => simp [State.fillPre, ih]

@[simp] theorem State.request_mem (s : State) (id : Nat) (k : Kernel) : (s.request id k).mem = s.mem := by
  simp [State.request]

@[simp] theorem State.requestAll_mem (s : State) (l : List (Nat × Kernel)) : (s.requestAll l).mem = s.mem := by
  induction l generalizing s with
  | nil => rfl
  | cons x l ih => simp [State.requestAll, ih]

@[simp] theorem State.freeAll_mem (s : State) (l : List Nat) : (s.freeAll l).mem = s.mem := by
  induction l generalizing s with
  | nil => rfl
  | cons x l ih => simp [State.freeAll, ih]

/-! ### The platform -/

@[simp] theorem State.serviceEnd_mem (s : State) (res : BitVec 8) : (s.serviceEnd res).mem = s.mem := rfl

@[simp] theorem State.askLeave_mem (s : State) : s.askLeave.mem = s.mem := by simp [State.askLeave, apply_ite State.mem]

@[simp] theorem State.serviceRequest_mem (s : State) (v : Word) : (s.serviceRequest v).mem = s.mem := by
  simp [State.serviceRequest, apply_ite State.mem]

@[simp] theorem State.windowPut_mem (s : State) (o : Nat) (v : Word) : (s.windowPut o v).mem = s.mem := by
  unfold State.windowPut
  repeat' split
  all_goals simp

@[simp] theorem State.windowGo_mem (s : State) (a : Nat) (bs : List Byte) (l : List Nat) :
    (s.windowGo a bs l).mem = s.mem := by
  induction l generalizing s with
  | nil => rfl
  | cons o l ih => simp [State.windowGo, ih]

@[simp] theorem State.windowStore_mem (s : State) (a : Nat) (bs : List Byte) : (s.windowStore a bs).mem = s.mem := by
  unfold State.windowStore
  split <;> simp

@[simp] theorem State.installOne_mem (s : State) (pack idx ar : Nat) : (s.installOne pack idx ar).2.mem = s.mem := by
  unfold State.installOne
  dsimp only
  repeat' split
  all_goals simp

@[simp] theorem State.installAll_mem (s : State) (pack idx : Nat) (l : List Nat) : (s.installAll pack idx l).mem = s.mem := by
  induction l generalizing s with
  | nil => rfl
  | cons x l ih => simp [State.installAll, ih]

@[simp] theorem State.enqMoves_mem (s : State) (l : List RelocCmd) : (s.enqMoves l).mem = s.mem := by
  induction l generalizing s with
  | nil => rfl
  | cons x l ih => unfold State.enqMoves; split <;> simp [ih]

@[simp] theorem State.windowAtomic_mem (s : State) (o : Nat) (r : FabReq) : (s.windowAtomic o r).1.mem = s.mem := by
  simp [State.windowAtomic, apply_ite State.mem]

@[simp] theorem State.fabricHold_mem (s : State) (r : FabReq) : (s.fabricHold r).mem = s.mem := rfl

/-! ### The network -/

@[simp] theorem State.depart1_mem (s : State) (a : Acc) : (s.depart1 a).mem = s.mem := by
  unfold State.depart1
  dsimp only
  repeat' split
  all_goals simp

@[simp] theorem State.leaveNet_mem (s : State) (a : Acc) : (s.leaveNet a).mem = s.mem := rfl

@[simp] theorem State.bounce_mem (s : State) (a : Acc) (code : TrapCode) (i0 : Nat) : (s.bounce a code i0).mem = s.mem := rfl

@[simp] theorem State.chase_mem (s : State) (a : Acc) : (s.chase a).mem = s.mem := by
  unfold State.chase
  dsimp only
  repeat' split
  all_goals simp

@[simp] theorem State.answerAcc_mem (s : State) (a : Acc) (bs : List Byte) (bad : List Bool) :
    (s.answerAcc a bs bad).mem = s.mem := rfl

@[simp] theorem State.homeWindow_mem (s : State) (a : Acc) (o : Nat) : (s.homeWindow a o).mem = s.mem := by
  unfold State.homeWindow
  split
  · simp
  · split <;> simp [apply_ite State.mem]

@[simp] theorem State.queueStore_mem (s : State) (a : Acc) : (s.queueStore a).mem = s.mem := rfl

/-! ### The cycle -/

@[simp] theorem State.stepBarriers_mem (s : State) : s.stepBarriers.mem = s.mem :=
  foldl_mem (f := fun s cl => s.setCluster cl _) (fun _ _ => rfl) _ s

@[simp] theorem State.tickCores_mem (s : State) : s.tickCores.mem = s.mem := rfl

@[simp] theorem State.resolveAll_mem (s : State) (l : List Nat) : (s.resolveAll l).mem = s.mem := by
  induction l generalizing s with
  | nil => rfl
  | cons x l ih => simp [State.resolveAll, ih, apply_ite State.mem]

@[simp] theorem State.meetFences_mem (s : State) (n : Nat) (l : List FencePt) : (s.meetFences n l).mem = s.mem := by
  induction l generalizing s with
  | nil => rfl
  | cons f l ih =>
    refine (ih _).trans ?_
    split
    · rfl
    · split <;> simp

@[simp] theorem State.killPorch_mem (s : State) (n : Nat) : (s.killPorch n).mem = s.mem := by
  simp [State.killPorch, apply_ite State.mem]

@[simp] theorem State.killPorches_mem (s : State) (l : List Nat) : (s.killPorches l).mem = s.mem := by
  induction l generalizing s with
  | nil => rfl
  | cons x l ih => simp [State.killPorches, ih]

@[simp] theorem State.endCtx_mem (s : State) (n : Nat) : (s.endCtx n).mem = s.mem := by simp [State.endCtx]

@[simp] theorem State.endCtxs_mem (s : State) (l : List Nat) : (s.endCtxs l).mem = s.mem := by
  induction l generalizing s with
  | nil => rfl
  | cons x l ih => simp [State.endCtxs, ih]

@[simp] theorem State.copyBack_mem (s : State) (c : CopyCmd) : (s.copyBack c).mem = s.mem := by
  unfold State.copyBack
  split <;> simp

@[simp] theorem State.routineBack_mem (s : State) (r : Routine) : (s.routineBack r).mem = s.mem := by
  unfold State.routineBack
  split <;> simp

@[simp] theorem State.commandsBack_mem (s : State) : s.commandsBack.mem = s.mem :=
  (foldl_mem (fun s r => s.routineBack_mem r) _ _).trans (foldl_mem (fun s c => s.copyBack_mem c) _ s)

@[simp] theorem State.superstepsDone_mem (s : State) : s.superstepsDone.mem = s.mem := rfl

@[simp] theorem State.nextCycle_mem (s : State) : s.nextCycle.mem = s.mem := rfl

@[simp] theorem State.again_mem (s : State) (ns : List Nat) : (s.again ns).mem = s.mem := rfl

end Sys2Proof.Machine
end

section
/-! PROOFS. Memory stays canonical: the L slot, which reads memory and corrects its check bits. -/

namespace Sys2Proof.Machine

/-! ### The bytes of memory through the L slot -/

theorem State.guarded_of {P : Mem → Prop} {s : State} {h : Hdr} {f : Cond2 → State} (hs : P s.mem) (hf : ∀ k, P (f k).mem) :
    P (s.guarded h f).mem := by
  unfold State.guarded
  split
  · exact hs
  · exact hf _

theorem State.withTraps_of {P : Mem → Prop} {s : State} {traps : List (Tag × TrapRec)} {more : Nat} {f : State → State}
    {st : Bool} (hs : P s.mem) (hf : P (f s).mem) : P (s.withTraps traps more f st).mem := by
  unfold State.withTraps State.withRoom
  repeat' split
  all_goals simpa

theorem State.waiting_of {P : Mem → Prop} {s f : State} {h : Hdr} {srcs : List (List (Tag × SVal))} (hs : P s.mem)
    (hf : P f.mem) : P (s.waiting h srcs f).mem := by
  unfold State.waiting State.waitingN
  split
  · exact hs
  · exact State.guarded_of hs fun k => by split <;> assumption

theorem State.forTries_of {α : Type} {P : Mem → Prop} {f : State → Try α → Tgt → State}
    (hf : ∀ s z t, P s.mem → P (f s z t).mem) {s : State} (hs : P s.mem) (l : List (Try α)) : P (s.forTries f l).mem := by
  induction l generalizing s with
  | nil => exact hs
  | cons z l ih =>
    unfold State.forTries
    split
    · exact ih hs
    · exact ih (hf _ _ _ hs)

@[simp] theorem State.correct_cells (s : State) (home n : Nat) (c : Option Nat) :
    (s.correct home n c).mem.cells = s.mem.cells := by
  unfold State.correct
  dsimp only
  split
  · split <;> rfl
  · rfl

@[simp] theorem State.touch_cells (s : State) (kindB : Nat) (ea : Word) (n : Nat) (t : Tgt) :
    (s.touch kindB ea n t).mem.cells = s.mem.cells := by
  unfold State.touch
  dsimp only
  repeat' split
  all_goals simp

theorem State.loadFixed_cells (s : State) (h : Hdr) (o : MOp) {put : State → Cond2 → Nat → List (Tag × Got) → State}
    (hput : ∀ s k lat outs, (put s k lat outs).mem = s.mem) : (s.loadFixed h o put).mem.cells = s.mem.cells := by
  refine State.guarded_of (P := fun m => m.cells = s.mem.cells) rfl fun k => ?_
  refine State.withTraps_of (P := fun m => m.cells = s.mem.cells) rfl ?_
  split
  · rfl
  · split
    · rfl
    · simp only [State.arriveAt_mem, State.postStep_mem]
      exact State.forTries_of (P := fun m => m.cells = s.mem.cells) (fun s z t hs => by simpa using hs) (by simp [hput]) _

theorem State.parts_mem {s t : State} {h : Hdr} {o : MOp} {k : Cond2} {kind : AccKind} {dst : AccDst} {n due : Nat}
    {fwd : Bool} {l : List (Try Unit)} {ps : List (Tag × Part)} (hp : s.parts h o k kind dst n due fwd l = some (t, ps)) :
    t.mem = s.mem := by
  induction l generalizing s t ps with
  | nil => simp_all [State.parts]
  | cons z l ih =>
    unfold State.parts at hp
    split at hp
    · obtain ⟨x, hx, he⟩ := Option.map_eq_some_iff.1 hp
      cases he
      exact ih hx
    · split at hp
      · cases hp
      · obtain ⟨x, hx, he⟩ := Option.map_eq_some_iff.1 hp
        cases he
        refine (ih hx).trans ?_
        refine List.foldlRecOn (motive := fun q : State × List (Tag × Part) => q.1.mem = s.mem) _ _ rfl fun q hq p _ => ?_
        split
        · exact hq
        · simpa using hq

theorem State.loadTimed_cells (s : State) (h : Hdr) (o : MOp) (kind : AccKind) (dst : AccDst) (n : Nat)
    {put : State → Cond2 → Nat → List (Tag × Part) → State} (hput : ∀ s k lat ps, (put s k lat ps).mem = s.mem) :
    (s.loadTimed h o kind dst n put).mem.cells = s.mem.cells := by
  refine State.guarded_of (P := fun m => m.cells = s.mem.cells) rfl fun k => ?_
  refine State.withTraps_of (P := fun m => m.cells = s.mem.cells) rfl ?_
  split
  · rfl
  · split
    · rfl
    · next s1 ps hp =>
      split
      · rfl
      · simp only [State.arriveAt_mem, State.postStep_mem]
        refine State.forTries_of (P := fun m => m.cells = s.mem.cells) (fun s z t hs => ?_) ?_ _
        · split <;> simpa using hs
        · simp [hput, State.parts_mem hp]

theorem State.storeOp_cells {w p : Nat} (s : State) (h : Hdr) (o : MOp) (data : List (Tag × Val w p))
    (use : Val w p → Word → Option TrapRec) : (s.storeOp h o data use).mem.cells = s.mem.cells := by
  refine State.guarded_of (P := fun m => m.cells = s.mem.cells) rfl fun k => ?_
  refine State.withTraps_of (P := fun m => m.cells = s.mem.cells) rfl ?_
  split
  · rfl
  · rw [State.postStepBut_mem]
    refine State.forTries_of (P := fun m => m.cells = s.mem.cells) (fun s z t hs => ?_) rfl _
    rw [State.storeOne_mem]
    split <;> simpa using hs

theorem State.atomSend_cells (s : State) (h : Hdr) (o : MOp) (aop : Nat) : (s.atomSend h o aop).mem.cells = s.mem.cells := by
  refine State.guarded_of (P := fun m => m.cells = s.mem.cells) rfl fun k => ?_
  refine State.withTraps_of (P := fun m => m.cells = s.mem.cells) rfl ?_
  split
  · rfl
  · rw [State.postStep_mem]
    refine State.forTries_of (P := fun m => m.cells = s.mem.cells) (fun s z t hs => ?_) rfl _
    split <;> simpa using hs

theorem State.atomReturn_cells (s : State) (h : Hdr) (o : MOp) (aop : Nat) :
    (s.atomReturn h o aop).mem.cells = s.mem.cells := by
  refine State.waiting_of (P := fun m => m.cells = s.mem.cells) rfl ?_
  refine State.withTraps_of (P := fun m => m.cells = s.mem.cells) rfl ?_
  repeat' split
  all_goals simp

theorem State.atomic_cells (s : State) (h : Hdr) (o : MOp) (aop : Nat) : (s.atomic h o aop).mem.cells = s.mem.cells := by
  unfold State.atomic
  split
  · exact s.atomReturn_cells h o aop
  · exact s.atomSend_cells h o aop

end Sys2Proof.Machine
end

section
/-! PROOFS. Memory stays canonical: the writers of memory, and accesses that perform. -/

namespace Sys2Proof.Machine

theorem State.MemInv.of_mem {s t : State} (h : t.mem = s.mem) (hs : s.MemInv) : t.MemInv := by rwa [State.MemInv, h]

theorem State.MemInv.of_cells {s t : State} (h : t.mem.cells = s.mem.cells) (hs : s.MemInv) : t.MemInv := by
  rwa [State.MemInv, Mem.wf, h]

/-- A next state has its memory in canonical form. -/
def Sound (o : Out) : Prop := ∀ t, o = .next t → t.MemInv

theorem sound_next {s : State} (hs : s.MemInv) : Sound (.next s) := fun _ h => by cases h; exact hs

/-! ### Memory -/

theorem cellsWf_foldl_put {α : Type} (a : α → Nat) (b : α → Byte) (l : List α) {m : List Host.Cell} (h : cellsWf 0 m = true) :
    cellsWf 0 (l.foldl (fun m x => cellsPut m (a x) (b x)) m) = true := by
  induction l generalizing m with
  | nil => exact h
  | cons x l ih => exact ih (by simpa using cellsWf_put (a x) (b x) h)

theorem Mem.wf_copyTile {m : Mem} (src dst : Nat) (h : m.wf = true) : (m.copyTile src dst).wf = true :=
  cellsWf_foldl_put _ _ _ (cellsWf_filter _ h)

theorem Mem.wf_restorePool {m : Mem} (k : Nat) (v : Save) (h : m.wf = true) : (m.restorePool k v).wf = true := by
  unfold Mem.restorePool
  split
  · exact cellsWf_foldl_put _ _ _ (cellsWf_filter _ h)
  · exact h

/-! ### The fault buffer, host events and traces -/

theorem State.notify_memInv {s : State} (hs : s.MemInv) (ev : Nat) : (s.notify ev).MemInv := by
  unfold State.notify
  dsimp only
  split
  · exact Mem.wf_store _ _ _ hs
  · exact hs

theorem State.postTry_memInv {s t : State} (hs : s.MemInv) {p : Post} (h : s.postTry p = some t) : t.MemInv := by
  unfold State.postTry at h
  split at h
  · cases h; exact hs
  · split at h
    · cases h; exact State.notify_memInv (by exact Mem.wf_store _ _ _ hs) 1
    · cases h

theorem State.post_memInv {s : State} (hs : s.MemInv) (p : Post) : (s.post p).MemInv := by
  unfold State.post
  split
  · next h => exact State.postTry_memInv hs h
  · exact State.notify_memInv (by exact hs) 2

theorem State.postAll_memInv {s : State} (hs : s.MemInv) (l : List Post) : (s.postAll l).MemInv := by
  induction l generalizing s with
  | nil => exact hs
  | cons p l ih =>
    unfold State.postAll
    split
    · next h => exact ih (State.postTry_memInv hs h)
    · exact ih hs

theorem State.fbDone_memInv {s : State} (hs : s.MemInv) (i : Nat) : (s.fbDone i).MemInv :=
  State.postAll_memInv (by exact Mem.wf_store _ _ _ hs) _

theorem State.postFault_memInv {s : State} (hs : s.MemInv) (kind n agent eng : Nat) (wr : Bool) (va ba row : Nat) :
    (s.postFault kind n agent eng wr va ba row).1.MemInv :=
  State.post_memInv (by exact hs) _

theorem State.traceWrite_memInv {s : State} (hs : s.MemInv) (k : Nat) : (s.traceWrite k).MemInv := by
  unfold State.traceWrite
  dsimp only
  split
  · exact hs
  · split <;> exact Mem.wf_store _ _ _ hs

theorem State.traceStep_memInv {s : State} (hs : s.MemInv) (k : Nat) : (s.traceStep k).MemInv := by
  unfold State.traceStep
  split
  · exact hs
  · split
    · exact State.traceWrite_memInv (by exact hs) k
    · exact hs

theorem State.traceAll_memInv {s : State} (hs : s.MemInv) (l : List Nat) : (s.traceAll l).MemInv := by
  induction l generalizing s with
  | nil => exact hs
  | cons w l ih => exact ih (State.traceStep_memInv hs w)

/-! ### Accesses that perform -/

theorem State.atomHome_memInv {s : State} (hs : s.MemInv) (a : Acc) : (s.atomHome a).1.MemInv := by
  unfold State.atomHome
  extract_lets old bad isBad r whole bs
  split
  · exact hs
  · split
    · exact Mem.wf_write _ _ hs
    · exact State.wf_storeAt _ _ _ hs

theorem State.performAt_memInv {s : State} (hs : s.MemInv) (a : Acc) (bad : List Bool) (oor : Bool) :
    (s.performAt a bad oor).1.MemInv := by
  have h1 : ∀ (n : Nat) (c : Option Nat), (if oor then (s.correct a.home a.size c).recordOor a.n true a.place
      (scratchCore a.home) a.off n a.ba else s.correct a.home a.size c).MemInv := fun n c => by
    split <;> exact hs.of_cells (by simp)
  unfold State.performAt
  dsimp only
  split
  · exact State.atomHome_memInv (h1 _ _) a
  · exact State.wf_storeAt _ _ _ (h1 _ _)

theorem State.performed_memInv {s : State} (hs : s.MemInv) (a b : Acc) (bad : List Bool) (oor : Bool) (x : List Byte)
    (y : List Bool) : ((s.performAt a bad oor).1.completed b x y).MemInv :=
  (State.performAt_memInv hs a bad oor).of_mem (by simp)

theorem State.portGo_memInv {s : State} (hs : s.MemInv) (fired : List (Nat × Nat)) (l : List PortW) :
    (s.portGo fired l).1.MemInv := by
  induction l generalizing s fired with
  | nil => exact hs
  | cons x l ih => exact ih (State.performed_memInv hs _ _ _ _ _ _) _

theorem State.ports_memInv {s : State} (hs : s.MemInv) : s.ports.MemInv :=
  State.portGo_memInv (s := { s with portW := [] }) hs _ _

theorem State.imageDo_memInv {s : State} (hs : s.MemInv) (kind a n : Nat) (bs : List Byte) (aop x y : Nat) :
    (s.imageDo kind a n bs aop x y).1.MemInv := by
  unfold State.imageDo
  extract_lets old put
  have hput : ∀ b, (put b).MemInv := fun b => by
    unfold put
    split
    · exact hs
    · exact Mem.wf_store _ _ _ hs
  split
  · exact hs
  · split
    · exact hput bs
    · exact iteInduction (motive := State.MemInv) (fun _ => hput _) fun _ => hs

theorem State.engWrite_memInv {s : State} (hs : s.MemInv) (n id rank place home off ba : Nat) (bs : List Byte)
    (bad : List Bool) (oor : Bool) : (s.engWrite n id rank place home off ba bs bad oor).MemInv := by
  unfold State.engWrite
  dsimp only
  split
  · exact hs
  · split
    · exact hs
    · exact State.wf_storeAt _ _ _ hs

@[simp] theorem State.engRead_cells (s : State) (n ba : Nat) (t : Tgt) (size : Nat) :
    (s.engRead n ba t size).1.mem.cells = s.mem.cells := by
  simp [State.engRead]

end Sys2Proof.Machine
end

section
/-! PROOFS. Memory stays canonical: copies, relocations and the array pipes. -/

namespace Sys2Proof.Machine

/-! ### Copy and gather engines -/

/-- What the start of an element answers keeps memory's canonical form. -/
def Elem.MemInv (e : Elem) : Prop := ∀ s c, e = .ok s c → s.MemInv

theorem Elem.memInv_ok {s : State} (hs : s.MemInv) (c : CopyCmd) : (Elem.ok s c).MemInv := fun _ _ h => by cases h; exact hs

theorem State.elemWay_memInv {s : State} {c : CopyCmd} {ea n : Nat} {wr : Bool} {e : Elem}
    (h : s.elemWay c ea n wr = .inl e) : e.MemInv := by
  rintro t d rfl
  unfold State.elemWay at h
  repeat' split at h
  all_goals simp_all

theorem State.openElem_memInv {s : State} {c : CopyCmd} {is : List Nat} {e : Elem} (h : s.openElem c is = .inl e) :
    e.MemInv := by
  unfold State.openElem at h
  dsimp only at h
  split at h
  · cases h
  · split at h
    · next hw => cases h; exact State.elemWay_memInv hw
    · cases h

theorem State.readIndex_memInv {s : State} (hs : s.MemInv) (c : CopyCmd) (io : Nat) : (s.readIndex c io).MemInv := by
  unfold State.readIndex
  refine iteInduction (fun _ => Elem.memInv_ok hs c) fun _ => ?_
  · dsimp only
    split
    · next hw => exact State.elemWay_memInv hw
    · split
      · exact fun _ _ h => by cases h
      · exact Elem.memInv_ok (hs.of_cells (by simp)) _

theorem State.copyElem_memInv {s : State} (hs : s.MemInv) (c : CopyCmd) : (s.copyElem c).MemInv := by
  have hi := State.readIndex_memInv hs c ((digits c.dims c.elemAt).getLast?.getD 0)
  unfold State.copyElem
  dsimp only
  split
  · next s0 c0 h0 =>
    split
    · next ho => exact State.openElem_memInv ho
    · split
      · next hw => exact State.elemWay_memInv hw
      · exact Elem.memInv_ok (hi s0 c0 h0) _
  · exact hi

theorem State.sweepElem_memInv {s : State} (hs : s.MemInv) (c : CopyCmd) : (s.sweepElem c).MemInv := by
  unfold State.sweepElem
  dsimp only
  split
  · next hw => exact State.elemWay_memInv hw
  · next t a hops _ =>
    have hz : ((s.engRead c.n c.ba t 8).1.rebaseNow c.n c.baseD
        (displaced c.baseD (BitVec.ofNat 64 (c.dst + 8 * c.elemAt)).toNat a hops)).MemInv := hs.of_cells (by simp)
    split
    · exact Elem.memInv_ok hz _
    · split
      · exact Elem.memInv_ok hz _
      · exact Elem.memInv_ok hz _
      · split
        · next hw => exact State.elemWay_memInv hw
        · exact Elem.memInv_ok hz _

theorem State.nextElem_memInv {s : State} (hs : s.MemInv) (c : CopyCmd) : (s.nextElem c).MemInv := by
  unfold State.nextElem
  split
  · exact State.sweepElem_memInv hs c
  · exact State.copyElem_memInv hs c

theorem State.readFlight_memInv {s : State} (hs : s.MemInv) (cl : Nat) (c : CopyCmd) (f : Flight) (x : SrcAt) :
    (s.readFlight cl c f x).MemInv := hs.of_cells (by simp [State.readFlight])

theorem State.writeFlight_memInv {s : State} (hs : s.MemInv) (cl : Nat) (c : CopyCmd) (f : Flight) :
    (s.writeFlight cl c f).MemInv := by
  unfold State.writeFlight
  extract_lets s1 rank a r
  have h1 : s1.MemInv := hs.of_mem (by simp [s1])
  split
  · split
    · exact h1
    · exact State.performed_memInv h1 _ _ _ _ _ _
  · exact State.engWrite_memInv h1 _ _ _ _ _ _ _ _ _ _

theorem State.copyStep_memInv {s : State} (hs : s.MemInv) (cl id k : Nat) : (s.copyStep cl id k).MemInv := by
  unfold State.copyStep
  split
  · exact hs
  · split
    · split
      · next h => exact (State.nextElem_memInv hs _ _ _ h).of_mem (by simp)
      · exact hs.of_mem (by simp)
      · exact hs
    · split
      · split
        · exact State.readFlight_memInv hs _ _ _ _
        · exact State.writeFlight_memInv hs _ _ _
      · exact hs

theorem execCopySuspend_sound {s : State} (hs : s.MemInv) : Sound (execCopySuspend s) := by
  refine sound_next ?_
  dsimp only
  split
  · exact hs
  · split
    · exact State.postFault_memInv hs _ _ _ _ _ _ _ _
    · exact hs

theorem execCopyRetire_sound {s : State} (hs : s.MemInv) : Sound (execCopyRetire s) := by
  refine sound_next ?_
  dsimp only
  split
  · exact hs
  · split
    · exact hs.of_mem (by simp)
    · split
      · exact hs.of_mem (by simp)
      · split
        · refine State.MemInv.of_mem (State.copyGone_mem _ _ _) (State.engWrite_memInv ?_ _ _ _ _ _ _ _ _ _ _)
          exact hs.of_mem (by simp)
        · exact hs.of_mem (by simp)
        · exact State.postFault_memInv hs _ _ _ _ _ _ _ _
        · exact hs

/-! ### Tile relocation -/

@[simp] theorem Mem.setMarks_wf (m : Mem) (hm : Nat) : (m.setMarks hm).wf = m.wf := by simp only [Mem.wf, Mem.setMarks]
@[simp] theorem Mem.clearMarks_wf (m : Mem) (hm : Nat) : (m.clearMarks hm).wf = m.wf := by simp only [Mem.wf, Mem.clearMarks]

theorem State.forward_memInv {s : State} (hs : s.MemInv) (c : RelocCmd) (a : Acc) : (s.forward c a).MemInv :=
  State.performed_memInv hs _ _ _ _ _ _

theorem execMoveCopy_sound {s : State} (hs : s.MemInv) : Sound (execMoveCopy s) := by
  refine sound_next ?_
  dsimp only
  split
  · exact hs
  · split
    · exact Mem.wf_copyTile _ _ hs
    · split
      · split
        · exact hs.of_mem (by simp)
        · exact State.forward_memInv (hs.of_mem (by simp)) _ _
      · split
        · exact hs
        · exact (Mem.setMarks_wf _ _).trans (Mem.wf_store _ _ _ hs)

theorem State.relocEnd_memInv {s : State} (hs : s.MemInv) (w : Nat) (c : RelocCmd) (count : Nat) :
    (s.relocEnd w c count).MemInv := by
  unfold State.relocEnd
  extract_lets gone
  have hgone : ∀ t : State, t.MemInv → (gone t).MemInv := fun t ht => by
    unfold gone
    split <;> exact ht.of_mem (by simp)
  split
  · exact hgone s hs
  · split
    · exact hgone _ (State.engWrite_memInv hs _ _ _ _ _ _ _ _ _ _)
    · exact hs.of_mem (by simp)
    · exact State.postFault_memInv hs _ _ _ _ _ _ _ _
    · exact hs

theorem State.wf_doUnmark {s : State} (hs : s.MemInv) {c : RelocCmd} {m : Mem} {code count : Nat}
    (h : s.doUnmark c = some (m, code, count)) : m.wf = true := by
  have wf_of_some : ∀ {x : Mem × Nat × Nat}, some x = some (m, code, count) → x.1.wf = true → m.wf = true :=
    fun e hx => by rw [Option.some.inj e] at hx; exact hx
  unfold State.doUnmark at h
  split at h
  · cases h
  · exact wf_of_some h hs
  · split at h
    · exact wf_of_some h hs
    · split at h
      · exact wf_of_some h ((Mem.clearMarks_wf _ _).trans (Mem.wf_store _ _ _ hs))
      · split at h
        · exact wf_of_some h hs
        · exact wf_of_some h (Mem.wf_write _ _ (Mem.wf_write _ _ hs))

theorem execRelocationRetire_sound {s : State} (hs : s.MemInv) : Sound (execRelocationRetire s) := by
  refine sound_next ?_
  dsimp only
  split
  · exact hs
  · split
    · exact State.relocEnd_memInv hs _ _ _
    · split
      · exact hs.of_mem (by simp)
      · next h => exact State.relocEnd_memInv (by exact State.wf_doUnmark hs h) _ _ _

/-! ### Matrix arrays -/

/-- A pipe that goes on keeps memory's canonical form. -/
def Pipe.MemInv {α : Type} (x : Pipe α) : Prop := ∀ s r a, x = .ok s r a → s.MemInv

theorem Pipe.memInv_ok {α : Type} {s : State} (hs : s.MemInv) (r : Routine) (a : α) : (Pipe.ok s r a).MemInv :=
  fun _ _ _ h => by cases h; exact hs

theorem Pipe.memInv_stop {α : Type} (t : TrapRec) : (Pipe.stop t : Pipe α).MemInv := fun _ _ _ h => by cases h

theorem Pipe.MemInv.bind {α β : Type} {x : Pipe α} {f : State → Routine → α → Pipe β} (hx : x.MemInv)
    (hf : ∀ s r a, s.MemInv → (f s r a).MemInv) : (x.bind f).MemInv := by
  cases x with
  | ok s r a => exact hf s r a (hx s r a rfl)
  | stop t => exact Pipe.memInv_stop t
  | page k ea wr => exact fun _ _ _ h => by cases h
  | block => exact fun _ _ _ h => by cases h

theorem State.pipeWay_memInv {s : State} (hs : s.MemInv) (r : Routine) (side ea n : Nat) (wr : Bool) :
    (s.pipeWay r side ea n wr).MemInv := by
  intro t q x h
  unfold State.pipeWay at h
  dsimp only at h
  repeat' split at h
  all_goals cases h
  · exact hs
  · exact hs.of_mem (by simp)

theorem State.pipeRead_memInv {s : State} (hs : s.MemInv) (r : Routine) (side ea n : Nat) : (s.pipeRead r side ea n).MemInv :=
  (State.pipeWay_memInv hs r side ea n false).bind fun _ _ _ h => Pipe.memInv_ok (h.of_cells (by simp)) _ _

theorem pipeReads_memInv (side n : Nat) (ptr : Routine → Nat) (os : List Nat) {s : State} (hs : s.MemInv) (r : Routine) :
    (pipeReads side n ptr os s r).MemInv := by
  induction os generalizing s r with
  | nil => exact Pipe.memInv_ok hs r []
  | cons o os ih =>
    exact (State.pipeRead_memInv hs r side _ n).bind fun _ r _ h => (ih h r).bind fun _ _ _ h => Pipe.memInv_ok h _ _

theorem State.fpRows_memInv {s : State} (hs : s.MemInv) (r : Routine) (side code : Nat) (kMajor : Bool) (ld : Nat) :
    (s.fpRows r side code kMajor ld).MemInv := by
  unfold State.fpRows
  dsimp only
  split <;> exact (pipeReads_memInv _ _ _ _ hs r).bind fun _ _ _ h => Pipe.memInv_ok h _ _

theorem State.bpiRows_memInv {s : State} (hs : s.MemInv) (r : Routine) (side p dep k ld : Nat) :
    (s.bpiRows r side p dep k ld).MemInv :=
  (pipeReads_memInv _ _ _ _ hs r).bind fun _ _ _ h => Pipe.memInv_ok h _ _

theorem State.scales_memInv {s : State} (hs : s.MemInv) (r : Routine) (on : Bool) (side off : Nat) :
    (s.scales r on side off).MemInv := by
  unfold State.scales
  split
  · exact Pipe.memInv_ok hs _ _
  · exact (pipeReads_memInv _ _ _ _ hs r).bind fun _ _ _ h => Pipe.memInv_ok h _ _

theorem State.stepFp_memInv {s : State} (hs : s.MemInv) (r : Routine) (fa fb : Fmt) : (s.stepFp r fa fb).MemInv :=
  (State.fpRows_memInv hs r _ _ _ _).bind fun _ r _ h =>
  (State.fpRows_memInv h r _ _ _ _).bind fun _ r _ h =>
  (State.scales_memInv h r _ _ _).bind fun _ r _ h =>
  (State.scales_memInv h r _ _ _).bind fun _ _ _ h => Pipe.memInv_ok (h.of_mem (by simp)) _ _

theorem State.stepBpi_memInv {s : State} (hs : s.MemInv) (r : Routine) : (s.stepBpi r).MemInv :=
  (State.bpiRows_memInv hs r _ _ _ _ _).bind fun _ r _ h =>
  (State.bpiRows_memInv h r _ _ _ _ _).bind fun _ _ _ h => Pipe.memInv_ok (h.of_mem (by simp)) _ _

theorem State.stepPipe_memInv {s : State} (hs : s.MemInv) (r : Routine) : (s.stepPipe r).MemInv := by
  have open' : (Pipe.ok (s.freeTile (coreOf r.n) r.t (upTo 0 32)) r ()).MemInv := Pipe.memInv_ok (hs.of_mem (by simp)) r ()
  unfold State.stepPipe
  split
  · exact Pipe.memInv_stop _
  · split
    · exact Pipe.memInv_stop _
    · split
      · split
        · exact State.stepBpi_memInv hs r
        · exact open'
      · exact open'
      · exact State.stepFp_memInv hs r _ _
      · exact open'

theorem pipePuts_memInv (off : Nat → Nat) (ptr : Routine → Nat) (e : Nat) (l : List (Nat × Nat × Bool)) {s : State}
    (hs : s.MemInv) (r : Routine) : (pipePuts off ptr e l s r).MemInv := by
  induction l generalizing s r with
  | nil => exact Pipe.memInv_ok hs r []
  | cons x l ih =>
    exact (State.pipeWay_memInv hs r _ _ _ _).bind fun _ r _ h => (ih h r).bind fun _ _ _ h => Pipe.memInv_ok h _ _

theorem State.putAll_memInv {s : State} (hs : s.MemInv) (r : Routine) (l : List Put) : (s.putAll r l).MemInv := by
  induction l generalizing s with
  | nil => exact hs
  | cons x l ih => exact ih (State.engWrite_memInv hs _ _ _ _ _ _ _ _ _ _)

theorem State.drainRow_memInv {s : State} (hs : s.MemInv) (r : Routine) (q : Bool) (m : Nat) : (s.drainRow r q m).MemInv := by
  unfold State.drainRow
  dsimp only
  refine (pipePuts_memInv _ _ _ _ ?_ r).bind fun s r ps h => ?_
  · split <;> exact hs
  · split
    · exact (State.pipeWay_memInv h r _ _ _ _).bind fun _ _ _ h =>
        Pipe.memInv_ok (State.putAll_memInv (State.putAll_memInv h _ _) _ _) _ _
    · exact Pipe.memInv_ok (State.putAll_memInv h _ _) _ _

theorem drainRows_memInv (q : Bool) (k : Nat) {s : State} (hs : s.MemInv) (r : Routine) (done : Nat) :
    (drainRows q k s r done).MemInv := by
  induction k generalizing s r done with
  | zero => exact Pipe.memInv_ok hs r done
  | succ k ih =>
    have hrow := State.drainRow_memInv hs r q r.drow
    unfold drainRows
    split
    · next h => exact ih (hrow _ _ _ h) _ _
    · split
      · exact hrow.bind fun _ _ _ h => Pipe.memInv_ok h _ _
      · exact Pipe.memInv_ok hs _ _

theorem State.drainPipe_memInv {s : State} (hs : s.MemInv) (r : Routine) (q : Bool) : (s.drainPipe r q).MemInv := by
  unfold State.drainPipe
  split
  · exact Pipe.memInv_stop _
  · exact drainRows_memInv q _ hs r 0

theorem loadGo_memInv (l : List (Nat × Nat × Nat)) {s : State} (hs : s.MemInv) (r : Routine) : (loadGo l s r).MemInv := by
  induction l generalizing s r with
  | nil => exact Pipe.memInv_ok hs r ()
  | cons x l ih => exact (pipeReads_memInv _ _ _ _ hs r).bind fun _ r _ h => ih (by exact h) r

theorem packGo_memInv (l : List (Nat × Nat)) {s : State} (hs : s.MemInv) (r : Routine) : (packGo l s r).MemInv := by
  induction l generalizing s r with
  | nil => exact Pipe.memInv_ok hs r ()
  | cons x l ih =>
    exact (pipeReads_memInv _ _ _ _ hs r).bind fun _ r _ h =>
      (pipePuts_memInv _ _ _ _ h r).bind fun _ r _ h => ih (State.putAll_memInv h _ _) r

theorem State.wholePipe_memInv {s : State} (hs : s.MemInv) (r : Routine) : (s.wholePipe r).MemInv := by
  unfold State.wholePipe
  split
  · exact loadGo_memInv _ hs r
  · exact packGo_memInv _ hs r

theorem State.startPipe_memInv {s : State} (hs : s.MemInv) (r : Routine) : (s.startPipe r).MemInv := by
  unfold State.startPipe
  dsimp only
  split
  · split
    · exact (State.wholePipe_memInv hs _).bind fun _ _ _ h => Pipe.memInv_ok h _ _
    · exact Pipe.memInv_ok hs _ _
  · exact Pipe.memInv_ok (hs.of_mem (by simp)) _ _

theorem packBytes_memInv {s : State} (hs : s.MemInv) (r : Routine) (ea n : Nat) : (packBytes s r ea n).MemInv := by
  induction n generalizing ea with
  | zero => exact Pipe.memInv_ok hs r []
  | succ n ih =>
    refine (State.pipeRead_memInv hs r 3 ea 1).bind fun _ _ x _ => ?_
    split
    · exact Pipe.memInv_ok hs _ _
    · exact ih (ea + 1)

theorem State.packPipe_memInv {s : State} (hs : s.MemInv) (r : Routine) : (s.packPipe r).MemInv := by
  refine (packBytes_memInv hs r _ _).bind fun _ r _ h => (State.pipeWay_memInv h r _ _ _ _).bind fun _ r _ h => ?_
  split
  · exact Pipe.memInv_ok h _ _
  · exact (packBytes_memInv h r _ _).bind fun _ r _ h => (packBytes_memInv h r _ _).bind fun _ r _ h =>
      (packBytes_memInv h r _ _).bind fun _ _ _ h => Pipe.memInv_ok h _ _

theorem State.uopPipe_memInv {α : Type} {s : State} (hs : s.MemInv) {x : Routine → Pipe α} {f : State → Routine → α → State}
    (hx : ∀ r, (x r).MemInv) (hf : ∀ s r a, s.MemInv → (f s r a).MemInv) : (s.uopPipe x f).MemInv := by
  unfold State.uopPipe
  split
  · exact hs
  · split
    · next h => exact hf _ _ _ (hx _ _ _ _ h)
    · exact hs.of_mem (by simp)
    · exact hs

theorem execRoutinePause_sound {s : State} (hs : s.MemInv) : Sound (execRoutinePause s) := by
  refine sound_next ?_
  dsimp only
  split
  · exact hs
  · split
    · exact State.postFault_memInv hs _ _ _ _ _ _ _ _
    · exact hs

end Sys2Proof.Machine
end

section
/-! PROOFS. Memory stays canonical: links, special registers, faults, launches, the platform and accesses on their way. -/

namespace Sys2Proof.Machine

/-! ### Links -/

theorem State.readSource_cells (s : State) (c : LinkCmd) (l : List (Tgt × Nat)) :
    (s.readSource c l).mem.cells = s.mem.cells := by
  induction l generalizing s with
  | nil => rfl
  | cons x l ih => simp [State.readSource, ih]

theorem State.depart_memInv {s : State} (hs : s.MemInv) (c : LinkCmd) : (s.depart c).MemInv := by
  unfold State.depart
  dsimp only
  split
  · exact hs.of_mem (by simp)
  · exact hs.of_mem (by simp)
  · exact State.postFault_memInv hs _ _ _ _ _ _ _ _
  · exact State.postFault_memInv hs _ _ _ _ _ _ _ _
  · split
    · exact hs.of_mem (by simp)
    · split <;> exact hs.of_cells (by simp [State.readSource_cells])

theorem State.writeFlits_memInv {s : State} (hs : s.MemInv) (c : LinkCmd) (l : List (Tgt × Nat)) (bs : List (Byte × Bool)) :
    (s.writeFlits c l bs).MemInv := by
  induction l generalizing s bs with
  | nil => exact hs
  | cons x l ih => exact ih (State.engWrite_memInv hs _ _ _ _ _ _ _ _ _ _) _

theorem State.reduce_memInv {s t : State} (hs : s.MemInv) {c : LinkCmd} (h : s.reduce c = .ok t) : t.MemInv := by
  unfold State.reduce at h
  dsimp only at h
  split at h
  · cases h
  · cases h
  · cases h
  · cases h
  · cases h
    exact State.writeFlits_memInv (hs.of_cells (by simp [State.readSource_cells])) _ _ _

theorem State.countOne_memInv {s t : State} (hs : s.MemInv) {red : Bool} {c : LinkCmd} (h : s.countOne red c = some t) :
    t.MemInv := by
  unfold State.countOne at h
  split at h
  · cases h; exact hs
  · refine iteInduction (motive := fun x => x = some t → t.MemInv) (fun _ h => by cases h) (fun _ h => ?_) h
    split at h
    · cases h; exact hs.of_mem (by simp)
    · split at h
      · cases h
      · split at h
        · next hr => cases h; exact (State.reduce_memInv hs hr).of_mem (by simp)
        · cases h; exact hs.of_mem (by simp)
        · cases h; exact State.postFault_memInv hs _ _ _ _ _ _ _ _

theorem State.countTo_memInv {s : State} (hs : s.MemInv) (red : Bool) (id : Nat) (l : List LinkCmd) :
    (s.countTo red id l).1.MemInv := by
  induction l generalizing s with
  | nil => exact hs
  | cons c l ih =>
    unfold State.countTo
    split
    · exact hs
    · split
      · exact hs
      · next h =>
        have h1 := State.countOne_memInv hs h
        split
        · exact h1
        · exact ih h1

theorem State.recvDue_memInv {s : State} (hs : s.MemInv) (c : LinkCmd) : (s.recvDue c).MemInv := by
  have hz := State.countTo_memInv hs false c.id (s.slotRecvs c)
  unfold State.recvDue
  dsimp only
  split
  · exact hz
  · split <;> exact hz.of_mem (by simp)

theorem State.recvsDue_memInv {s : State} (hs : s.MemInv) (n ic : Nat) (l : List LinkCmd) : (s.recvsDue n ic l).MemInv := by
  induction l generalizing s with
  | nil => exact hs
  | cons c l ih =>
    unfold State.recvsDue
    dsimp only
    split
    · exact ih hs
    · split
      · exact State.recvDue_memInv hs c
      · exact ih (State.recvDue_memInv hs c)

theorem State.lateRecv_memInv {s : State} (hs : s.MemInv) (k : Nat) : (s.lateRecv k).MemInv := by
  unfold State.lateRecv
  split
  · split
    · split
      · exact hs
      · exact State.recvDue_memInv (by exact hs) _
    · exact hs
  · exact hs

theorem State.haltedRecv_memInv {s : State} (hs : s.MemInv) (c : LinkCmd) : (s.haltedRecv c).MemInv := by
  have hz := State.countTo_memInv hs false c.id (s.slotRecvs c)
  unfold State.haltedRecv
  dsimp only
  split
  · exact hs
  · split
    · split
      · exact hz.of_mem (by simp)
      · exact hs
    · exact hs

theorem State.haltedRecvs_memInv {s : State} (hs : s.MemInv) (l : List LinkCmd) : (s.haltedRecvs l).MemInv := by
  induction l generalizing s with
  | nil => exact hs
  | cons c l ih => exact ih (State.haltedRecv_memInv hs c)

theorem execLredReduce_sound {s : State} (hs : s.MemInv) : Sound (execLredReduce s) := by
  refine sound_next ?_
  split
  · exact hs
  · split
    · exact State.countTo_memInv hs _ _ _
    · exact hs

theorem execLsendDeparture_sound {s : State} (hs : s.MemInv) : Sound (execLsendDeparture s) := by
  refine sound_next ?_
  split
  · split
    · exact State.depart_memInv hs _
    · exact hs
  · exact hs

theorem execFlitArrival_sound {s : State} (hs : s.MemInv) : Sound (execFlitArrival s) := by
  refine sound_next ?_
  dsimp only
  split
  · repeat' split
    all_goals exact hs.of_mem (by simp)
  · split
    · exact hs
    · split
      · exact hs.of_mem (by simp)
      · exact Mem.wf_store _ _ _ hs

/-! ### Special registers -/

theorem State.csrWiden_memInv {s : State} (hs : s.MemInv) (n num : Nat) (v : Word) : (s.csrWiden n num v).MemInv := by
  unfold State.csrWiden
  dsimp only
  split
  case h_3 => exact State.fbDone_memInv hs _
  case h_2 => split <;> exact hs
  all_goals exact hs

theorem State.wideWrites_memInv {s : State} (hs : s.MemInv) (l : List (Nat × Nat × Word)) : (s.wideWrites l).MemInv := by
  induction l generalizing s with
  | nil => exact hs
  | cons x l ih =>
    refine ih ?_
    split
    · exact hs
    · split
      · exact hs
      · exact State.csrWiden_memInv hs _ _ _

theorem execFetchFault_sound {s : State} (hs : s.MemInv) : Sound (execFetchFault s) :=
  sound_next (State.postFault_memInv hs _ _ _ _ _ _ _ _)

/-! ### Faults of the core and switches -/

theorem State.coreFault_memInv {s : State} (hs : s.MemInv) (n kind : Nat) : (s.coreFault n kind).MemInv := by
  unfold State.coreFault
  split
  · exact hs
  · next t _ =>
    split
    · exact (State.postFault_memInv hs kind n 0 0 t.wr t.info0.toNat t.ba 0).of_mem (by simp)
    · exact hs.of_mem (by simp)

theorem execMarkChain_sound {s : State} (hs : s.MemInv) : Sound (execMarkChain s) := by
  unfold execMarkChain
  split
  · exact sound_next (State.coreFault_memInv hs _ _)
  · exact execRoutinePause_sound (by exact hs)
  · exact execCopySuspend_sound (by exact hs)

theorem State.switchBack_memInv {s : State} (hs : s.MemInv) (m : Nat) : (s.switchBack m).MemInv := by
  unfold State.switchBack
  dsimp only
  split
  · exact hs
  · rw [State.MemInv, State.resumeRound_mem, State.keptFor_mem]
    exact Mem.wf_restorePool _ _ hs

/-! ### Launches -/

theorem State.complete_memInv {s : State} (hs : s.MemInv) (r out cyc reruns : Nat) (spawnX : Bool) (frame : List Byte) :
    (s.complete r out cyc reruns spawnX frame).MemInv := Mem.wf_store _ _ _ (Mem.wf_store _ _ _ hs)

theorem State.setNode_memInv {s : State} (hs : s.MemInv) (a v : Nat) : (s.setNode a v).MemInv := Mem.wf_store _ _ _ hs

theorem State.launch_memInv {s : State} (hs : s.MemInv) (r prio : Nat) (node : Option Nat) :
    (s.launch r prio node).MemInv := by
  unfold State.launch
  split
  · exact hs
  · split
    · exact State.setNode_memInv (State.complete_memInv hs _ _ _ _ _ _) _ _
    · exact State.complete_memInv hs _ _ _ _ _ _

theorem execLaunch_sound {s : State} (hs : s.MemInv) : Sound (execLaunch s) := by
  refine sound_next ?_
  dsimp only
  split
  · exact hs
  · exact State.launch_memInv (by exact hs) _ _ _

theorem State.badNode_memInv {s : State} (hs : s.MemInv) (a : Activation) : (s.badNode a).MemInv := by
  unfold State.badNode
  split
  · exact hs
  · split
    · exact hs
    · exact Mem.wf_store _ _ _ hs

theorem execGraph_sound {s : State} (hs : s.MemInv) : Sound (execGraph s) := by
  refine sound_next ?_
  split
  · split
    · exact hs
    · exact State.badNode_memInv (by exact hs) _
  · exact hs

theorem State.discarded_memInv {s : State} (hs : s.MemInv) (f : Nat × Kernel → Bool) : (s.discard f).MemInv :=
  hs.of_mem (s.discard_mem f)

theorem execKill_sound {s : State} (hs : s.MemInv) : Sound (execKill s) := by
  refine sound_next ?_
  dsimp only
  split
  · exact hs
  · split
    · split
      · exact State.setNode_memInv (by exact State.complete_memInv (State.discarded_memInv (by exact hs) _) _ _ _ _ _ _) _ _
      · exact State.complete_memInv (State.discarded_memInv (by exact hs) _) _ _ _ _ _ _
    · exact hs.of_mem (by simp)

theorem State.argsAll_memInv {s : State} (hs : s.MemInv) (k : Kernel) (l : List (Nat × Nat × Bool)) :
    (s.argsAll k l).MemInv := by
  induction l generalizing s with
  | nil => exact hs
  | cons x l ih =>
    refine ih ?_
    unfold State.argScratch
    split
    · exact hs
    · exact Mem.wf_store _ _ _ hs

theorem State.dataGo_memInv {s : State} (hs : s.MemInv) (n : Nat) (tab : TMap TEntry) (stop k a : Nat) :
    (s.dataGo n tab stop k a).MemInv := by
  induction k generalizing s a with
  | zero => exact hs
  | succ k ih =>
    unfold State.dataGo
    dsimp only
    split
    · exact hs
    · refine ih ?_ _
      split
      · split
        · exact State.wf_storeAt _ _ _ hs
        · exact hs
      · exact hs

theorem State.loadData_memInv {s : State} (hs : s.MemInv) (r n : Nat) : (s.loadData r n).MemInv := by
  unfold State.loadData
  split
  · exact State.dataGo_memInv hs _ _ _ _ _
  · exact hs

theorem State.placeAll_memInv {s : State} (hs : s.MemInv) (id r : Nat) (im : Nat → RegFile 64 1 × TMap TEntry)
    (l : List (Nat × Nat × Bool)) : (s.placeAll id r im l).MemInv := by
  induction l generalizing s with
  | nil => exact hs
  | cons x l ih => exact ih (State.loadData_memInv (hs.of_mem (by simp)) _ _)

theorem State.startKernel_memInv {s : State} (hs : s.MemInv) (id : Nat) (k : Kernel) : (s.startKernel id k).MemInv := by
  unfold State.startKernel
  dsimp only
  split
  · split
    · exact State.setNode_memInv (by exact State.complete_memInv (State.discarded_memInv hs _) _ _ _ _ _ _) _ _
    · exact State.complete_memInv (State.discarded_memInv hs _) _ _ _ _ _ _
  · refine State.MemInv.of_mem (State.setKernel_mem _ _ _) (State.MemInv.of_mem (State.clearPre_mem _ _) ?_)
    exact State.argsAll_memInv (State.placeAll_memInv (hs.of_mem (by simp)) _ _ _ _) _ _

theorem execLaunchStart_sound {s : State} (hs : s.MemInv) : Sound (execLaunchStart s) := by
  refine sound_next ?_
  split
  · exact hs
  · split
    · exact State.startKernel_memInv hs _ _
    · exact hs.of_mem (by simp)
    · exact hs

theorem State.retireKernel_memInv {s : State} (hs : s.MemInv) (id : Nat) (k : Kernel) : (s.retireKernel id k).MemInv := by
  unfold State.retireKernel
  extract_lets s1 out s1' s2 s3
  have h1 : s1.MemInv := hs.of_mem (s.freeAll_mem _)
  have h2 : s2.MemInv := (State.complete_memInv h1 _ _ _ _ _ _).of_mem (State.dropKernel_mem _ _)
  have h3 : s3.MemInv := iteInduction (fun _ => State.notify_memInv h2 5) (fun _ => h2)
  split
  · exact (State.discarded_memInv h1 _).of_mem (State.setKernel_mem _ _ _)
  · split
    · exact h3
    · exact iteInduction (fun _ => (State.setNode_memInv h3 _ _).of_mem (State.activate_mem _ _))
        (fun _ => State.setNode_memInv h3 _ _)

theorem execKernelRetire_sound {s : State} (hs : s.MemInv) : Sound (execKernelRetire s) := by
  refine sound_next ?_
  split
  · exact State.retireKernel_memInv hs _ _
  · exact hs

theorem State.takeAct_memInv {s : State} (hs : s.MemInv) {f : State → Activation → State}
    (hf : ∀ s a, s.MemInv → (f s a).MemInv) : (s.takeAct f).MemInv := by
  unfold State.takeAct
  split
  · exact hs
  · exact hf _ _ hs

theorem execNodeKernel_sound {s : State} (hs : s.MemInv) : Sound (execNodeKernel s) := by
  refine sound_next (State.takeAct_memInv hs fun s a hs => ?_)
  dsimp only
  split
  · exact hs
  · exact State.launch_memInv (State.setNode_memInv hs _ _) _ _ _

theorem execNodeLoop_sound {s : State} (hs : s.MemInv) : Sound (execNodeLoop s) := by
  refine sound_next (State.takeAct_memInv hs fun s a hs => ?_)
  dsimp only
  split <;> split <;> exact State.setNode_memInv hs _ _

theorem execNodeJoin_sound {s : State} (hs : s.MemInv) : Sound (execNodeJoin s) := by
  refine sound_next (State.takeAct_memInv hs fun s a hs => ?_)
  dsimp only
  split <;> exact State.setNode_memInv hs _ _

/-! ### The platform -/

theorem State.repower_memInv {s : State} (hs : s.MemInv) (on : Bool) : (s.repower on).MemInv := cellsWf_filter _ hs

theorem execInstallRoutine_sound {s : State} (hs : s.MemInv) : Sound (execInstallRoutine s) := by
  refine sound_next ?_
  dsimp only
  split
  · exact hs
  · split
    · exact hs
    · refine Mem.wf_store _ _ _ ?_
      split
      · rw [State.installAll_mem]; exact hs
      · exact hs

theorem execAttestationRequest_sound {s : State} (hs : s.MemInv) : Sound (execAttestationRequest s) := by
  refine sound_next ?_
  split
  · exact Mem.wf_store _ _ _ hs
  · exact hs

theorem execAttestationReport_sound {s : State} (hs : s.MemInv) : Sound (execAttestationReport s) := by
  refine sound_next ?_
  split
  · exact hs
  · exact Mem.wf_store _ _ _ (Mem.wf_store _ _ _ hs)

theorem State.fabricAccess_memInv {s : State} (hs : s.MemInv) (r : FabReq) : (s.fabricAccess r).MemInv := by
  unfold State.fabricAccess
  extract_lets node a s1 z
  split
  · exact hs
  · split
    · exact hs.of_mem (by simp)
    · split
      · exact hs.of_cells (by simp)
      · split
        · exact hs
        · split
          · exact hs
          · exact State.performed_memInv (by exact hs) _ _ _ _ _ _

theorem execFabricRequest_sound {s : State} (hs : s.MemInv) : Sound (execFabricRequest s) := by
  refine sound_next ?_
  extract_lets r s0 node no
  have h0 : s0.MemInv := by unfold s0; split <;> exact hs
  split
  · exact h0
  · split
    · repeat' split
      all_goals exact h0.of_mem (by simp [no])
    · split
      · exact (State.imageDo_memInv h0 _ _ _ _ _ _ _).of_mem (State.answer_mem _ _ _ _ _)
      · exact h0.of_mem (by simp [no])
    · split
      · exact State.fabricAccess_memInv h0 r
      · exact h0.of_mem (by simp [no])
    · exact h0.of_mem (by simp [no])

/-! ### Accesses on their way -/

theorem State.homeRead_memInv {s : State} (hs : s.MemInv) (a : Acc) (hm : Nat) : (s.homeRead a hm).MemInv := by
  unfold State.homeRead
  split <;> exact hs.of_cells (by simp)

theorem State.homeWrite_memInv {s : State} (hs : s.MemInv) (a : Acc) (hm : Nat) : (s.homeWrite a hm).MemInv := by
  unfold State.homeWrite
  dsimp only
  split
  · exact hs
  · exact State.performed_memInv (by exact hs) _ _ _ _ _ _

theorem State.homeImage_memInv {s : State} (hs : s.MemInv) (a : Acc) (hm : Nat) : (s.homeImage a hm).MemInv := by
  unfold State.homeImage
  split
  · exact hs
  · split
    · exact hs
    · exact hs
    · exact (State.imageDo_memInv hs _ _ _ _ _ _ _).of_mem (State.answerAcc_mem _ _ _ _)
    · exact (State.imageDo_memInv hs _ _ _ _ _ _ _).of_mem (State.answerAcc_mem _ _ _ _)
    · exact hs

theorem State.homeAccess_memInv {s : State} (hs : s.MemInv) (a : Acc) : (s.homeAccess a).MemInv := by
  unfold State.homeAccess
  dsimp only
  split
  · exact hs
  · split
    · exact hs.of_mem (by simp)
    · split
      · exact State.homeImage_memInv hs _ _
      · split
        · exact hs
        · split
          · split <;> exact hs.of_mem (by simp)
          · split
            · split
              · exact hs
              · exact State.homeWrite_memInv hs _ _
            · exact State.homeRead_memInv hs _ _

end Sys2Proof.Machine
end

section
/-! PROOFS. Memory stays canonical: the turns of a step, for any meaning of the instructions that keeps it. -/

namespace Sys2Proof.Machine

/-! ### The end of a cycle -/

theorem State.unfreeze_memInv {s : State} (hs : s.MemInv) (k : Nat) : (s.unfreeze k).MemInv := by
  unfold State.unfreeze
  split
  · exact hs
  · split
    · exact State.lateRecv_memInv hs k
    · split <;> exact hs

theorem State.unfreezeAll_memInv {s : State} (hs : s.MemInv) (l : List Nat) : (s.unfreezeAll l).MemInv := by
  induction l generalizing s with
  | nil => exact hs
  | cons k l ih => exact ih (State.unfreeze_memInv hs k)

theorem State.endCores_memInv {s : State} (hs : s.MemInv) : s.endCores.MemInv := by
  unfold State.endCores
  extract_lets s1 s2
  have h1 : s1.MemInv := State.wideWrites_memInv (by exact hs.of_mem (State.commandsBack_mem _)) _
  have h2 : s2.MemInv := (State.ports_memInv h1).of_mem (State.tickCores_mem _)
  exact State.traceAll_memInv ((State.haltedRecvs_memInv h2 _).of_mem (State.stepBarriers_mem _)) _

theorem State.endContexts_memInv {s : State} (hs : s.MemInv) : s.endContexts.MemInv := by
  unfold State.endContexts
  extract_lets ns s0 s1
  have h0 : s0.MemInv := hs.of_mem (by simp [s0])
  have h1 : s1.MemInv := (State.unfreezeAll_memInv h0 _).of_mem (State.endCtxs_mem _ _)
  exact h1.of_mem (by simp)

theorem State.endCycle_memInv {s : State} (hs : s.MemInv) : s.endCycle.MemInv := by
  have h := (State.endContexts_memInv (State.endCores_memInv hs)).of_mem (State.nextCycle_mem _)
  exact h

/-! ### Landings at their due counts -/

theorem State.settleOne_memInv {s : State} (hs : s.MemInv) (n t : Nat) : (s.settleOne n t).MemInv :=
  State.recvsDue_memInv (hs.of_mem (by simp)) _ _ _

theorem State.settleAll_memInv {s : State} (hs : s.MemInv) (t : Nat) (l : List Nat) : (s.settleAll t l).MemInv := by
  induction l generalizing s with
  | nil => exact hs
  | cons n l ih => exact ih (State.settleOne_memInv hs n t)

theorem State.dueTurn_memInv {s : State} (hs : s.MemInv) (n : Nat) : (s.dueTurn n).MemInv := by
  unfold State.dueTurn
  split
  · exact State.settleAll_memInv hs _ _
  · exact hs

@[simp] theorem State.freezeRecv_mem (s : State) (n t : Nat) (a : Option Nat) : (s.freezeRecv n t a).mem = s.mem := by
  unfold State.freezeRecv
  dsimp only
  split <;> rfl

@[simp] theorem State.freezeRecvs_mem (s : State) (t : Nat) (l : List Nat) : (s.freezeRecvs t l).mem = s.mem := by
  induction l generalizing s with
  | nil => rfl
  | cons m l ih => simp [State.freezeRecvs, ih]

theorem State.unblock_mem {s t : State} {n : Nat} {b : GBundle} {c m : Nat} {l : LStat} (h : s.unblock n b c m l = some t) :
    t.mem = s.mem := by
  unfold State.unblock at h
  dsimp only at h
  repeat' split at h
  all_goals cases h
  all_goals simp

/-! ### Turns -/

theorem Sound.andThen {o : Out} {f : State → Out} (ho : Sound o) (hf : ∀ s, s.MemInv → Sound (f s)) :
    Sound (andThen o f) := by
  cases o with
  | next s => exact hf s (ho s rfl)
  | fault r => exact fun _ h => by cases h
  | refused r => exact fun _ h => by cases h

/-- The state beside a tally, likewise. -/
def SoundRun (o : Host.Outcome (State × Tally) Fault Refusal) : Prop := ∀ z, o = .next z → z.1.MemInv

theorem soundRun_next {s : State} (hs : s.MemInv) (y : Tally) : SoundRun (.next (s, y)) := fun _ h => by cases h; exact hs

section
variable {ex : Exec} (hex : ∀ i s, s.MemInv → Sound (ex i s))
include hex

theorem State.event_sound {s : State} (hs : s.MemInv) (i : Instr) (a : EvArg) : Sound (s.event ex i a) := hex i _ hs

theorem State.fetchGo_sound (n k : Nat) {s : State} (hs : s.MemInv) : Sound (State.fetchGo ex n k s) := by
  induction k generalizing s with
  | zero => exact sound_next hs
  | succ k ih =>
    unfold State.fetchGo
    split
    · exact sound_next hs
    · split
      · exact (State.event_sound hex hs _ _).andThen fun s1 h1 => iteInduction (fun _ => sound_next h1) (fun _ => ih h1)
      · split
        · exact ih (hs.of_mem (by simp))
        · exact sound_next hs

theorem State.fetchTurn_sound {s : State} (hs : s.MemInv) (n : Nat) : Sound (s.fetchTurn ex n) := by
  unfold State.fetchTurn
  split
  · exact sound_next hs
  · refine (State.fetchGo_sound hex n 256 (hs.of_mem (by simp))).andThen fun s2 h2 => ?_
    split
    · exact sound_next (iteInduction (motive := State.MemInv) (fun _ => h2.of_mem (by simp)) (fun _ => h2.of_mem (by simp)))
    · exact sound_next h2

theorem State.front_sound {s : State} (hs : s.MemInv) (n : Nat) : Sound (s.front ex n) :=
  (State.fetchTurn_sound hex hs n).andThen fun _ h => sound_next (State.dueTurn_memInv h n)

theorem State.runOne_sound {s : State} (hs : s.MemInv) (s0 : State) (lead : Nat) (i : Instr) :
    Sound (s.runOne ex s0 lead i) := by
  unfold State.runOne
  dsimp only
  split
  · exact sound_next hs
  · split
    · exact sound_next hs
    · split
      · exact sound_next (hs.of_mem (by simp))
      · exact hex i s hs

theorem runJobs_sound (s0 : State) (lead : Nat) (b : GBundle) (t : Nat) (js : List Job) {s : State} (hs : s.MemInv)
    (y : Tally) : SoundRun (runJobs ex s0 lead b t js s y) := by
  induction js generalizing s y with
  | nil => exact soundRun_next hs y
  | cons j js ih =>
    have h1 := State.runOne_sound hex (s := s.latchFor lead b t j) hs s0 lead j.i
    unfold runJobs
    split
    · next s1 he =>
      split
      · exact ih (h1 s1 he) y
      · exact ih hs _
      · exact ih hs _
    · exact fun _ h => by cases h
    · exact fun _ h => by cases h

theorem runBundle_sound (lead : Nat) (b : GBundle) (t : Nat) (js : List Job) {s : State} (hs : s.MemInv) :
    SoundRun (runBundle ex lead b t js s) := by
  unfold runBundle
  split
  · split
    · next s1 he => exact runJobs_sound hex s lead b t js (hex _ _ hs s1 he) {}
    · exact fun _ h => by cases h
    · exact fun _ h => by cases h
  · exact runJobs_sound hex s lead b t js hs {}

theorem runNamed_sound (n : Nat) (b : GBundle) (t : Nat) (js : List Job) {s : State} (hs : s.MemInv) :
    SoundRun (runNamed ex n b t js s) := by
  unfold runNamed
  split
  · exact runBundle_sound hex n b t js hs
  · next u _ =>
    have hb := runBundle_sound hex n b t js (s := { s with uid := u }) hs
    split
    · next s1 y he => exact fun _ h => by cases h; exact hb (s1, y) he
    · exact fun _ h => by cases h
    · exact fun _ h => by cases h

theorem State.blockB_sound {s : State} (hs : s.MemInv) (n : Nat) : Sound (s.blockB ex n) := by
  unfold State.blockB
  dsimp only
  split
  · exact State.event_sound hex (by exact hs) _ _
  · exact sound_next hs

theorem laterB_sound (n k idx : Nat) (skip : List Job) {s : State} (hs : s.MemInv) : Sound (laterB ex n k idx skip s) := by
  induction k generalizing idx skip s with
  | zero => exact State.blockB_sound hex hs n
  | succ k ih =>
    have hblock := State.blockB_sound hex hs n
    unfold laterB
    split
    · exact hblock
    · extract_lets t js s1 s2
      have h1 : s1.MemInv := hs.of_mem (by simp [s1])
      have h2 : s2.MemInv := State.recvsDue_memInv h1 _ _ _
      refine iteInduction (fun _ => ih _ _ hs) fun _ => iteInduction (fun _ => ih _ _ hs) fun _ =>
        iteInduction (fun _ => ih _ _ (hs.of_mem (by simp))) fun _ => iteInduction (fun _ => hblock) fun _ =>
        iteInduction (fun _ => sound_next h1) fun _ => ?_
      split
      · exact fun _ h => by cases h
      · exact fun _ h => by cases h
      · next s3 y he =>
        have h3 : s3.MemInv := runNamed_sound hex _ _ _ _ (h2.of_mem (by simp)) _ he
        refine iteInduction (fun _ => hblock) fun _ => iteInduction (fun _ => ih _ _ hs) fun _ => sound_next ?_
        refine State.MemInv.of_mem (State.onCore_mem _ _ _) (iteInduction (fun _ => ?_) fun _ => ?_)
        · exact h3.of_mem (by simp)
        · exact h2.of_mem (by simp)

theorem issueHead_sound (n : Nat) (b : GBundle) (k : Nat) {s : State} (hs : s.MemInv) : Sound (issueHead ex n b k s) := by
  induction k generalizing s with
  | zero => exact sound_next (hs.of_mem (by simp))
  | succ k ih =>
    unfold issueHead
    dsimp only
    split
    · exact fun _ h => by cases h
    · exact fun _ h => by cases h
    · next s1 y he =>
      have h1 : s1.MemInv := runNamed_sound hex _ _ _ _ (hs.of_mem (by simp)) _ he
      split
      · split
        · next hu => exact ih (hs.of_mem (State.unblock_mem hu))
        · exact sound_next (iteInduction (motive := State.MemInv) (fun _ => hs.of_mem (by simp)) fun _ => hs.of_mem (by simp))
      · split
        · split
          · exact sound_next hs
          · split
            · exact laterB_sound hex n 4 1 _ hs
            · exact State.blockB_sound hex hs n
        · split
          · exact sound_next (h1.of_mem (by simp))
          · exact sound_next (hs.of_mem (by simp))

theorem State.mergeTurn_sound {s : State} (hs : s.MemInv) (n : Nat) (b : GBundle) : Sound (s.mergeTurn ex n b) := by
  unfold State.mergeTurn
  dsimp only
  split
  · exact sound_next hs
  · split
    · exact sound_next (hs.of_mem (by simp))
    · exact (issueHead_sound hex n b _ hs).andThen fun _ h => sound_next (h.of_mem (by simp))

theorem State.earlyTurn_sound (n k : Nat) {s : State} (hs : s.MemInv) : Sound (State.earlyTurn ex n k s) := by
  induction k generalizing s with
  | zero => exact sound_next hs
  | succ k ih =>
    unfold State.earlyTurn
    split
    · exact sound_next hs
    · refine (State.front_sound hex hs n).andThen fun s1 h1 => ?_
      split
      · split
        · exact sound_next h1
        · exact (State.mergeTurn_sound hex h1 n _).andThen fun s2 h2 => iteInduction (fun _ => sound_next h2) fun _ => ih h2
      · exact sound_next h1

theorem State.issueTurn_sound {s : State} (hs : s.MemInv) (n : Nat) : Sound (s.issueTurn ex n) := by
  unfold State.issueTurn
  refine Sound.andThen (iteInduction (fun _ => State.front_sound hex hs n) fun _ => sound_next hs) fun s hs => ?_
  extract_lets ms quiet go
  have hgo : Sound go := by
    unfold go
    split
    · exact sound_next hs
    · exact (State.mergeTurn_sound hex hs n _).andThen fun s1 h1 =>
        iteInduction (fun _ => sound_next h1) fun _ => State.earlyTurn_sound hex n 3 h1
  have hempty : Sound (.next (s.emptyCycle n)) := sound_next (hs.of_mem (by simp))
  have hev := fun i a => State.event_sound hex hs i a
  refine iteInduction (fun _ => sound_next hs) fun _ => iteInduction (fun _ => hgo) fun _ => ?_
  split
  · exact iteInduction (fun _ => sound_next hs) fun _ => iteInduction (fun _ => hev _ _) fun _ => hempty
  · exact iteInduction (fun _ => iteInduction (fun _ => hev _ _) fun _ => hempty) fun _ =>
      iteInduction (fun _ => iteInduction (fun _ => hev _ _) fun _ => hempty) fun _ => hgo

theorem State.wordTurn_sound {s : State} (hs : s.MemInv) (k : Nat) : Sound (s.wordTurn ex k) := by
  unfold State.wordTurn
  split
  · exact sound_next hs
  · split
    · exact sound_next hs
    · split
      · exact sound_next hs
      · split
        · exact State.event_sound hex (by exact hs) _ _
        · exact sound_next hs

theorem State.arrayTurn_sound {s : State} (hs : s.MemInv) (k : Nat) : Sound (s.arrayTurn ex k) := by
  unfold State.arrayTurn
  split
  · exact sound_next hs
  · split
    · exact State.wordTurn_sound hex hs k
    · split
      · exact sound_next hs
      · split
        · exact sound_next hs
        · exact (State.event_sound hex (by exact hs) _ _).andThen fun s1 h1 => State.wordTurn_sound hex h1 k

theorem State.joinTurn_sound {s : State} (hs : s.MemInv) : Sound (s.joinTurn ex) := by
  unfold State.joinTurn
  split
  · exact State.event_sound hex (by exact hs) _ _
  · split
    · exact sound_next hs
    · exact sound_next (hs.of_mem (by simp))

theorem State.takeInput_sound {s : State} (hs : s.MemInv) (x : Input) : Sound (s.takeInput ex x) := by
  unfold State.takeInput
  split
  · exact sound_next hs
  · split
    · exact State.event_sound hex hs _ _
    · exact sound_next hs
  · exact sound_next (iteInduction (motive := State.MemInv) (fun _ => hs) fun _ => hs)
  · exact sound_next (iteInduction (motive := State.MemInv) (fun _ => Mem.wf_store _ _ _ hs) fun _ => hs)
  · refine sound_next (iteInduction (motive := State.MemInv) (fun _ => ?_) fun _ => hs)
    rw [State.MemInv]
    split
    · exact (Mem.setMarks_wf _ _).trans hs
    · exact (Mem.clearMarks_wf _ _).trans hs

theorem State.eventTurn_sound {s : State} (hs : s.MemInv) : Sound (s.eventTurn ex) := by
  unfold State.eventTurn
  split
  · exact State.takeInput_sound hex (by exact hs) _
  · split
    · exact State.event_sound hex hs _ _
    · dsimp only
      split
      · exact State.event_sound hex (by exact hs) _ _
      · exact sound_next hs

theorem State.takeTurn_sound {s : State} (hs : s.MemInv) (t : Nat) : Sound (s.takeTurn ex t) := by
  unfold State.takeTurn
  extract_lets s1
  have h1 : s1.MemInv := hs
  refine iteInduction (fun _ => State.eventTurn_sound hex hs) fun _ =>
    iteInduction (fun _ => State.joinTurn_sound hex hs) fun _ =>
    iteInduction (fun _ => State.arrayTurn_sound hex h1 _) fun _ =>
    iteInduction (fun _ => sound_next (h1.of_mem (by simp))) fun _ =>
    iteInduction (fun _ => sound_next (State.dueTurn_memInv h1 _)) fun _ =>
    iteInduction (fun _ => State.fetchTurn_sound hex h1 _) fun _ =>
    iteInduction (fun _ => iteInduction (fun _ => sound_next h1) fun _ => State.event_sound hex h1 _ _) fun _ =>
      State.issueTurn_sound hex h1 t

theorem State.stepWith_sound {s : State} (hs : s.MemInv) : Sound (s.stepWith ex) := by
  unfold State.stepWith
  split
  · exact State.event_sound hex (by exact hs) _ _
  · split
    · exact State.takeTurn_sound hex hs _
    · split
      · exact State.event_sound hex hs _ _
      · exact sound_next (State.endCycle_memInv hs)

end

end Sys2Proof.Machine
end

section
/-! PROOFS. Memory stays canonical: every instruction and event, and the step. -/

namespace Sys2Proof.Machine

/-! ### The instructions and events -/

theorem sound_of_mem {s t : State} (h : t.mem = s.mem) (hs : s.MemInv) : Sound (.next t) := sound_next (hs.of_mem h)

theorem sound_of_cells {s t : State} (h : t.mem.cells = s.mem.cells) (hs : s.MemInv) : Sound (.next t) :=
  sound_next (hs.of_cells h)

theorem sound_fault (f : Fault) : Sound (.fault f) := fun _ h => by cases h

theorem execVmaxe_sound (h : Hdr) (o : VOp) {s : State} (hs : s.MemInv) : Sound (execVmaxe h o s) := by
  refine sound_of_mem ?_ hs
  split
  · simp
  · split
    · simp
    · exact State.guarded_mem fun k => by split <;> simp

theorem execTstat_sound (h : Hdr) (o : QOp) {s : State} (hs : s.MemInv) : Sound (execTstat h o s) := by
  refine sound_of_mem (State.waiting_mem ?_) hs
  dsimp only
  split
  · simp
  · split <;> simp

theorem execSstep_sound (h : Hdr) (o : CROp) {s : State} (hs : s.MemInv) : Sound (execSstep h o s) := by
  refine sound_of_mem (State.branching_mem ?_) hs
  split
  · dsimp only
    split <;> simp
  · exact State.larderFirst_mem (by simp)

theorem State.csrwStops_mem {s t : State} {num : Nat} {src : List (Tag × SVal)} (h : s.csrwStops num src = some t) :
    t.mem = s.mem := by
  unfold State.csrwStops at h
  split at h
  · cases h
    repeat' split
    all_goals simp
  · cases h

theorem execCsrw_sound (h : Hdr) (o : CIOp) {s : State} (hs : s.MemInv) : Sound (execCsrw h o s) := by
  refine sound_of_mem ?_ hs
  dsimp only
  cases hstop : s.csrwStops (ciVal h o).toNat (s.sSrc o.d.toNat) with
  | some t => exact State.csrwStops_mem hstop
  | none => exact State.waiting_mem (by split <;> simp [apply_ite State.mem])

theorem execUopClr_sound (u : UopArg) {s : State} (hs : s.MemInv) : Sound (execUopClr u s) := by
  refine sound_next (State.uopPipe_memInv hs (fun r => ?_) fun s r a hs => hs.of_mem (by simp))
  split
  · exact Pipe.memInv_stop _
  · exact Pipe.memInv_ok hs _ _

theorem execUopBpip_sound (u : UopArg) {s : State} (hs : s.MemInv) : Sound (execUopBpip u s) := by
  refine sound_next (State.uopPipe_memInv hs (fun r => ?_) fun s r a hs => hs.of_mem (by simp))
  split
  · exact Pipe.memInv_ok hs _ _
  · exact Pipe.memInv_stop _

theorem execUopStep_sound (u : UopArg) {s : State} (hs : s.MemInv) : Sound (execUopStep u s) :=
  sound_next (State.uopPipe_memInv hs (fun r => State.stepPipe_memInv hs r) fun s r a hs => hs.of_mem (by simp))

theorem execUopDrn_sound (u : UopArg) {s : State} (hs : s.MemInv) : Sound (execUopDrn u s) :=
  sound_next (State.uopPipe_memInv hs (fun r => State.drainPipe_memInv hs r _) fun s r a hs => by
    split <;> exact hs.of_mem (by simp))

theorem execRoutineStart_sound {s : State} (hs : s.MemInv) : Sound (execRoutineStart s) :=
  sound_next (State.uopPipe_memInv hs (fun r => State.startPipe_memInv hs r) fun s r a hs => hs.of_mem (by simp))

theorem execPackInstall_sound {s : State} (hs : s.MemInv) : Sound (execPackInstall s) :=
  sound_next (State.uopPipe_memInv hs (fun _ => State.packPipe_memInv hs _) fun _ _ _ hs =>
    (State.putAll_memInv (hs.of_mem (State.setArr_mem _ _ _)) _ _).of_mem (State.setRoutine_mem _ _ _))

theorem execNodeCond_sound {s : State} (hs : s.MemInv) : Sound (execNodeCond s) :=
  sound_next (State.takeAct_memInv hs fun _ _ hs => hs.of_mem (by simp))

theorem execHomeAccess_sound {s : State} (hs : s.MemInv) : Sound (execHomeAccess s) := by
  unfold execHomeAccess
  split
  · exact sound_next hs
  · split
    · split
      · exact sound_next (State.homeRead_memInv hs _ _)
      · exact sound_next (State.homeRead_memInv hs _ _)
      · exact sound_fault _
    · exact sound_next (State.homeAccess_memInv hs _)

/-- What an instruction or an event answers has its memory in canonical form: most leave memory alone. -/
theorem exec_sound (i : Instr) {s : State} (hs : s.MemInv) : Sound (exec i s) := by
  cases i
  case nopS | nopL | nop | nopV | nopM | nopX | arrayModeChange | nopN | remoteInvalidation | bPrecedence | freezeEnd |
      watchdogOverrun | temperatureFalls | emptyBundle => exact sound_of_mem rfl hs
  case add | sub | mul | mulh | mulhu | and | or | xor | andn | shl | shr | sra | rotl | min | minu | max | maxu | seq | sne
      | slt | sltu | div | divu | rem | remu | clz | ctz | pop | ffs | sel | sext | zext | bfx | bfi | lea | mov | amovAS |
      amovSA | amovAA | li | lih | gcmp | gcmpLe | gand | gor | gnot | addImm | andImm | orImm | xorImm | shlImm | shrImm |
      sraImm | rotlImm | mulImm | minImm | maxImm | sltImm | sltuImm | seqImm | sneImm | br | bri | call | calli | ret |
      loop | loopv | lidx | lidxC | fuse2 | fuse4 | rejoin2 | rejoin4 | gres | gcol | gcolT | gcolF | wset | arrive | bphase
      | bset | bsetS | cgo2 | cgo4 | xcopy | xgather | xscatter | xfill | tmove | tunmark | tunmarkF | vadd | vsub | vmul |
      vfma | vfms | vnfma | vmin | vmax | vabs | vneg | vand | vor | vxor | vshl | vshr | vsra | vcmp | vsel | vsplat |
      vbcast | vperm | vshuf | vrot | vins | vmov | vredsum | vredmax | vredmin | vscan | vexp2 | vlog2 | vrcp | vrsqrt |
      vsqrt | vclz | vpop | vcvt | vqcvt | vpack | vunpack | mget | mcall | mzero | uopNop | uopAdva | uopAdvb | uopAcc |
      uopProv | uopWin | uopTrn | uopScl | ltime | lrecv | nsort | nsortI | ntop | ntopK | ntopV | nkth | nmass | nhistRd |
      nthr | nthrP | nrngX | nsampleTok | nsampleShard | nsave | csrr | invqC | invqE | invqN | spawn | issueGroup |
      icacheFill | larderRelease | fuseJoin | watchdog | debugStop | debugResume | traceSample | superstepComplete =>
    exact sound_of_mem (by simp) hs
  case next | mark | ppt | halt | decouple | ilock | pfn | gresAll | fence | drain | cguess | cend | trap | xwait | tsweep |
      vext | mpgm | mwait | mprov | mrd | lsend | switchOut | start | go | firmwareVerify | windowRegisterWrite |
      swapFirmware | drainChannel | retrainPort | reloadCalibration => exact sound_of_mem (by simp [apply_ite State.mem]) hs
  case waitNb | uopArr | uopEnd | trapEntry | preload | budgetExceeded | dataArrival | outboundDepart =>
    exact sound_of_mem (by split <;> simp) hs
  case moveDrain | uopLoopu | lsendRetire => exact sound_of_mem (by split <;> simp [apply_ite State.mem]) hs
  case cchk | moveFreeze | ready | retireCluster =>
    refine sound_of_mem ?_ hs
    dsimp only
    repeat' split
    all_goals simp
  case routineRetire | fatalTrap | acknowledgmentArrival =>
    refine sound_of_mem ?_ hs
    repeat' split
    all_goals simp
  case brk | sret =>
    refine sound_of_mem (State.branchingK_mem fun _ => ?_) hs
    repeat' split
    all_goals simp
  case iunlock | fmt => exact sound_of_mem (State.waiting_mem (by simp)) hs
  case wait => exact sound_of_mem (State.branching_mem (by split <;> simp)) hs
  case bwait => exact sound_of_mem (State.branchingK_mem (fun _ => by split <;> simp [apply_ite State.mem])) hs
  case xdim | mset | nmerge | nhistSet | nrng => exact sound_of_mem (State.waitingN_mem (fun _ => by split <;> simp)) hs
  case mwr => exact sound_of_mem (State.waitingN_mem (fun _ => by split <;> simp [apply_ite State.mem])) hs
  case lred => exact sound_of_mem (State.waiting_mem (by split <;> simp [apply_ite State.mem])) hs
  case nclr | nmergeP | nhist | nhistM => exact sound_of_mem (State.waitingN_mem (fun _ => by simp)) hs
  case dstop => exact sound_of_mem (State.branching_mem (State.underLit_mem (by simp))) hs
  case ld | ldu => exact sound_of_cells (State.loadFixed_cells _ _ _ fun _ _ _ _ => by simp [putS]) hs
  case vld => exact sound_of_cells (State.loadFixed_cells _ _ _ fun _ _ _ _ => by simp [putV]) hs
  case ldt | tchase => exact sound_of_cells (State.loadTimed_cells _ _ _ _ _ _ fun _ _ _ _ => by simp) hs
  case vldt => exact sound_of_cells (State.loadTimed_cells _ _ _ _ _ _ fun _ _ _ _ => by simp) hs
  case st | vst => exact sound_of_cells (State.storeOp_cells _ _ _ _ _) hs
  case aadd | aand | aor | axor | amin | amax | aminu | amaxu | afadd | axchg | acas =>
    exact sound_of_cells (State.atomic_cells _ _ _ _) hs
  case vmaxe h o => exact execVmaxe_sound h o hs
  case tstat h o => exact execTstat_sound h o hs
  case sstep h o => exact execSstep_sound h o hs
  case csrw h o => exact execCsrw_sound h o hs
  case uopClr u => exact execUopClr_sound u hs
  case uopBpip u => exact execUopBpip_sound u hs
  case uopStep u => exact execUopStep_sound u hs
  case uopDrn u => exact execUopDrn_sound u hs
  case routineStart => exact execRoutineStart_sound hs
  case packInstall => exact execPackInstall_sound hs
  case nodeCond => exact execNodeCond_sound hs
  case homeAccess => exact execHomeAccess_sound hs
  case fabricRequest => exact execFabricRequest_sound hs
  case markChain => exact execMarkChain_sound hs
  case fetchFault => exact execFetchFault_sound hs
  case routinePause => exact execRoutinePause_sound hs
  case copyRetire => exact execCopyRetire_sound hs
  case copySuspend => exact execCopySuspend_sound hs
  case moveCopy => exact execMoveCopy_sound hs
  case relocationRetire => exact execRelocationRetire_sound hs
  case lsendDeparture => exact execLsendDeparture_sound hs
  case flitArrival => exact execFlitArrival_sound hs
  case lredReduce => exact execLredReduce_sound hs
  case launch => exact execLaunch_sound hs
  case graph => exact execGraph_sound hs
  case kill => exact execKill_sound hs
  case launchStart => exact execLaunchStart_sound hs
  case kernelRetire => exact execKernelRetire_sound hs
  case nodeKernel => exact execNodeKernel_sound hs
  case nodeLoop => exact execNodeLoop_sound hs
  case nodeJoin => exact execNodeJoin_sound hs
  case installRoutine => exact execInstallRoutine_sound hs
  case attestationRequest => exact execAttestationRequest_sound hs
  case attestationReport => exact execAttestationReport_sound hs
  case copyStart => exact sound_next (State.copyStep_memInv hs _ _ _)
  case fbdMarkDone => exact sound_next (State.fbDone_memInv hs _)
  case tscWrite => exact sound_next (State.csrWiden_memInv hs _ _ _)
  case pageFault => exact sound_next (State.coreFault_memInv hs _ _)
  case switchIn => exact sound_next (State.switchBack_memInv hs _)
  case powerUp => exact sound_next (State.repower_memInv hs true)
  case thermalCritical => exact sound_next (State.repower_memInv hs false)
  case thermalWarning => exact sound_next (State.notify_memInv hs 4)
  case serviceActionComplete => exact sound_next (State.notify_memInv (by exact hs) 3)

/-- Settles O59: every instruction, event and turn of a step is `Sound`. -/
theorem memoryStaysCanonical : Obligations.MemoryStaysCanonical := fun _ t hs h =>
  State.stepWith_sound (fun i _ h => exec_sound i h) hs t h

end Sys2Proof.Machine
end

section
/-! PROOFS. A step runs the decoded operation (R19, R24, R26, R31, R33). -/

namespace Sys2Proof.Machine

/-! ### Bundles of one operation -/

open Sys2Proof.Claims (oneOp standsReady atJob)

theorem word16_toBytes (v : Nat) (bs : List Byte) : word16 (toBytes v 2 ++ bs) = BitVec.ofNat 16 v := by
  have ht : (toBytes v 2 ++ bs).take 2 = toBytes v 2 := by simp [toBytes]
  rw [word16, ht, leBytes_toBytes]
  exact BitVec.eq_of_toNat_eq (by simp)

theorem word32_toBytes (w : BitVec 32) (bs : List Byte) : word32 (toBytes w.toNat 4 ++ bs) = w := by
  have ht : (toBytes w.toNat 4 ++ bs).take 4 = toBytes w.toNat 4 := by simp [toBytes]
  have hw : w.toNat % 256 ^ 4 = w.toNat := Nat.mod_eq_of_lt w.isLt
  rw [word32, ht, leBytes_toBytes, hw, BitVec.ofNat_toNat, BitVec.setWidth_eq]

/-- The header word of a bundle of one operation in slot `k`, with STOP. -/
theorem bhdrOf_oneOp {k : Nat} (hk : k < 8) :
    bhdrOf (BitVec.ofNat 16 (2 ^ 13 + 2 ^ (7 - k))) = { stop := true, p := BitVec.ofNat 8 (2 ^ (7 - k)) } := by
  interval_cases k <;> decide

theorem present_oneOp {k m : Nat} (hk : k < 8) (hm : m < 8) : present (BitVec.ofNat 8 (2 ^ (7 - k))) m = (m == k) := by
  interval_cases k <;> interval_cases m <;> decide

theorem slotList_lt {e : Nat × Slot} (h : e ∈ slotList) : e.1 < 8 := by
  have hall : ∀ e ∈ slotList, e.1 < 8 := by decide
  exact hall e h

/-- The first and the extension word of an operation, as they stand in memory. -/
theorem rawOps_here {member : Nat} {p : BitVec 8} {k : Nat} (sl : Slot) (l : List (Nat × Slot)) (w0 x : BitVec 32)
    (rest : List Byte) (hp : present p k = true) : rawOps member p ((k, sl) :: l)
      (toBytes w0.toNat 4 ++ ((if w0.getLsbD 31 then toBytes x.toNat 4 else []) ++ rest)) =
      ({ member := member, slot := k, w0 := w0, x := if w0.getLsbD 31 then x else 0, dec := decodeOp sl w0 x } ::
        (rawOps member p l rest).1, (rawOps member p l rest).2) := by
  have hdrop : ∀ (v : Nat) (bs : List Byte), (toBytes v 4 ++ bs).drop 4 = bs := fun v bs => by simp [toBytes]
  have hdrop8 : ∀ (u v : Nat) (bs : List Byte), (toBytes u 4 ++ (toBytes v 4 ++ bs)).drop 8 = bs := fun u v bs => by
    simp [toBytes]
  rw [rawOps, if_pos hp]
  cases hx : w0[31] with
  | true => simp [word32_toBytes, bit, hx, hdrop, hdrop8]
  | false => simp [word32_toBytes, bit, hx, hdrop, decodeOp]

theorem rawOps_absent {member : Nat} {p : BitVec 8} {l : List (Nat × Slot)} (bs : List Byte)
    (h : ∀ e ∈ l, present p e.1 = false) : rawOps member p l bs = ([], bs) := by
  induction l with
  | nil => rfl
  | cons e l ih =>
    obtain ⟨he, hl⟩ := List.forall_mem_cons.1 h
    rw [rawOps, if_neg (by simp [he]), ih hl]

/-- A presence byte that names one slot of a list without repeats: that slot's operation is read, and no other. -/
theorem rawOps_one {member : Nat} {p : BitVec 8} {k : Nat} {sl : Slot} {l : List (Nat × Slot)} (hmem : (k, sl) ∈ l)
    (hnd : (l.map Prod.fst).Nodup) (hp : ∀ e ∈ l, present p e.1 = (e.1 == k)) (w0 x : BitVec 32) (rest : List Byte) :
    rawOps member p l (toBytes w0.toNat 4 ++ ((if w0.getLsbD 31 then toBytes x.toNat 4 else []) ++ rest)) =
      ([{ member := member, slot := k, w0 := w0, x := if w0.getLsbD 31 then x else 0, dec := decodeOp sl w0 x }], rest) := by
  induction l with
  | nil => cases hmem
  | cons e l ih =>
    obtain ⟨he, hl⟩ := List.forall_mem_cons.1 hp
    rw [List.map_cons, List.nodup_cons] at hnd
    obtain ⟨hnot, hnd⟩ := hnd
    rcases List.mem_cons.1 hmem with rfl | hin
    · have habs : ∀ e ∈ l, present p e.1 = false := fun e hel => by
        rw [hl e hel, beq_eq_false_iff_ne]
        exact fun hk => hnot (List.mem_map.2 ⟨e, hel, hk⟩)
      rw [rawOps_here sl l w0 x rest (by simpa using he), rawOps_absent rest habs]
    · have hne : e.1 ≠ k := fun hk => hnot (List.mem_map.2 ⟨_, hin, hk.symm⟩)
      rw [rawOps, if_neg (by simp [he, hne]), ih hin hnd hl]

theorem rawMembers_one (p : BitVec 8) (bs : List Byte) : rawMembers 0 [p] bs = rawOps 0 p slotList bs := by
  simp [rawMembers]

theorem oneOperationBundles : Claims.OneOperationBundles := by
  intro k sl w0 x rest hmem
  have hk : k < 8 := slotList_lt hmem
  have hbytes : oneOp k w0 x ++ rest = toBytes (2 ^ 13 + 2 ^ (7 - k)) 2 ++
      (toBytes w0.toNat 4 ++ ((if w0.getLsbD 31 then toBytes x.toNat 4 else []) ++ rest)) := by simp [oneOp]
  have hdrop : ∀ (v : Nat) (bs : List Byte), (toBytes v 2 ++ bs).drop 2 = bs := fun v bs => by simp [toBytes]
  have hops := rawOps_one (member := 0) hmem (by decide) (fun e he => present_oneOp hk (slotList_lt he)) w0 x rest
  have hlen : (toBytes w0.toNat 4 ++ ((if w0.getLsbD 31 then toBytes x.toNat 4 else []) ++ rest)).length =
      (if w0.getLsbD 31 then 8 else 4) + rest.length := by
    split
    · simp only [List.length_append, toBytes_length]; omega
    · simp [toBytes_length]
  have hps : ∀ p bs, presences { stop := true, p := p } 1 bs = [p] := fun _ _ => rfl
  have hwide : ∀ p, wideBytes { stop := true, p := p } 1 = 0 := fun _ => rfl
  simp only [bundleOf, hbytes, word16_toBytes, bhdrOf_oneOp hk, hdrop, hps, hwide, List.drop_zero, rawMembers_one, hops, hlen]
  refine ⟨trivial, trivial, trivial, ?_, trivial⟩
  split <;> omega

/-! ### The operations of a bundle of one operation -/

theorem jobAt_one {s : State} {b : GBundle} {o : RawOp} {i : Instr} {m k : Nat} (hb : b.ops = [o])
    (hr : b.hdr.runs 0 o.member = true) (hd : o.dec = .ok i) (hst : (s.ctx m).sticky = []) :
    s.jobAt b 0 m k = if o.slot = k then some { n := m, slot := o.slot, w0 := o.w0, x := o.x, i := i } else none := by
  have ha : (s.ctx m).armed k = none := by rw [Ctx.armed, hst]; rfl
  by_cases hk : o.slot = k
  · subst hk
    simp [State.jobAt, hb, hr, hd, ha]
  · simp [State.jobAt, hb, hk, ha]

theorem filterMap_upTo_single {α : Type} {f : Nat → Option α} {k : Nat} {a : α}
    (hf : ∀ m, f m = if k = m then some a else none) (n lo : Nat) (hlo : lo ≤ k) (hn : k < lo + n) : (upTo lo n).filterMap f = [a] := by
  have hnone : ∀ n lo, k < lo → (upTo lo n).filterMap f = [] := by
    intro n
    induction n with
    | zero => exact fun _ _ => rfl
    | succ n ih => exact fun lo h => by rw [upTo, List.filterMap_cons, hf, if_neg (by omega)]; exact ih _ (by omega)
  induction n generalizing lo with
  | zero => omega
  | succ n ih =>
    rw [upTo, List.filterMap_cons, hf]
    by_cases hk : k = lo
    · rw [if_pos hk, hnone n (lo + 1) (by omega)]
    · rw [if_neg hk]; exact ih (lo + 1) (by omega) (by omega)

theorem jobs_one {s : State} {n m : Nat} {b : GBundle} {o : RawOp} {i : Instr} (hb : b.ops = [o])
    (hr : b.hdr.runs 0 o.member = true) (hslot : o.slot < 8) (hd : o.dec = .ok i) (hm : s.membersOf n = [m])
    (hst : (s.ctx m).sticky = []) : s.jobs n b = [{ n := m, slot := o.slot, w0 := o.w0, x := o.x, i := i }] := by
  rw [State.jobs, hm, State.jobsGo, State.jobsGo, List.append_nil]
  exact filterMap_upTo_single (fun k => jobAt_one hb hr hd hst) 8 0 (Nat.zero_le _) (by omega)

/-! ### A step of a context that stands ready -/

theorem State.leadN_onCtx {f : Ctx → Ctx} (hw : ∀ c, (f c).fuseW = c.fuseW) (h0 : ∀ c, (f c).fuse0 = c.fuse0) (s : State)
    (m n : Nat) : (s.onCtx m f).leadN n = s.leadN n := by
  rw [State.leadN, State.leadN, State.ctx_onCtx]
  split
  · next h => rw [hw, h0, h]
  · rfl

theorem State.leadN_onCore (s : State) (k : Nat) (f : Core → Core) (n : Nat) : (s.onCore k f).leadN n = s.leadN n := rfl

@[simp] theorem State.overdue_leadN (s : State) (t : Nat) (js : List Job) (l : List Nat) (n : Nat) :
    (s.overdue t js l).leadN n = s.leadN n := by
  induction l generalizing s with
  | nil => rfl
  | cons m l ih =>
    rw [State.overdue]
    split
    · exact ih s
    · rw [ih, State.leadN_onCore]
      refine State.leadN_onCtx ?_ ?_ s m n <;> exact fun _ => rfl

theorem ready_leadN {s : State} {n : Nat} (h : s.ready n = true) : s.leadN n = n := by
  simp only [State.ready, Bool.and_eq_true, beq_iff_eq] at h
  exact h.1.1

/-- The operation of a job in a machine whose leader runs no carry loop: it has the meaning of its instruction. -/
theorem State.runOne_noLoop {s : State} {ex : Exec} {s0 : State} {lead : Nat} {i : Instr}
    (h : (s0.ctx lead).cloop.on = false) :
    s.runOne ex s0 lead i = ex i s := by
  simp [State.runOne, h]

theorem runJobs_one {ex : Exec} {s0 s s1 : State} {lead t : Nat} {b : GBundle} {j : Job} (h : (s0.ctx lead).cloop.on = false)
    (hex : ex j.i (s.latchFor lead b t j) = .next s1) (hgo : s1.latch.stat = .go) :
    runJobs ex s0 lead b t [j] s {} = .next (s1, {}) := by
  rw [runJobs, State.runOne_noLoop h, hex]
  simp [hgo, runJobs]

/-- The head bundle issues: its one operation runs and counts as issued. -/
theorem issueHead_one {s s1 : State} {n : Nat} {b : GBundle} {j : Job} (hready : standsReady s n b j)
    (hloop : ((atJob s n b j).seqC).cloop.on = false) (hex : exec j.i (atJob s n b j) = .next s1) (hgo : s1.latch.stat = .go)
    (k : Nat) : issueHead exec n b (k + 1) s = .next (s1.headDone s n b [j]) := by
  obtain ⟨hhead, hr, hmem, htrap, hsw, hstop, hunit, hint, hcol, hops, hnames, hjobs, hjn⟩ := hready
  have hseq : (atJob s n b j).seqN = n := by
    have hlead : (atJob s n b j).seqN = (s.overdue (s.ctx n).ic [j] [n]).leadN j.n := rfl
    rw [hlead, State.overdue_leadN, hjn, ready_leadN hr]
  have hoff : ((s.overdue (s.ctx n).ic [j] [n]).ctx n).cloop.on = false := by
    rw [State.seqC, hseq] at hloop
    exact hloop
  have hrun : runNamed exec n b (s.ctx n).ic [j] (s.overdue (s.ctx n).ic [j] [n]) = .next (s1, {}) := by
    rw [runNamed, hnames]
    exact (if_neg (by simp [hops])).trans (runJobs_one hoff hex hgo)
  rw [issueHead]
  simp [hjobs, hmem, hrun, hcol]

theorem State.mergeTurn_one {s s1 : State} {n : Nat} {b : GBundle} {j : Job} (hready : standsReady s n b j)
    (hloop : ((atJob s n b j).seqC).cloop.on = false) (hex : exec j.i (atJob s n b j) = .next s1)
    (hgo : s1.latch.stat = .go) :
    s.mergeTurn exec n b = .next (State.settleB s (s1.headDone s n b [j]) n) := by
  have hissue : issueHead exec n b retries s = .next (s1.headDone s n b [j]) := issueHead_one hready hloop hex hgo 31
  obtain ⟨_, _, _, _, _, _, hunit, hint, _, _, _, hjobs, _⟩ := hready
  simp [State.mergeTurn, hunit, hint, hjobs, hissue, andThen]

/-- A machine that stands ready takes its head bundle's merge turn, and no further bundle issues ahead. -/
theorem State.issueTurn_ready {ex : Exec} {s u : State} {n : Nat} {b : GBundle} {j : Job} (hready : standsReady s n b j)
    (hmerge : s.mergeTurn ex n b = .next u) (hearly : (u.ctx n).group.head?.any (fun x => x.early) = false) :
    s.issueTurn ex n = .next u := by
  obtain ⟨hhead, hr, hmem, htrap, hsw, hstop, -⟩ := hready
  obtain ⟨l, hgroup⟩ : ∃ l, (s.ctx n).group = b :: l := List.head?_eq_some_iff.1 hhead
  simp [State.issueTurn, hgroup, andThen, hr, hmem, htrap, hsw, hstop, hmerge, State.earlyTurn, hearly]

theorem stepRunsOne : Claims.StepRunsOne := by
  intro s
  refine ⟨fun i a l h => ?_, ?_, fun n b o i m => jobs_one⟩
  · rw [step, State.stepWith, h]; rfl
  · intro n l b j s1 htodo hturn hn s0 hready hloop hex hgo u hearly
    have hissue : s0.issueTurn exec n = .next u :=
      State.issueTurn_ready hready (State.mergeTurn_one hready hloop hex hgo) hearly
    have hdrop : { s with turns := s.turns.drop 1 } = s0 := by rw [hturn]; rfl
    rw [step, State.stepWith, htodo, hturn]
    simp only [State.takeTurn, hdrop]
    repeat rw [if_neg (by omega)]
    exact hissue

/-- Settles O57: the bytes of one operation are read as that operation, and a machine that stands ready runs it. -/
theorem stepRunsTheOperation : Obligations.StepRunsTheOperation := ⟨oneOperationBundles, stepRunsOne⟩

end Sys2Proof.Machine
end

section
/-! PROOFS. Loads of fixed latency (R18, R138, R140). -/

namespace Sys2Proof.Machine

open Sys2Proof.Claims (addressOf placeLatency stepped)

/-! ### Pending results of a register file -/

theorem mem_pendIns {w p : Nat} {x y : Pend w p} {l : List (Pend w p)} : y ∈ pendIns x l ↔ y = x ∨ y ∈ l := by
  induction l with
  | nil => simp [pendIns]
  | cons z l ih =>
    rw [pendIns]
    split
    · simp
    · simp only [List.mem_cons, ih]; tauto

theorem filter_pendIns {w p : Nat} {q : Pend w p → Bool} {x : Pend w p} (hx : q x = false) (l : List (Pend w p)) :
    (pendIns x l).filter q = l.filter q := by
  induction l with
  | nil => simp [pendIns, hx]
  | cons z l ih =>
    rw [pendIns]
    split
    · rw [List.filter_cons, hx]; rfl
    · rw [List.filter_cons, List.filter_cons, ih]

/-- A result for another register changes no reading. -/
theorem RegFile.at_add_other {w p : Nat} (f : RegFile w p) {x : Pend w p} {r : Nat} (h : x.dst ≠ r) (t : Nat) :
    (f.add x).at r t = f.at r t := by
  simp [RegFile.at, RegFile.add, RegFile.held, filter_pendIns, h]

theorem RegFile.at_ite_add {w p : Nat} (f : RegFile w p) {x : Pend w p} {q : Prop} [Decidable q] {r : Nat}
    (h : ¬ q → x.dst ≠ r) (t : Nat) : (if q then f else f.add x).at r t = f.at r t := by
  split
  · rfl
  · next hq => exact f.at_add_other (h hq) t

theorem coming_add_self {w p : Nat} (f : RegFile w p) {x : Pend w p} {v : Val w p} {g : Nat} (hu : x.under = [])
    (ha : x.alts = [{ val := v, gen := g }]) : Coming (f.add x) x.dst x.due v :=
  ⟨x, mem_pendIns.2 (Or.inl rfl), rfl, rfl, hu, g, ha⟩

theorem Coming.add {w p : Nat} {f : RegFile w p} {r due : Nat} {v : Val w p} (h : Coming f r due v) (x : Pend w p) :
    Coming (f.add x) r due v := by
  obtain ⟨y, hy, hrest⟩ := h
  exact ⟨y, mem_pendIns.2 (Or.inr hy), hrest⟩

theorem Coming.ite_add {w p : Nat} {f : RegFile w p} {r due : Nat} {v : Val w p} (h : Coming f r due v) (x : Pend w p)
    (q : Prop) [Decidable q] : Coming (if q then f else f.add x) r due v := by
  split
  · exact h
  · exact h.add x

/-! ### What an access leaves alone -/

/-- From `s` to `t` the registers of the context of the operation stay, and nothing leaves its core. -/
structure State.SameRegs (s t : State) : Prop where
  latch : t.latch = s.latch
  regs  : t.cur.toRegs = s.cur.toRegs
  portW : t.portW = s.portW
  outq  : t.outq = s.outq

theorem State.SameRegs.refl (s : State) : s.SameRegs s := ⟨rfl, rfl, rfl, rfl⟩

theorem State.SameRegs.trans {s t u : State} (h : s.SameRegs t) (k : t.SameRegs u) : s.SameRegs u :=
  ⟨k.latch.trans h.latch, k.regs.trans h.regs, k.portW.trans h.portW, k.outq.trans h.outq⟩

theorem State.onCtx_sameRegs (s : State) (n : Nat) {f : Ctx → Ctx} (hf : ∀ c, (f c).toRegs = c.toRegs) :
    s.SameRegs (s.onCtx n f) := by
  refine ⟨rfl, ?_, rfl, rfl⟩
  rw [State.cur, State.onCtx_latch, State.ctx_onCtx]
  split
  · next h => rw [hf, ← h]; rfl
  · rfl

theorem State.onCur_sameRegs (s : State) {f : Ctx → Ctx} (hf : ∀ c, (f c).toRegs = c.toRegs) : s.SameRegs (s.onCur f) :=
  s.onCtx_sameRegs _ hf

theorem Ctx.askStop_toRegs (c : Ctx) (w i : Nat) : (c.askStop w i).toRegs = c.toRegs := by
  unfold Ctx.askStop
  split
  · split <;> rfl
  · rfl

theorem State.watch_sameRegs (s : State) (kindB : Nat) (ea : Word) (n : Nat) : s.SameRegs (s.watch kindB ea n) := by
  refine s.onCur_sameRegs fun c => ?_
  repeat' split
  all_goals simp [Ctx.askStop_toRegs]

theorem State.recordLine_sameRegs (s : State) (st : Bool) (home n : Nat) : s.SameRegs (s.recordLine st home n) :=
  s.onCur_sameRegs fun c => by split <;> rfl

theorem State.correct_sameRegs (s : State) (home n : Nat) (issuer : Option Nat) : s.SameRegs (s.correct home n issuer) := by
  unfold State.correct
  dsimp only
  split
  · split <;> exact ⟨rfl, rfl, rfl, rfl⟩
  · exact .refl s

theorem State.touch_sameRegs (s : State) (kindB : Nat) (ea : Word) (n : Nat) (t : Tgt) :
    s.SameRegs (s.touch kindB ea n t) := by
  unfold State.touch
  extract_lets s1 s2
  have h1 : s.SameRegs s1 := s.watch_sameRegs kindB ea n
  have h2 : s.SameRegs s2 := h1.trans (s1.recordLine_sameRegs false t.home n)
  split
  · split
    · exact h2.trans (s2.correct_sameRegs _ _ _)
    · exact h2
  · exact h1

theorem State.recordOor_sameRegs (s : State) (n : Nat) (wr : Bool) (place core off len ba : Nat) :
    s.SameRegs (s.recordOor n wr place core off len ba) := by
  unfold State.recordOor
  split
  · exact .refl s
  · split
    · exact .refl s
    · exact s.onCtx_sameRegs n fun c => by split <;> rfl

theorem State.underWay_sameRegs (s : State) (t : Tgt) : s.SameRegs (s.underWay t) := by
  obtain ⟨hl, hr, hp, hq⟩ := s.onCur_sameRegs (f := fun c => { c with outs := c.outs ++
    [⟨s.uid, s.uid, 0, homeClass t.place, true, true, s.readyAt (fixedLat t.place)⟩] }) fun _ => rfl
  exact ⟨hl, hr, hp, hq⟩

theorem State.arriveOne_sameRegs (s : State) (h : Hdr) (due : Nat) (x : Tag × List Nat) (hx : x.1 = []) :
    s.SameRegs (s.arriveOne h due x) := by
  rw [State.arriveOne, if_pos (by simp [hx])]
  exact s.onCur_sameRegs fun _ => rfl

/-! ### An access of one base and one target -/

/-- The result of a post-step: the one alternative of the base, moved, one count on (R140). -/
def State.stepResult (s : State) (r g : Nat) (v : Word) : Pend 64 1 :=
  { s.result (aReg r) 1 (clean v : SVal) with alts := [{ val := clean v, gen := g }] }

theorem State.postStep_becomes {s : State} {r g : Nat} {a : Word}
    (hb : s.cur.aAt r s.latch.ic = [{ val := clean a, gen := g }]) (d : Word) :
    s.Becomes (s.postStep {} r d)
      { s.cur with sa := if d = 0 then s.cur.sa else s.cur.sa.add (s.stepResult r g (a + d)) } := by
  unfold State.postStep
  split
  · exact State.Becomes.refl s
  · simp only [hb]
    exact s.addS_becomes _ (one_alternative _ _ rfl rfl (by simp))

theorem State.access_clean {s : State} {a ea : Word} {n : Nat} {fixed wr : Bool} {tg : Tgt}
    (h : accessCheck s.cur.table.core (coreOf s.latch.n) ea n fixed wr = .inr tg) :
    s.access (clean a) ea n fixed wr = .inr tg := by
  have hu : s.useTrap (clean a) ea 2 false = none := rfl
  simp only [State.access, hu, h]

/-- A clean base of one alternative whose access passes its checks makes one try. -/
theorem State.tries_one {α : Type} {s : State} {o : MOp} {a : Word} {g n : Nat} {fixed wr : Bool} {tg : Tgt} (x : α)
    (hu : s.latch.under = []) (hb : s.cur.aAt o.base.toNat s.latch.ic = [{ val := clean a, gen := g }])
    (h : accessCheck s.cur.table.core (coreOf s.latch.n) (addressOf o a) n fixed wr = .inr tg) :
    s.tries o n fixed wr [([], x)] =
      [{ tag := [], raw := [], b := clean a, gen := g, x := x, ea := addressOf o a, res := .inr tg }] := by
  have hea : ∀ v : Word, o.ea v = addressOf o v := fun _ => rfl
  simpa [State.tries, hu, hb, restrict, tagPair, tagAnd, tagOk, hea, clean] using State.access_clean h

/-- Where no store is held, memory serves a load. -/
theorem State.serve_memory {s : State} (hl : s.cur.larder = []) (hf : s.cur.freed = []) (cls : Nat) (tg : Tgt) (n : Nat) :
    s.serve cls [] tg n = some [([], .mem)] := by
  unfold State.serve
  split
  · rfl
  · simp [Ctx.heldStores, hl, hf, serveGo]

theorem max_fixedLat (place : Nat) : max 4 (fixedLat place) = placeLatency place := by
  unfold fixedLat placeLatency
  split <;> rfl

/-- What a load records besides its delivery: the line that it touches, an out-of-range offset, and that it is under way. -/
def State.reads (u : State) (ea : Word) (n : Nat) (tg : Tgt) : State :=
  ((u.touch 62 ea n tg).recordOor u.latch.n false tg.place tg.core tg.off n u.latch.ba).underWay tg

theorem State.reads_sameRegs (u : State) (ea : Word) (n : Nat) (tg : Tgt) : u.SameRegs (u.reads ea n tg) :=
  ((u.touch_sameRegs _ _ _ _).trans (State.recordOor_sameRegs _ _ _ _ _ _ _ _)).trans (State.underWay_sameRegs _ _)

/-- The state that a load of fixed latency leaves once its data is on its way in `u`, in a context with nothing held. -/
def State.loaded (s : State) (h : Hdr) (o : MOp) (a : Word) (tg : Tgt) (u : State) : State :=
  ((u.reads (addressOf o a) o.bytes tg).postStep {} o.base.toNat o.stepBytes).arriveAt {} h
    (s.latch.ic + placeLatency tg.place) [([], [])]

theorem State.loadFixed_one {s : State} {h : Hdr} {o : MOp} {a : Word} {tg : Tgt} (hf : s.Fires h) (hc : s.Calm)
    (hb : s.BaseIs o.base.toNat (clean a))
    (hok : accessCheck s.cur.table.core (coreOf s.latch.n) (addressOf o a) o.bytes true false = .inr tg)
    {put : State → Cond2 → Nat → List (Tag × Got) → State} {u : State}
    (hput : put s {} (placeLatency tg.place) [([], .data (s.bytesAt tg.home o.bytes) (s.badAt tg.home o.bytes))] = u)
    (hlatch : u.latch = s.latch) : s.loadFixed h o put = s.loaded h o a tg u := by
  obtain ⟨hu, g, hbase⟩ := hb
  obtain ⟨hlarder, hfreed, hfences, -, -⟩ := hc
  have hfenced : s.cur.fenced 0 = [] := by simp [Ctx.fenced, hfences]
  have hroom : arriveRoom {} h [([], [])] = 0 := by
    unfold arriveRoom arriveIn
    by_cases ha : h.arr <;> simp [ha, tagAnd]
  rw [State.loadFixed, hf.guarded]
  simp [State.tries_one () hu hbase hok, optAll, State.serve_memory hlarder hfreed, State.gotNow, triesTraps, madeIn,
    State.withTraps, hroom, State.withRoom, hfenced, State.raiseAll, State.forTries, State.loaded, State.reads, max_fixedLat, hput,
    hlatch]

theorem State.arriveAt_sameRegs (s : State) (h : Hdr) (due : Nat) : s.SameRegs (s.arriveAt {} h due [([], [])]) := by
  unfold State.arriveAt arriveIn
  split
  · exact s.arriveOne_sameRegs h due ([], []) rfl
  · exact .refl s

/-- The registers after a load: those after its delivery, with the base moved. -/
theorem State.loaded_regs {s u : State} {c : Ctx} {h : Hdr} {o : MOp} {a : Word} {g : Nat} (tg : Tgt) (hu : s.Becomes u c)
    (hb : c.aAt o.base.toNat s.latch.ic = [{ val := clean a, gen := g }]) :
    let t := s.loaded h o a tg u
    t.portW = s.portW ∧ t.outq = s.outq ∧ ∃ x : Pend 64 1, x.dst = aReg o.base.toNat ∧ x.due = s.latch.ic + 1 ∧ x.under = [] ∧
      x.alts = [{ val := clean (a + o.stepBytes), gen := g }] ∧
      t.cur.sa = (if o.stepBytes = 0 then c.sa else c.sa.add x) ∧ t.cur.v = c.v ∧ t.cur.g = c.g ∧ t.cur.gpend = c.gpend := by
  let v := u.reads (addressOf o a) o.bytes tg
  have hv : u.SameRegs v := u.reads_sameRegs _ _ _
  have hvl : v.latch = s.latch := hv.latch.trans hu.latch
  have hvc : v.cur.toRegs = c.toRegs := hv.regs.trans (congrArg Ctx.toRegs hu.cur)
  have hvb : v.cur.aAt o.base.toNat v.latch.ic = [{ val := clean a, gen := g }] := by
    rw [Ctx.aAt, hvc, hvl]; exact hb
  have hw := State.postStep_becomes hvb o.stepBytes
  have ht : (v.postStep {} o.base.toNat o.stepBytes).SameRegs (s.loaded h o a tg u) := State.arriveAt_sameRegs _ _ _
  have htc : (s.loaded h o a tg u).cur.toRegs = (v.postStep {} o.base.toNat o.stepBytes).cur.toRegs := ht.regs
  rw [hw.cur] at htc
  have hdue : (v.stepResult o.base.toNat g (a + o.stepBytes)).due = s.latch.ic + 1 := congrArg (fun l => l.ic + 1) hvl
  refine ⟨?_, ?_, v.stepResult o.base.toNat g (a + o.stepBytes), rfl, hdue, rfl, rfl, ?_, ?_, ?_, ?_⟩
  · rw [ht.portW, hw.1, hv.portW, hu.1]
  · rw [ht.outq, hw.1, hv.outq, hu.1]
  all_goals rw [htc]; simp only [hvc]

theorem stepBytes_eq_zero (o : MOp) : o.stepBytes = 0 ↔ o.step = 0 := by
  have hall : ∀ (st : BitVec 4) (sz : BitVec 3), st.signExtend 64 * BitVec.ofNat 64 (sizeBytes sz) = 0 ↔ st = 0 := by decide
  exact hall o.step o.size

theorem State.KeepsBytes.of_cells {s t : State} (h : t.mem.cells = s.mem.cells) : s.KeepsBytes t := fun a => by
  rw [Mem.get, Mem.get, h]

theorem aReg_ne {d : BitVec 6} {r : Nat} : d.toNat ≠ aReg r := by
  have := d.isLt
  unfold aReg
  omega

section
variable {h : Hdr} {o : MOp} {s : State} {a : Word} {tg : Tgt} (hf : s.Fires h) (hc : s.Calm)
  (hb : s.BaseIs o.base.toNat (clean a))
  (hok : accessCheck s.cur.table.core (coreOf s.latch.n) (addressOf o a) o.bytes true false = .inr tg)
include hf hc hb hok

/-- `ld` and `ldu`. -/
theorem scalarLoad_completes (sg : Bool) :
    let t := s.loadFixed h o (putS o.d.toNat sg)
    let d := o.d.toNat
    (d ≠ 0 → Coming t.cur.sa d (s.latch.ic + placeLatency tg.place)
      (bytesS sg (s.bytesAt tg.home o.bytes) (s.badAt tg.home o.bytes))) ∧
    stepped s t o a ∧ s.KeepsS t [d, aReg o.base.toNat] ∧ (d = 0 → s.KeepsS t [aReg o.base.toNat]) ∧
    (o.step = 0 → s.KeepsS t [d]) ∧
    t.cur.v = s.cur.v ∧ t.cur.g = s.cur.g ∧ t.cur.gpend = s.cur.gpend ∧
    s.KeepsBytes t ∧ t.portW = s.portW ∧ t.outq = s.outq := by
  intro t d
  obtain ⟨g, hbase⟩ := hb.2
  let val := bytesS sg (s.bytesAt tg.home o.bytes) (s.badAt tg.home o.bytes)
  let res : Pend 64 1 := s.result d (placeLatency tg.place) val
  let sa1 := if d = 0 then s.cur.sa else s.cur.sa.add res
  have hu := s.deliverS_becomes d (placeLatency tg.place) val
  have ht : t = s.loaded h o a tg (s.deliverS {} d (placeLatency tg.place) [([], val)]) :=
    State.loadFixed_one hf hc hb hok rfl hu.latch
  have hbase1 : sa1.at (aReg o.base.toNat) s.latch.ic = [{ val := clean a, gen := g }] :=
    (RegFile.at_ite_add _ (fun _ => aReg_ne) _).trans hbase
  obtain ⟨hport, hout, x, hdst, hdue, hunder, halts, hsa, hv, hg, hgp⟩ :=
    State.loaded_regs (h := h) tg hu hbase1
  rw [← ht] at hport hout hsa hv hg hgp
  replace hsa : t.cur.sa = if o.stepBytes = 0 then sa1 else sa1.add x := hsa
  have hat : ∀ r, (d ≠ 0 → d ≠ r) → (o.step ≠ 0 → aReg o.base.toNat ≠ r) → ∀ k, t.cur.sa.at r k = s.cur.sa.at r k := by
    intro r hd hs k
    have hx : ¬ o.stepBytes = 0 → x.dst ≠ r := fun hz => by
      rw [hdst]
      exact hs (mt (stepBytes_eq_zero o).2 hz)
    rw [hsa, RegFile.at_ite_add _ hx]
    exact RegFile.at_ite_add _ hd k
  refine ⟨fun hd => ?_, fun hs => ?_, fun r hr _ => ?_, fun hd r hr _ => ?_, fun hs r hr _ => ?_, hv, hg, hgp,
    State.KeepsBytes.of_cells (s.loadFixed_cells h o fun _ _ _ _ => State.deliverS_mem _ _ _ _ _), hport, hout⟩
  · rw [hsa]
    have h1 : sa1 = s.cur.sa.add res := if_neg hd
    exact Coming.ite_add (by rw [h1]; exact coming_add_self _ (x := res) rfl rfl) x _
  · rw [hsa, if_neg (mt (stepBytes_eq_zero o).1 hs), ← hdst, ← hdue]
    exact coming_add_self _ hunder halts
  · rw [List.mem_cons, List.mem_singleton, not_or] at hr
    exact hat r (fun _ => Ne.symm hr.1) (fun _ => Ne.symm hr.2)
  · exact hat r (absurd hd) (fun _ => Ne.symm (mt List.mem_singleton.2 hr))
  · exact hat r (fun _ => Ne.symm (mt List.mem_singleton.2 hr)) (absurd hs)

/-- `vld`. -/
theorem vectorLoad_completes :
    let t := s.loadFixed h o (putV o.d.toNat)
    Coming t.cur.v o.d.toNat (s.latch.ic + placeLatency tg.place)
      (bytesV (s.bytesAt tg.home o.bytes) (s.badAt tg.home o.bytes)) ∧
    stepped s t o a ∧ s.KeepsS t [aReg o.base.toNat] ∧ s.KeepsV t [o.d.toNat] ∧ (o.step = 0 → t.cur.sa = s.cur.sa) ∧
    t.cur.g = s.cur.g ∧ t.cur.gpend = s.cur.gpend ∧ s.KeepsBytes t ∧ t.portW = s.portW ∧ t.outq = s.outq := by
  intro t
  obtain ⟨g, hbase⟩ := hb.2
  let val := bytesV (s.bytesAt tg.home o.bytes) (s.badAt tg.home o.bytes)
  let res : Pend 1024 32 := s.result o.d.toNat (placeLatency tg.place) val
  have hu := s.deliverV_becomes o.d.toNat (placeLatency tg.place) val
  have ht : t = s.loaded h o a tg (s.deliverV {} o.d.toNat (placeLatency tg.place) [([], val)]) :=
    State.loadFixed_one hf hc hb hok rfl hu.latch
  obtain ⟨hport, hout, x, hdst, hdue, hunder, halts, hsa, hv, hg, hgp⟩ :=
    State.loaded_regs (h := h) tg hu hbase
  rw [← ht] at hport hout hsa hv hg hgp
  replace hsa : t.cur.sa = if o.stepBytes = 0 then s.cur.sa else s.cur.sa.add x := hsa
  replace hv : t.cur.v = s.cur.v.add res := hv
  refine ⟨?_, fun hs => ?_, fun r hr _ k => ?_, fun r hr k => ?_, fun hs => ?_, hg, hgp,
    State.KeepsBytes.of_cells (s.loadFixed_cells h o fun _ _ _ _ => State.deliverV_mem _ _ _ _ _), hport, hout⟩
  · rw [hv]
    exact coming_add_self _ (x := res) rfl rfl
  · rw [hsa, if_neg (mt (stepBytes_eq_zero o).1 hs), ← hdst, ← hdue]
    exact coming_add_self _ hunder halts
  · rw [hsa]
    exact RegFile.at_ite_add _ (fun _ => hdst ▸ Ne.symm (mt List.mem_singleton.2 hr)) k
  · rw [hv]
    exact RegFile.at_add_other _ (Ne.symm (mt List.mem_singleton.2 hr)) k
  · rw [hsa, if_pos ((stepBytes_eq_zero o).2 hs)]

end

/-- Settles O20: each form is a load of fixed latency with its own delivery. -/
theorem fixedLoads : Obligations.FixedLoads := by
  intro h o s a tg hf hc hb hok
  refine ⟨fun i sg hi => ?_, _, rfl, vectorLoad_completes hf hc hb hok⟩
  rcases hi with ⟨rfl, rfl⟩ | ⟨rfl, rfl⟩
  · exact ⟨_, rfl, scalarLoad_completes hf hc hb hok true⟩
  · exact ⟨_, rfl, scalarLoad_completes hf hc hb hok false⟩

end Sys2Proof.Machine
end

section
/-! PROOFS. The events of a core and a context (R20, R23, R27, R98, R100, R128, R259, R351, R354, R357). -/

namespace Sys2Proof.Machine

open Sys2Proof.Claims (othersStay)

/-- A change of contexts that is the same done twice reaches each context named. -/
theorem State.onCtxs_ctx_mem {s : State} {f : Ctx → Ctx} (hf : ∀ c, f (f c) = f c) {m : Nat} {ns : List Nat} (h : m ∈ ns) :
    (s.onCtxs f ns).ctx m = f (s.ctx m) := by
  induction ns generalizing s with
  | nil => exact absurd h List.not_mem_nil
  | cons n ns ih =>
    rw [State.onCtxs]
    by_cases hns : m ∈ ns
    · rw [ih hns, State.ctx_onCtx]
      split
      · next he => rw [hf, he]
      · rfl
    · obtain rfl : m = n := (List.mem_cons.1 h).resolve_right hns
      rw [State.onCtxs_ctx_other hns, State.ctx_onCtx_same]

theorem mem_upTo {lo n m : Nat} : m ∈ upTo lo n ↔ lo ≤ m ∧ m < lo + n := by
  induction n generalizing lo with
  | zero => simp [upTo]
  | succ n ih => rw [upTo, List.mem_cons, ih]; omega

/-! ### The release of a held arrival -/

section
variable {s : State} {e : Held} {l : List Held} (hl : (s.ctx s.ev.n).larder = e :: l) (hdead : e.dead = false)
  (hoff : (s.ctx s.ev.n).larderOff = false) (hloop : (s.leadC s.ev.n).cloop.on = false)
include hl hdead hoff hloop

theorem release_undecided (htag : e.tag ≠ []) : exec .larderRelease s = .next s := by
  refine congrArg Host.Outcome.next ?_
  simp [State.release, hoff, hloop, hl, State.releaseGo, hdead, htag]

theorem release_arrival {b sl ba due : Nat} (htag : e.tag = []) (hop : e.op = .arrive b sl ba due [])
    (hdue : due ≤ (s.ctx s.ev.n).ic) :
    exec .larderRelease s =
      .next ((s.toBarrier s.ev.n sl ba b none).onCtx s.ev.n fun c => (c.unhold e.id).relNow s.cycle e) := by
  refine congrArg Host.Outcome.next ?_
  simp [State.release, hoff, hloop, hl, State.releaseGo, hdead, htag, Held.isStore, Held.raises, hop, State.canRelease,
    State.performHeld, hdue]

end

theorem Ctx.relNow_larder (c : Ctx) (cyc : Nat) (e : Held) : (c.relNow cyc e).larder = c.larder := by
  unfold Ctx.relNow
  dsimp only
  split <;> rfl

theorem larderRelease_changes {s : State} {e : Held} {l : List Held} {b sl ba due : Nat} (hl : (s.ctx s.ev.n).larder = e :: l)
    (hdead : e.dead = false) (hoff : (s.ctx s.ev.n).larderOff = false) (hloop : (s.leadC s.ev.n).cloop.on = false) :
    (e.tag ≠ [] → exec .larderRelease s = .next s) ∧
    (e.tag = [] → e.op = .arrive b sl ba due [] → due ≤ (s.ctx s.ev.n).ic → ∃ u, exec .larderRelease s = .next u ∧
      u.barIn = s.barIn ++ [⟨clusterOf s.ev.n, b, s.cycle + 2, coreOf s.ev.n, s.ev.n % 2 == 1, sl, ba, none⟩] ∧
      (u.ctx s.ev.n).larder = (s.ctx s.ev.n).larder.filter (fun x => x.id != e.id) ∧ othersStay s u s.ev.n ∧
      u.mem = s.mem) := by
  refine ⟨release_undecided hl hdead hoff hloop, fun htag hop hdue =>
    ⟨_, release_arrival hl hdead hoff hloop htag hop hdue, rfl, ?_, fun m hm => ?_, rfl⟩⟩
  · rw [State.ctx_onCtx_same, Ctx.relNow_larder]
    rfl
  · rw [State.ctx_onCtx, if_neg hm]
    rfl

/-! ### Cache fills -/

/-- What room is made of: one line that no lock names. -/
theorem Core.makeRoom_keeps_locked (d : Core) (k : Nat) {l : Nat × Nat} (hl : l ∈ d.lines)
    (hk : d.locks.any (fun x => x.2 == l.1) = true) : l ∈ (d.makeRoom k).lines := by
  unfold Core.makeRoom
  extract_lets free
  split
  · exact hl
  · split
    · next v hv =>
      have hfree : d.locks.any (fun x => x.2 == v.1) = false := by
        simpa using (List.mem_filter.1 (List.mem_of_getElem? hv)).2
      have hne : l ≠ v := fun he => by rw [he, hfree] at hk; cases hk
      exact (List.mem_erase_of_ne hne).2 hl
    · exact hl

theorem Core.makeRoom_of_room {d : Core} (k : Nat) (h : d.lines.length < cacheLines) : d.makeRoom k = d := if_pos h

/-- A core with room made and a line behind those that stay, as a fill leaves it. -/
def Core.filled (k : Nat) (l : Nat × Nat) (d : Core) : Core :=
  { d.makeRoom k with lines := (d.makeRoom k).lines ++ [l] }

/-- What a fill can do: nothing, or one line of its key behind the room that was made. -/
theorem State.fillLine_cases (s : State) (n va : Nat) :
    (s.fillLine n va = s ∧ ((s.ctx n).canFetch (va - va % 64) = true → ∀ hm, s.fetchHome n (va - va % 64) = some hm →
      ∃ l ∈ (s.core (coreOf n)).lines, l.1 = lineKey (s.ctx n).asid va)) ∨
    ∃ u v, s.fillLine n va = u ∧ u = { s with cores := u.cores, picks := u.picks } ∧
      (∀ j, j ≠ coreOf n → u.core j = s.core j) ∧ (u.core (coreOf n)).lines =
        ((s.core (coreOf n)).makeRoom (Config.pick s.picks)).lines ++ [(lineKey (s.ctx n).asid va, v)] := by
  unfold State.fillLine
  extract_lets c k v0 full
  split
  · next h =>
    refine Or.inl ⟨rfl, fun hc hm _ => ?_⟩
    have hc' : c.canFetch v0 = true := hc
    rw [hc', Bool.not_true, Bool.false_or] at h
    obtain ⟨l, hl, hk⟩ := List.any_eq_true.1 h
    exact ⟨l, hl, by simpa using hk⟩
  · split
    · next h => exact Or.inl ⟨rfl, fun _ hm hh => by rw [h] at hh; cases hh⟩
    · next hm _ =>
      refine Or.inr ⟨_, leBytes (s.bytesAt hm 64), rfl, rfl, fun j hj => ?_, ?_⟩
      · exact (State.core_onCore s (coreOf n) j (Core.filled (Config.pick s.picks) (k, leBytes (s.bytesAt hm 64)))).trans (if_neg hj)
      · exact congrArg Core.lines
          (State.core_onCore_same s (coreOf n) (Core.filled (Config.pick s.picks) (k, leBytes (s.bytesAt hm 64))))

theorem icacheFill_changes (s : State) :
    let n := s.ev.n
    ∃ u, exec .icacheFill s = .next u ∧ u = { s with cores := u.cores, picks := u.picks } ∧
      (∀ j, j ≠ coreOf n → u.core j = s.core j) ∧
      ((s.core (coreOf n)).lines.length < cacheLines → ∀ l ∈ (s.core (coreOf n)).lines, l ∈ (u.core (coreOf n)).lines) ∧
      (∀ l ∈ (s.core (coreOf n)).lines, (s.core (coreOf n)).locks.any (fun x => x.2 == l.1) = true →
        l ∈ (u.core (coreOf n)).lines) ∧
      let v := s.ev.addr - s.ev.addr % 64
      ∀ hm, (s.ctx n).canFetch v = true → s.fetchHome n v = some hm →
        ∃ l ∈ (u.core (coreOf n)).lines, l.1 = lineKey (s.ctx n).asid s.ev.addr := by
  intro n
  refine ⟨s.fillLine n s.ev.addr, rfl, ?_⟩
  rcases s.fillLine_cases n s.ev.addr with ⟨he, hkey⟩ | ⟨u, v, he, hframe, hother, hlines⟩
  · rw [he]
    exact ⟨rfl, fun _ _ => rfl, fun _ _ hl => hl, fun _ hl _ => hl, fun hm hc hh => hkey hc hm hh⟩
  · rw [he, hlines]
    refine ⟨hframe, hother, fun hroom l hl => ?_, fun l hl hk => ?_, fun _ _ _ => ⟨_, List.mem_append_right _
      (List.mem_singleton.2 rfl), rfl⟩⟩
    · rw [Core.makeRoom_of_room _ hroom]
      exact List.mem_append_left _ hl
    · exact List.mem_append_left _ (Core.makeRoom_keeps_locked _ _ hl hk)

/-! ### The fault buffer -/

theorem State.notify_ctx (s : State) (ev m : Nat) : (s.notify ev).ctx m = s.ctx m := by
  unfold State.notify
  dsimp only
  split <;> rfl

theorem State.notify_waits (s : State) (ev : Nat) : (s.notify ev).mod.waits = s.mod.waits := by
  unfold State.notify
  dsimp only
  split <;> rfl

theorem State.waitOn_open (s : State) (f : Nat) (i : Option Nat) : (s.waitOn f i).faultOpen f = true := by
  simp [State.faultOpen, State.waitOn]

/-- A context waits on the fault, and no context has changed. -/
def State.opens (s : State) (f : Nat) (t : State) : Prop := t.faultOpen f = true ∧ ∀ m, t.ctx m = s.ctx m

theorem State.opens.notify {s t : State} {f : Nat} (h : s.opens f t) (ev : Nat) : s.opens f (t.notify ev) := by
  obtain ⟨hopen, hctx⟩ := h
  refine ⟨?_, fun m => (t.notify_ctx ev m).trans (hctx m)⟩
  rw [State.faultOpen, State.notify_waits]
  exact hopen

theorem State.waitOn_opens {s t : State} (h : t.ctxs = s.ctxs) (f : Nat) (i : Option Nat) : s.opens f (t.waitOn f i) :=
  ⟨t.waitOn_open f i, fun m => by rw [State.ctx, State.ctx, ← h]; rfl⟩

theorem State.postTry_opens {s t : State} {p : Post} (h : s.postTry p = some t) : s.opens p.fid t := by
  unfold State.postTry at h
  split at h
  · obtain rfl := Option.some.inj h
    exact State.waitOn_opens rfl _ _
  · split at h
    · obtain rfl := Option.some.inj h
      exact (State.waitOn_opens (by rfl) _ _).notify 1
    · cases h

theorem State.post_opens (s : State) (p : Post) : s.opens p.fid (s.post p) := by
  unfold State.post
  split
  · next h => exact State.postTry_opens h
  · exact (State.waitOn_opens (by rfl) _ _).notify 2

theorem fetchFault_changes (s : State) :
    ∃ u f, exec .fetchFault s = .next u ∧ (u.ctx s.ev.n).hold = .fetch f ∧ u.faultOpen f = true ∧ othersStay s u s.ev.n := by
  let p := Post.mk s.uid (fbWord (if s.ev.idx = 0x31 then 0x31 else 0x30) (s.ctx s.ev.n).asid s.ev.n 1 0 false)
    (BitVec.ofNat 64 s.ev.addr) (BitVec.ofNat 64 s.ev.v.toNat) (BitVec.ofNat 64 0)
  obtain ⟨hopen, hctx⟩ := State.post_opens { s with uid := s.uid + 1 } p
  refine ⟨_, s.uid, rfl, congrArg Ctx.hold (State.ctx_onCtx_same _ _ _), hopen, fun m hm => ?_⟩
  exact (State.ctx_onCtx _ _ _ _).trans ((if_neg hm).trans (hctx m))

/-- The word that a done mark writes is not valid. -/
theorem unmarked_bit (w : Word) : bit (BitVec.ofNat 64 ((w &&& 0x7FFFFFFFFFFFFFFF).toNat % 256 ^ 8)) 63 = false := by
  have hlt : (w &&& 0x7FFFFFFFFFFFFFFF).toNat < 256 ^ 8 := (w &&& 0x7FFFFFFFFFFFFFFF).isLt
  rw [Nat.mod_eq_of_lt hlt, BitVec.ofNat_toNat, BitVec.setWidth_eq]
  simp [bit]

theorem fbdMarkDone_changes {s : State} (hs : s.MemInv) (hp : s.mod.posts = []) :
    ∃ u, exec .fbdMarkDone s = .next u ∧
      (let i := s.ev.idx % 256
       u.fbValid i = false ∧ ∀ w ∈ u.mod.waits, w.2 ≠ some i) ∧ ∀ m, u.ctx m = s.ctx m := by
  refine ⟨_, rfl, ?_⟩
  rw [State.fbDone, hp]
  refine ⟨⟨?_, fun w hw => ?_⟩, fun _ => rfl⟩
  · refine (congrArg (fun v => bit (BitVec.ofNat 64 v) 63) (Mem.nat_store_same _ _ 8 [] hs)).trans (unmarked_bit _)
  · simpa using (List.mem_filter.1 hw).2

/-! ### Joins and supersteps -/

theorem fuseJoin_changes (s : State) :
    let n := s.ev.n
    ∃ u, exec .fuseJoin s = .next u ∧ u.mem = s.mem ∧
      (∀ j, j < s.ev.idx → u.ctx (n + 2 * j) = { s.ctx (n + 2 * j) with pass := true, ic := (s.ctx n).ic }) ∧
      ∀ m, (∀ j, j < s.ev.idx → m ≠ n + 2 * j) → u.ctx m = s.ctx m := by
  intro n
  refine ⟨_, rfl, State.onCtxs_mem _ _ _, fun j hj => ?_, fun m hm => ?_⟩
  · refine State.onCtxs_ctx_mem ?_ (List.mem_map.2 ⟨j, mem_upTo.2 ⟨Nat.zero_le j, by rwa [Nat.zero_add]⟩, rfl⟩)
    exact fun _ => rfl
  · refine State.onCtxs_ctx_other fun h => ?_
    obtain ⟨j, hj, rfl⟩ := List.mem_map.1 h
    exact hm j (by rw [← Nat.zero_add s.ev.idx]; exact (mem_upTo.1 hj).2) rfl

theorem superstepComplete_changes (s : State) :
    ∃ u, exec .superstepComplete s = .next u ∧ u.mem = s.mem ∧
      ∀ m ∈ s.ctxsOf s.ev.id, s.reachesSstep m = true → (u.ctx m).pass = true ∧ (u.ctx m).reach = .none := by
  refine ⟨_, rfl, State.onCtxs_mem _ _ _, fun m hm hr => ?_⟩
  rw [State.onCtxs_ctx_mem ?_ (List.mem_filter.2 ⟨hm, hr⟩)]
  · exact ⟨rfl, rfl⟩
  · exact fun _ => rfl

/-- Settles O43, event by event. -/
theorem contextEvents : Obligations.ContextEvents := fun s =>
  ⟨rfl, rfl, rfl, fun _ _ _ _ _ _ => larderRelease_changes, icacheFill_changes s, fetchFault_changes s, fbdMarkDone_changes,
    fuseJoin_changes s, superstepComplete_changes s⟩

end Sys2Proof.Machine
end

section
/-! PROOFS. Decoding inverts encoding, and encoding inverts decoding (R24, R28 to R30, R41 to R46). -/

namespace Sys2Proof

/-! ### Fields of concatenated words -/

theorem bits_append_high {v w : Nat} (a : BitVec v) (b : BitVec w) {lo n : Nat} (h : w ≤ lo) :
    bits (a ++ b) lo n = bits a (lo - w) n := BitVec.extractLsb'_append_eq_of_le h

theorem bits_append_low {v w : Nat} (a : BitVec v) (b : BitVec w) {lo n : Nat} (h : lo + n ≤ w) :
    bits (a ++ b) lo n = bits b lo n := BitVec.extractLsb'_append_eq_of_add_le h

theorem bits_all {w : Nat} (v : BitVec w) : bits v 0 w = v := BitVec.extractLsb'_eq_self

theorem bits_append_bits {w : Nat} (v : BitVec w) {hi lo m n : Nat} (h : hi = lo + n) :
    bits v hi m ++ bits v lo n = bits v lo (m + n) := BitVec.extractLsb'_append_extractLsb'_eq_extractLsb' h

theorem bit_append_high {v w : Nat} (a : BitVec v) (b : BitVec w) {i : Nat} (h : w ≤ i) : bit (a ++ b) i = bit a (i - w) := by
  simp [bit, BitVec.getLsbD_append, Nat.not_lt.mpr h]

theorem bit_append_low {v w : Nat} (a : BitVec v) (b : BitVec w) {i : Nat} (h : i < w) : bit (a ++ b) i = bit b i := by
  simp [bit, BitVec.getLsbD_append, h]

theorem bit_bbit (b : Bool) : bit (bbit b) 0 = b := by simp [bit, bbit]

theorem bbit_bit {w : Nat} (v : BitVec w) (i : Nat) : bbit (bit v i) = bits v i 1 := by
  ext j hj
  simp [bbit, bit, bits, Nat.lt_one_iff.mp hj]

/-! ### The families of R30: the fields of a word are the fields that it was made of -/

section
variable (h : Hdr)

@[simp] theorem tOf_low_ex (o : TOp) : tOf o.low (arrWord h o.ex) = o := by
  simp (disch := decide) only [tOf, TOp.low, TOp.ex, arrWord, bits_append_high, bits_append_low, bits_all, Nat.reduceSub]

@[simp] theorem mOf_low_ex (o : MOp) : mOf o.low (arrWord h o.ex) = o := by
  simp (disch := decide) only [mOf, MOp.low, MOp.ex, arrWord, bits_append_high, bits_append_low, bit_append_high,
    bit_append_low, bits_all, bit_bbit, Nat.reduceSub]

@[simp] theorem fOf_lowBits_x (o : FOp) : fOf o.lowBits (arrWord h o.x) = o := by
  simp (disch := decide) only [fOf, FOp.lowBits, arrWord, bits_append_high, bits_append_low, bits_all, Nat.reduceSub]

@[simp] theorem vOf_low_ex (o : VOp) : vOf o.low (arrWord h o.ex) = o := by
  simp (disch := decide) only [vOf, VOp.low, VOp.ex, arrWord, bits_append_high, bits_append_low, bit_append_high,
    bit_append_low, bits_all, bit_bbit, Nat.reduceSub]

@[simp] theorem kcOf_low_x (o : KCOp) : kcOf o.low (arrWord h o.x) = o := by
  simp (disch := decide) only [kcOf, KCOp.low, arrWord, bits_append_high, bits_append_low, bit_append_high,
    bit_append_low, bits_all, bit_bbit, Nat.reduceSub]

@[simp] theorem krOf_low_x (o : KROp) : krOf o.low (arrWord h o.x) = o := by
  simp (disch := decide) only [krOf, KROp.low, arrWord, bits_append_high, bits_append_low, bits_all, Nat.reduceSub]

@[simp] theorem qOf_low_ex (o : QOp) : qOf o.low (arrWord h o.ex) = o := by
  simp (disch := decide) only [qOf, QOp.low, QOp.ex, arrWord, bits_append_high, bits_append_low, bit_append_high,
    bit_append_low, bits_all, bit_bbit, Nat.reduceSub]

@[simp] theorem nOf_low_x (o : NOp) : nOf o.low (arrWord h o.x) = o := by
  simp (disch := decide) only [nOf, NOp.low, arrWord, bits_append_high, bits_append_low, bits_all, Nat.reduceSub]

end

@[simp] theorem iOf_low_imm32 (o : IOp) : iOf o.low o.imm32 = o := by
  simp (disch := decide) only [iOf, IOp.low, bits_append_high, bits_append_low, bits_all, Nat.reduceSub]

@[simp] theorem cbOf_disp_imm32 (o : CBOp) : cbOf o.disp o.imm32 = o := rfl

@[simp] theorem clOf_low_imm32 (o : CLOp) : clOf o.low o.imm32 = o := by
  simp (disch := decide) only [clOf, CLOp.low, bits_append_high, bits_append_low, bits_all, Nat.reduceSub]

@[simp] theorem crOf_low_imm32 (o : CROp) : crOf o.low o.imm32 = o := by
  simp (disch := decide) only [crOf, CROp.low, bits_append_high, bits_append_low, bits_all, Nat.reduceSub]

@[simp] theorem ciOf_low_imm32 (o : CIOp) : ciOf o.low o.imm32 = o := by
  simp (disch := decide) only [ciOf, CIOp.low, bits_append_high, bits_append_low, bits_all, Nat.reduceSub]

/-! ### The families of R30: the fields cut out of a word make up that word -/

section
variable (l : BitVec 20) (x : BitVec 32)

@[simp] theorem low_tOf : (tOf l x).low = l := by
  simp (disch := decide) only [tOf, TOp.low, bits_append_bits, bits_all]

@[simp] theorem ex_tOf : (tOf l x).ex = bits x 0 27 := by
  simp (disch := decide) only [tOf, TOp.ex, bits_append_bits]

@[simp] theorem low_mOf : (mOf l x).low = l := by
  simp (disch := decide) only [mOf, MOp.low, bbit_bit, bits_append_bits, bits_all]

@[simp] theorem ex_mOf : (mOf l x).ex = bits x 0 27 := by
  simp (disch := decide) only [mOf, MOp.ex, bbit_bit, bits_append_bits]

@[simp] theorem lowBits_fOf : (fOf l x).lowBits = l := by
  simp (disch := decide) only [fOf, FOp.lowBits, bits_append_bits, bits_all]

@[simp] theorem low_vOf : (vOf l x).low = l := by
  simp (disch := decide) only [vOf, VOp.low, bbit_bit, bits_append_bits, bits_all]

@[simp] theorem ex_vOf : (vOf l x).ex = bits x 0 27 := by
  simp (disch := decide) only [vOf, VOp.ex, bbit_bit, bits_append_bits]

@[simp] theorem low_kcOf : (kcOf l x).low = l := by
  simp (disch := decide) only [kcOf, KCOp.low, bbit_bit, bits_append_bits, bits_all]

@[simp] theorem low_krOf : (krOf l x).low = l := by
  simp (disch := decide) only [krOf, KROp.low, bits_append_bits, bits_all]

@[simp] theorem low_qOf : (qOf l x).low = l := by
  simp (disch := decide) only [qOf, QOp.low, bbit_bit, bits_append_bits, bits_all]

@[simp] theorem ex_qOf : (qOf l x).ex = bits x 0 27 := by
  simp (disch := decide) only [qOf, QOp.ex, bits_append_bits]

@[simp] theorem low_nOf : (nOf l x).low = l := by
  simp (disch := decide) only [nOf, NOp.low, bits_append_bits, bits_all]

@[simp] theorem low_iOf : (iOf l x).low = l := by
  simp (disch := decide) only [iOf, IOp.low, bits_append_bits, bits_all]

@[simp] theorem low_clOf : (clOf l x).low = l := by
  simp (disch := decide) only [clOf, CLOp.low, bits_append_bits, bits_all]

@[simp] theorem low_crOf : (crOf l x).low = l := by
  simp (disch := decide) only [crOf, CROp.low, bits_append_bits, bits_all]

@[simp] theorem low_ciOf : (ciOf l x).low = l := by
  simp (disch := decide) only [ciOf, CIOp.low, bits_append_bits, bits_all]

@[simp] theorem imm32_iOf : (iOf l x).imm32 = x := rfl
@[simp] theorem disp_cbOf : (cbOf l x).disp = l := rfl
@[simp] theorem imm32_cbOf : (cbOf l x).imm32 = x := rfl
@[simp] theorem imm32_clOf : (clOf l x).imm32 = x := rfl
@[simp] theorem imm32_crOf : (crOf l x).imm32 = x := rfl
@[simp] theorem imm32_ciOf : (ciOf l x).imm32 = x := rfl
@[simp] theorem x_fOf : (fOf l x).x = bits x 0 27 := rfl
@[simp] theorem x_kcOf : (kcOf l x).x = bits x 0 27 := rfl
@[simp] theorem x_krOf : (krOf l x).x = bits x 0 27 := rfl
@[simp] theorem x_nOf : (nOf l x).x = bits x 0 27 := rfl

end

/-! ### The header fields -/

section
variable (opc : BitVec 6) (h : Hdr) (l : BitVec 20)

theorem firstWord_ext : bit (firstWord opc h l) 31 = h.ext := by
  simp (disch := decide) only [firstWord, bit_append_high, bit_bbit, Nat.reduceSub]

theorem firstWord_opc : bits (firstWord opc h l) 25 6 = opc := by
  simp (disch := decide) only [firstWord, bits_append_high, bits_append_low, bits_all, Nat.reduceSub]

theorem firstWord_g : bits (firstWord opc h l) 21 4 = h.g := by
  simp (disch := decide) only [firstWord, bits_append_high, bits_append_low, bits_all, Nat.reduceSub]

theorem firstWord_gs : bit (firstWord opc h l) 20 = h.gs := by
  simp (disch := decide) only [firstWord, bit_append_high, bit_append_low, bit_bbit, Nat.reduceSub]

theorem firstWord_low : bits (firstWord opc h l) 0 20 = l := by
  simp (disch := decide) only [firstWord, bits_append_low, bits_all]

theorem arrWord_arr (e : BitVec 27) : bit (arrWord h e) 31 = h.arr := by
  simp (disch := decide) only [arrWord, bit_append_high, bit_bbit, Nat.reduceSub]

theorem arrWord_bn (e : BitVec 27) : bits (arrWord h e) 27 4 = h.bn := by
  simp (disch := decide) only [arrWord, bits_append_high, bits_append_low, bits_all, Nat.reduceSub]

end

/-- A first word is made up of its fields. -/
theorem firstWord_hdrOf (sl : Slot) (w0 x : BitVec 32) : firstWord (bits w0 25 6) (hdrOf sl w0 x) (bits w0 0 20) = w0 := by
  simp (disch := decide) only [firstWord, hdrOf, bbit_bit, bits_append_bits, bits_all]

/-- The extension word of a family with arrivals is made up of ARR, BN and the 27 bits of the family. -/
theorem arrWord_hdrOf {sl : Slot} {w0 : BitVec 32} (x : BitVec 32) (he : bit w0 31 = true)
    (ha : hasArr sl (bits w0 25 6).toNat = true) : arrWord (hdrOf sl w0 x) (bits x 0 27) = x := by
  simp (disch := decide) only [arrWord, hdrOf, he, ha, Bool.and_self, Bool.true_and, if_true, bbit_bit, bits_append_bits,
    bits_all]

/-! ### Every slot operation is read back from its parts -/

/-- What the decoder needs to find an operation again: the map of its slot reads it from its fields, and its extension word is zero
in the short form and holds the arrival where its family has one. -/
structure Reads (i : Instr) (sl : Slot) (opc : BitVec 6) (h : Hdr) (l : BitVec 20) (x : BitVec 32) : Prop where
  map : mapOf sl opc.toNat h l x = some i
  hdr : wfHdr h = true
  short : h.ext = false → x = 0
  arrival : if hasArr sl opc.toNat then bit x 31 = h.arr ∧ bits x 27 4 = h.bn else wfNoArr h = true

section
variable {i j : Instr} {sl : Slot} {opc : BitVec 6} {h : Hdr} {l : BitVec 20} {x : BitVec 32} {s q c : Bool}

theorem wfNoArr_iff : wfNoArr h = true ↔ h.arr = false ∧ h.bn = 0 := by simp [wfNoArr]

/-- The short form has no arrival (R29). -/
theorem wfNoArr_of_short (hw : wfHdr h = true) (he : h.ext = false) : wfNoArr h = true := by
  simp only [wfHdr, he, Bool.and_eq_true, Bool.false_or, Bool.not_eq_true'] at hw
  obtain ⟨⟨_, hbn⟩, harr⟩ := hw
  simpa [harr, wfNoArr] using hbn

theorem arrWord_zero (hn : wfNoArr h = true) : arrWord h 0 = 0 := by
  obtain ⟨ha, hb⟩ := wfNoArr_iff.mp hn
  rw [arrWord, ha, hb]
  rfl

/-- A family with arrivals: `e` is what its extension word holds besides. -/
theorem Reads.withArrival {e : BitVec 27} (hw : (wfCommon h s && c) = true) (hz : s = true → e = 0)
    (ha : hasArr sl opc.toNat = true) (hm : mapOf sl opc.toNat h l (arrWord h e) = some j) (hj : j = i) :
    Reads i sl opc h l (arrWord h e) := by
  subst hj
  simp only [wfCommon, Bool.and_eq_true] at hw
  obtain ⟨⟨hhdr, hs⟩, _⟩ := hw
  refine ⟨hm, hhdr, fun he => ?_, ?_⟩
  · rw [hz (by simpa [he] using hs), arrWord_zero (wfNoArr_of_short hhdr he)]
  · rw [if_pos ha]
    exact ⟨arrWord_arr h e, arrWord_bn h e⟩

/-- The families C and I: the extension word is all value. -/
theorem Reads.withoutArrival (hw : (wfCommon h s && q && c) = true) (hq : q = true → wfNoArr h = true)
    (hz : s = true → x = 0) (ha : hasArr sl opc.toNat = false) (hm : mapOf sl opc.toNat h l x = some j) (hj : j = i) :
    Reads i sl opc h l x := by
  subst hj
  simp only [wfCommon, Bool.and_eq_true] at hw
  obtain ⟨⟨⟨hhdr, hs⟩, hn⟩, _⟩ := hw
  exact ⟨hm, hhdr, fun he => hz (by simpa [he] using hs), by rw [ha]; exact hq hn⟩

theorem TOp.ex_of_short {o : TOp} (hs : o.short = true) : o.ex = 0 := by
  simp only [TOp.short, Bool.and_eq_true, beq_iff_eq] at hs
  rw [TOp.ex, hs.1, hs.2]; rfl

theorem MOp.ex_of_short {o : MOp} (hs : o.short = true) : o.ex = 0 := by
  simp only [MOp.short, Bool.and_eq_true, beq_iff_eq] at hs
  obtain ⟨⟨⟨⟨hlof, hret⟩, hmrg⟩, hhint⟩, hoff⟩ := hs
  rw [MOp.ex, hlof, hret, hmrg, hhint, hoff]; rfl

theorem VOp.ex_of_short {o : VOp} (hs : o.short = true) : o.ex = 0 := by
  simp only [VOp.short, Bool.and_eq_true, beq_iff_eq] at hs
  obtain ⟨⟨⟨⟨⟨⟨⟨⟨hb5, hc⟩, hrm⟩, hsat⟩, hfo⟩, hhint⟩, hsm⟩, hvstep⟩, hsub⟩ := hs
  rw [VOp.ex, hb5, hc, hrm, hsat, hfo, hhint, hsm, hvstep, hsub]; rfl

theorem QOp.ex_of_short {o : QOp} (hs : o.short = true) : o.ex = 0 := by
  simp only [QOp.short, Bool.and_eq_true, beq_iff_eq] at hs
  obtain ⟨⟨⟨hlof, hxstep⟩, hhint⟩, hx⟩ := hs
  rw [QOp.ex, hlof, hxstep, hhint, hx]; rfl

theorem wfNoArr_of_wfImm {o : IOp} (hw : wfImm h o = true) : wfNoArr h = true := (Bool.and_eq_true_iff.mp hw).1

/-- The V slot (R45). -/
theorem Reads.vector (hp : i.parts = some (.v, opc, h, l, x)) (hw : i.wf = true) : Reads i .v opc h l x := by
  cases i <;> cases hp <;>
    exact .withArrival hw VOp.ex_of_short rfl rfl (by rw [vOf_low_ex])

/-- The L slot (R44). -/
theorem Reads.memory (hp : i.parts = some (.l, opc, h, l, x)) (hw : i.wf = true) : Reads i .l opc h l x := by
  cases i with
  | fence | drain =>
    cases hp
    exact .withArrival hw eq_of_beq rfl rfl (by rw [fOf_lowBits_x])
  | _ =>
    cases hp <;> exact .withArrival hw MOp.ex_of_short rfl rfl (by rw [mOf_low_ex])

/-- The M slot (R46). -/
theorem Reads.matrix (hp : i.parts = some (.m, opc, h, l, x)) (hw : i.wf = true) : Reads i .m opc h l x := by
  cases i with
  | mcall | mzero | mpgm =>
    cases hp
    exact .withArrival hw eq_of_beq rfl rfl (by rw [kcOf_low_x])
  | _ =>
    cases hp <;> exact .withArrival hw eq_of_beq rfl rfl (by rw [krOf_low_x])

/-- The X slot (R46); bit 7 of its extension word tells `tunmark` from `tunmark.f`. -/
theorem Reads.engine (hp : i.parts = some (.x, opc, h, l, x)) (hw : i.wf = true) : Reads i .x opc h l x := by
  cases i with
  | tunmark | tunmarkF =>
    cases hp
    refine .withArrival hw QOp.ex_of_short rfl ?_ rfl
    simp only [Instr.wf, Bool.and_eq_true, beq_iff_eq, decide_eq_true_eq] at hw
    simp [mapOf, mapX]
    omega
  | _ =>
    cases hp <;> exact .withArrival hw QOp.ex_of_short rfl rfl (by rw [qOf_low_ex])

/-- The N slot (R46); `sub` tells the operations of one OPC apart. -/
theorem Reads.sort (hp : i.parts = some (.n, opc, h, l, x)) (hw : i.wf = true) : Reads i .n opc h l x := by
  cases i with
  | nmerge | nmergeP | nsort | nsortI | ntop | ntopK | ntopV | nhist | nhistM
  | nhistSet | nhistRd | nthr | nthrP | nrng | nrngX | nsampleTok | nsampleShard =>
    cases hp
    refine .withArrival hw eq_of_beq rfl ?_ rfl
    simp only [Instr.wf, Bool.and_eq_true, beq_iff_eq] at hw
    simp only [mapOf, mapN, BitVec.reduceToNat, nOf_low_x]
    simp [hw]
  | _ =>
    cases hp <;> exact .withArrival hw eq_of_beq rfl rfl (by rw [nOf_low_x])

/-- The S slot (R43); `sub` tells the forms of `amov` apart. -/
theorem Reads.scalar (hp : i.parts = some (.s, opc, h, l, x)) (hw : i.wf = true) : Reads i .s opc h l x := by
  cases i with
  | amovAS | amovSA | amovAA =>
    cases hp
    refine .withArrival hw TOp.ex_of_short rfl ?_ rfl
    simp only [Instr.wf, Bool.and_eq_true, beq_iff_eq] at hw
    simp only [mapOf, mapS, BitVec.reduceToNat, tOf_low_ex]
    simp [hw]
  | bfx | bfi | lea | li | lih | addImm | andImm | orImm | xorImm | shlImm
  | shrImm | sraImm | rotlImm | mulImm | minImm | maxImm | sltImm | sltuImm | seqImm
  | sneImm =>
    cases hp
    exact .withoutArrival hw wfNoArr_of_wfImm eq_of_beq rfl rfl (by rw [iOf_low_imm32])
  | _ =>
    cases hp <;> exact .withArrival hw TOp.ex_of_short rfl rfl (by rw [tOf_low_ex])

/-- The C slot (R42); the value or `sub` tells the operations of one OPC apart. -/
theorem Reads.control (hp : i.parts = some (.c, opc, h, l, x)) (hw : i.wf = true) : Reads i .c opc h l x := by
  cases i with
  | lidx | lidxC | cgo2 | cgo4 =>
    cases hp
    refine .withoutArrival hw id eq_of_beq rfl ?_ rfl
    simp only [Instr.wf, Bool.and_eq_true, beq_iff_eq, decide_eq_true_eq] at hw
    simp [mapOf, mapC]
    omega
  | rejoin2 | rejoin4 | wait | waitNb | bset | bsetS | gres | gresAll | gcol
  | gcolT | gcolF | invqC | invqE | invqN | fuse2 | fuse4 =>
    cases hp
    refine .withoutArrival hw id eq_of_beq rfl ?_ rfl
    simp only [Instr.wf, Bool.and_eq_true, beq_iff_eq] at hw
    simp only [mapOf, mapC, BitVec.reduceToNat, crOf_low_imm32, ciOf_low_imm32]
    simp [hw]
  | br | call | pfn | cguess | cend =>
    cases hp
    exact .withoutArrival hw id eq_of_beq rfl rfl rfl
  | loop | loopv =>
    cases hp
    exact .withoutArrival hw id eq_of_beq rfl rfl (by rw [clOf_low_imm32])
  | brk | next | fmt | arrive | trap | csrr | csrw =>
    cases hp
    exact .withoutArrival hw id eq_of_beq rfl rfl (by rw [ciOf_low_imm32])
  | _ =>
    cases hp <;> exact .withoutArrival hw id eq_of_beq rfl rfl (by rw [crOf_low_imm32])

end

section
variable {i : Instr} {sl : Slot} {opc : BitVec 6} {h : Hdr} {l : BitVec 20} {x : BitVec 32}

theorem reads_parts (hp : i.parts = some (sl, opc, h, l, x)) (hw : i.wf = true) : Reads i sl opc h l x := by
  cases sl with
  | c => exact .control hp hw
  | s => exact .scalar hp hw
  | l => exact .memory hp hw
  | v => exact .vector hp hw
  | m => exact .matrix hp hw
  | x => exact .engine hp hw
  | n => exact .sort hp hw

/-- The header is cut out of the words that it stands in. -/
theorem Reads.hdrOf_firstWord (hr : Reads i sl opc h l x) : hdrOf sl (firstWord opc h l) x = h := by
  obtain ⟨_, hhdr, _, harrival⟩ := hr
  have hfields : (h.ext && hasArr sl opc.toNat && bit x 31) = h.arr ∧
      (if h.ext && hasArr sl opc.toNat then bits x 27 4 else 0) = h.bn := by
    cases he : h.ext with
    | false =>
      obtain ⟨harr, hbn⟩ := wfNoArr_iff.mp (wfNoArr_of_short hhdr he)
      simp [harr, hbn]
    | true =>
      cases ha : hasArr sl opc.toNat with
      | false =>
        rw [ha] at harrival
        obtain ⟨harr, hbn⟩ := wfNoArr_iff.mp harrival
        simp [harr, hbn]
      | true =>
        rw [ha] at harrival
        exact harrival
  obtain ⟨harr, hbn⟩ := hfields
  simp only [hdrOf, firstWord_ext, firstWord_opc, firstWord_g, firstWord_gs, harr, hbn]

/-- The decoder finds the operation in the words that encode it. -/
theorem Reads.decodes (hr : Reads i sl opc h l x) (hw : i.wf = true) :
    decodeOp sl (firstWord opc h l) ((if h.ext then some x else none).getD 0) = .ok i := by
  have hx : (if h.ext then (if h.ext then some x else none).getD 0 else 0) = x := by
    cases he : h.ext with
    | false => simp [hr.short he]
    | true => rfl
  simp only [decodeOp, firstWord_ext, hx, firstWord_opc, hr.hdrOf_firstWord, firstWord_low, hr.map, hw, if_true]

theorem encode_eq_some {w0 : BitVec 32} {y : Option (BitVec 32)} (he : encode i = some (sl, w0, y)) :
    ∃ opc h l x, i.parts = some (sl, opc, h, l, x) ∧ w0 = firstWord opc h l ∧ y = if h.ext then some x else none := by
  unfold encode at he
  split at he
  · cases he
  · next sl' opc h l x hp =>
    cases he
    exact ⟨opc, h, l, x, hp, rfl, rfl⟩

end

theorem encodedOperationsDecode : Claims.EncodedOperationsDecode := by
  intro i sl w0 y hw he
  obtain ⟨opc, h, l, x, hp, rfl, rfl⟩ := encode_eq_some he
  exact (reads_parts hp hw).decodes hw

/-! ### Whatever a map reads has the parts that it was read from -/

/-- The extension word as an operation of the family encodes it: ARR, BN and 27 bits where the family has arrivals. -/
def extOf (sl : Slot) (opc : Nat) (h : Hdr) (x : BitVec 32) : BitVec 32 :=
  if hasArr sl opc then arrWord h (bits x 0 27) else x

section
variable {n : Nat} {h : Hdr} {l : BitVec 20} {x : BitVec 32} {i : Instr}

theorem parts_mapC (hm : mapC n h l x = some i) : i.parts = some (.c, BitVec.ofNat 6 n, h, l, extOf .c n h x) := by
  simp only [mapC] at hm
  repeat' split at hm
  all_goals cases hm
  all_goals simp [Instr.parts, extOf, hasArr]

theorem parts_mapS (hm : mapS n h l x = some i) : i.parts = some (.s, BitVec.ofNat 6 n, h, l, extOf .s n h x) := by
  simp only [mapS] at hm
  repeat' split at hm
  all_goals cases hm
  all_goals simp [Instr.parts, extOf, hasArr]

theorem parts_mapL (hm : mapL n h l x = some i) : i.parts = some (.l, BitVec.ofNat 6 n, h, l, extOf .l n h x) := by
  simp only [mapL] at hm
  split at hm
  all_goals cases hm
  all_goals simp [Instr.parts, extOf, hasArr]

theorem parts_mapV (hm : mapV n h l x = some i) : i.parts = some (.v, BitVec.ofNat 6 n, h, l, extOf .v n h x) := by
  simp only [mapV] at hm
  split at hm
  all_goals cases hm
  all_goals simp [Instr.parts, extOf, hasArr]

theorem parts_mapM (hm : mapM n h l x = some i) : i.parts = some (.m, BitVec.ofNat 6 n, h, l, extOf .m n h x) := by
  simp only [mapM] at hm
  split at hm
  all_goals cases hm
  all_goals simp [Instr.parts, extOf, hasArr]

theorem parts_mapX (hm : mapX n h l x = some i) : i.parts = some (.x, BitVec.ofNat 6 n, h, l, extOf .x n h x) := by
  simp only [mapX] at hm
  repeat' split at hm
  all_goals cases hm
  all_goals simp [Instr.parts, extOf, hasArr]

theorem parts_mapN (hm : mapN n h l x = some i) : i.parts = some (.n, BitVec.ofNat 6 n, h, l, extOf .n n h x) := by
  simp only [mapN] at hm
  repeat' split at hm
  all_goals cases hm
  all_goals simp [Instr.parts, extOf, hasArr]

end

theorem parts_mapOf {sl : Slot} {opc : BitVec 6} {h : Hdr} {l : BitVec 20} {x : BitVec 32} {i : Instr}
    (hm : mapOf sl opc.toNat h l x = some i) : i.parts = some (sl, opc, h, l, extOf sl opc.toNat h x) := by
  have hopc : BitVec.ofNat 6 opc.toNat = opc := by simp
  cases sl with
  | c => simpa [hopc] using parts_mapC hm
  | s => simpa [hopc] using parts_mapS hm
  | l => simpa [hopc] using parts_mapL hm
  | v => simpa [hopc] using parts_mapV hm
  | m => simpa [hopc] using parts_mapM hm
  | x => simpa [hopc] using parts_mapX hm
  | n => simpa [hopc] using parts_mapN hm

theorem extOf_hdrOf {sl : Slot} {w0 : BitVec 32} (x : BitVec 32) (he : bit w0 31 = true) :
    extOf sl (bits w0 25 6).toNat (hdrOf sl w0 x) x = x := by
  unfold extOf
  split
  · exact arrWord_hdrOf x he ‹_›
  · rfl

theorem decodeOp_eq_ok {sl : Slot} {w0 x : BitVec 32} {i : Instr} (hd : decodeOp sl w0 x = .ok i) :
    i.wf = true ∧ ∃ y, y = (if bit w0 31 then x else 0) ∧
      mapOf sl (bits w0 25 6).toNat (hdrOf sl w0 y) (bits w0 0 20) y = some i := by
  simp only [decodeOp] at hd
  split at hd
  · cases hd
  · next j hm =>
    split at hd
    · cases hd
      exact ⟨‹_›, _, rfl, hm⟩
    · cases hd

theorem decodedOperationsEncode : Claims.DecodedOperationsEncode := by
  intro i sl w0 x hd
  obtain ⟨hw, y, hy, hm⟩ := decodeOp_eq_ok hd
  refine ⟨hw, ?_⟩
  simp only [encode, parts_mapOf hm, firstWord_hdrOf]
  show some (sl, w0, if bit w0 31 then some _ else none) = some (sl, w0, if bit w0 31 then some x else none)
  cases he : bit w0 31 with
  | false => rfl
  | true =>
    rw [he, if_pos rfl] at hy
    rw [hy, extOf_hdrOf x he]

/-- Settles O58: each slot's map reads an operation back from its parts, and what it reads has the parts that it was read from. -/
theorem encodingRoundTrip : Obligations.EncodingRoundTrip := ⟨encodedOperationsDecode, decodedOperationsEncode⟩

end Sys2Proof
end

section
/-! PROOFS. Nops, empty bundles, and operations whose guard fails (R26, R41, R113). -/

namespace Sys2Proof.Machine

open Sys2Proof.Claims

theorem nopsDoNothing : NopsDoNothing := fun _ _ =>
  ⟨fun _ => rfl, fun _ => rfl, fun _ => rfl, fun _ => rfl, fun _ => rfl, fun _ => rfl, fun _ => rfl, fun _ _ _ => rfl⟩

/-! ### What an operation does where its guard fails -/

/-- The operation is one under its guard: whatever it does, it does where the guard passes. -/
def underGuard (i : Instr) (h : Hdr) : Prop := ∀ s, ∃ f, exec i s = .next (s.guarded h f)

theorem underGuard.off {i : Instr} {h : Hdr} (hi : underGuard i h) {s : State} (hg : s.guard h = none) : exec i s = .next s := by
  obtain ⟨f, hf⟩ := hi s
  rw [hf, State.guarded_off hg]

theorem State.waiting_off {s : State} {h : Hdr} (hg : s.guard h = none) (ho : s.cur.ownOpen h s.latch.ic = [])
    (srcs : List (List (Tag × SVal))) (f : State) : s.waiting h srcs f = s := by
  simp only [State.waiting, State.waitingN, ho, State.guarded_off hg]
  rfl

theorem State.atomic_off {s : State} {h : Hdr} (hg : s.guard h = none) (ho : s.cur.ownOpen h s.latch.ic = []) (o : MOp)
    (aop : Nat) : s.atomic h o aop = s := by
  unfold State.atomic
  split
  · exact State.waiting_off hg ho _ _
  · exact State.guarded_off hg _

theorem State.vop_off {s : State} {h : Hdr} (hg : s.guard h = none) {o : VOp} (hfo : o.foOk = true) (lat : Nat)
    (outs : List (Tag × VRes)) : s.vop h o true lat outs = s := by
  simp only [State.vop, hfo, State.guarded_off hg]
  rfl

/-! ### The operations of each shape -/

theorem offT_underGuard : ∀ i ∈ offT, ∀ h o, underGuard (i h o) h := by
  simp only [offT, twoSource, oneSource, divisions, List.map_cons, List.map_nil, List.cons_append, List.nil_append,
    List.forall_mem_cons, List.not_mem_nil, IsEmpty.forall_iff, implies_true, and_true]
  and_intros <;> exact fun _ _ _ => ⟨_, rfl⟩

theorem offI_underGuard : ∀ i ∈ offI, ∀ h o, underGuard (i h o) h := by
  simp only [offI, withImmediate, List.map_cons, List.map_nil, List.cons_append, List.nil_append, List.forall_mem_cons,
    List.not_mem_nil, IsEmpty.forall_iff, implies_true, and_true]
  and_intros <;> exact fun _ _ _ => ⟨_, rfl⟩

theorem access_underGuard : ∀ i ∈ [Instr.ld, .ldu, .vld, .st, .vst, .ldt, .vldt, .tchase], ∀ h o, underGuard (i h o) h := by
  simp only [List.forall_mem_cons, List.not_mem_nil, IsEmpty.forall_iff, implies_true, and_true]
  and_intros <;> exact fun _ _ _ => ⟨_, rfl⟩

theorem exec_atomic : ∀ e ∈ atomics, ∀ h o s, exec (e.1 h o) s = .next (s.atomic h o e.2) := by
  simp only [atomics, List.forall_mem_cons, List.not_mem_nil, IsEmpty.forall_iff, implies_true, and_true]
  and_intros <;> exact fun _ _ _ => rfl

theorem offQ_underGuard : ∀ i ∈ offQ, ∀ h o, underGuard (i h o) h := by
  simp only [offQ, List.forall_mem_cons, List.not_mem_nil, IsEmpty.forall_iff, implies_true, and_true]
  and_intros <;> exact fun _ _ _ => ⟨_, rfl⟩

theorem exec_vectorTwo : ∀ e ∈ vectorTwo, ∀ h o s, ∃ lat outs, exec (e.1 h o) s = .next (s.vop h o true lat outs) := by
  simp only [vectorTwo, List.forall_mem_cons, List.not_mem_nil, IsEmpty.forall_iff, implies_true, and_true]
  and_intros <;> exact fun _ _ _ => ⟨_, _, rfl⟩

theorem exec_vectorThree : ∀ e ∈ vectorThree, ∀ h o s, ∃ lat outs, exec (e.1 h o) s = .next (s.vop h o true lat outs) := by
  simp only [vectorThree, List.forall_mem_cons, List.not_mem_nil, IsEmpty.forall_iff, implies_true, and_true]
  and_intros <;> exact fun _ _ _ => ⟨_, _, rfl⟩

theorem offM_off {s : State} {h : Hdr} (hg : s.guard h = none) (ho : s.cur.ownOpen h s.latch.ic = []) :
    ∀ i ∈ offM, ∀ o, exec (i h o) s = .next s := by
  intro i hi o
  rcases List.mem_append.mp hi with ha | ha
  · exact (access_underGuard i ha h o).off hg
  · obtain ⟨e, he, rfl⟩ := List.mem_map.mp ha
    rw [exec_atomic e he, State.atomic_off hg ho]

theorem failingGuards : FailingGuards := by
  intro s h hg ho
  refine ⟨fun i hi o => (offT_underGuard i hi h o).off hg, fun i hi o => (offI_underGuard i hi h o).off hg, offM_off hg ho,
    fun i hi o => (offQ_underGuard i hi h o).off hg, fun e he o hfo => ?_, fun e he o hfo => ?_⟩
  · obtain ⟨lat, outs, hx⟩ := exec_vectorTwo e he h o s
    rw [hx, State.vop_off hg hfo]
  · obtain ⟨lat, outs, hx⟩ := exec_vectorThree e he h o s
    rw [hx, State.vop_off hg hfo]

/-- Settles O36: each listed operation does under its guard whatever it does. -/
theorem noEffect : Obligations.NoEffect := ⟨nopsDoNothing, failingGuards⟩

end Sys2Proof.Machine
end

section
/-! PROOFS. The next issue group of a context (R27, R31, R41). -/

namespace Sys2Proof.Machine

open Sys2Proof.Claims

/-! ### Cache lines that leave or come change no context -/

@[simp] theorem State.evict_ctx (s : State) (n m : Nat) (l : List Nat) : (s.evict n l).ctx m = s.ctx m := by
  induction l generalizing s with
  | nil => rfl
  | cons x l ih =>
    rw [State.evict]
    dsimp only
    split
    · rw [ih]
      split <;> rfl
    · exact ih s

@[simp] theorem State.fillLine_ctx (s : State) (n va m : Nat) : (s.fillLine n va).ctx m = s.ctx m := by
  rcases s.fillLine_cases n va with ⟨he, _⟩ | ⟨u, _, he, hframe, _⟩
  · rw [he]
  · rw [he, hframe]; rfl

@[simp] theorem State.fillLines_ctx (s : State) (n m : Nat) (l : List Nat) : (s.fillLines n l).ctx m = s.ctx m := by
  induction l generalizing s with
  | nil => rfl
  | cons va l ih => rw [State.fillLines, ih, State.fillLine_ctx]

/-! ### What fetch and its checks read -/

/-- The states agree in all that the fetch of code reads. -/
structure State.SameCode (s t : State) : Prop where
  ctx : t.ctx = s.ctx
  cores : t.cores = s.cores
  mem : t.mem = s.mem
  mod : t.mod = s.mod

section
variable {s t : State}

theorem State.SameCode.core (h : s.SameCode t) : t.core = s.core := by
  funext k; rw [State.core, State.core, h.cores]

theorem State.SameCode.fetchWay (h : s.SameCode t) : t.fetchWay = s.fetchWay := by
  have hown : t.ownHome = s.ownHome := by funext hm; simp only [State.ownHome, h.mod]
  funext n va
  rw [State.fetchWay, State.fetchWay, h.mem, hown, h.ctx]

theorem State.SameCode.fetchHome (h : s.SameCode t) : t.fetchHome = s.fetchHome := by
  funext n va
  rw [State.fetchHome, State.fetchHome, h.fetchWay]

theorem State.SameCode.byteAt (h : s.SameCode t) : t.byteAt = s.byteAt := by
  have hin : t.inRange = s.inRange := by
    funext a; rw [State.inRange, State.inRange, h.core]
  funext a
  rw [State.byteAt, State.byteAt, hin, h.mem]

theorem State.SameCode.codeBytes (h : s.SameCode t) (n va k : Nat) : t.codeBytes n va k = s.codeBytes n va k := by
  induction k generalizing va with
  | zero => rfl
  | succ k ih =>
    rw [State.codeBytes, State.codeBytes, State.codeByte, State.codeByte, h.core, h.ctx, h.fetchHome, h.byteAt, ih]

theorem State.SameCode.codeAt (h : s.SameCode t) (n va w : Nat) : t.codeAt n va w = s.codeAt n va w := by
  simp only [State.codeAt, h.codeBytes]

theorem State.SameCode.assemble (h : s.SameCode t) (n w va k : Nat) : t.assemble n w va k = s.assemble n w va k := by
  induction k generalizing va with
  | zero => rfl
  | succ k ih => simp only [State.assemble, h.codeAt, ih]

theorem State.SameCode.codeFault (h : s.SameCode t) : t.codeFault = s.codeFault := by
  have hpage : t.pageBad = s.pageBad := by
    funext n va; rw [State.pageBad, State.pageBad, h.fetchWay]
  funext n va len
  rw [State.codeFault, State.codeFault, hpage]

theorem State.SameCode.fetchBad (h : s.SameCode t) (n : Nat) (bs : List (Nat × RawBundle)) :
    t.fetchBad n bs = s.fetchBad n bs := by
  induction bs with
  | nil => rfl
  | cons b bs ih => rw [State.fetchBad, State.fetchBad, h.codeFault, ih]

section
variable (h : t.ctx = s.ctx)
include h

theorem State.membersOf_congr : t.membersOf = s.membersOf := by
  funext n; rw [State.membersOf, State.membersOf, h]

theorem State.groupTrap_congr : t.groupTrap = s.groupTrap := by
  funext n ra ba code sl i0 i1
  rw [State.groupTrap, State.groupTrap, h]

theorem State.checkOp_congr : t.checkOp = s.checkOp := by
  have hdenied : t.csrwDenied = s.csrwDenied := by
    funext ms i c; rw [State.csrwDenied, State.csrwDenied, h]
  funext n ra ba c b o
  rw [State.checkOp, State.checkOp, hdenied, State.groupTrap_congr h, State.membersOf_congr h, h]

theorem State.checkOps_congr (n ra ba c : Nat) (b : BHdr) (os : List RawOp) :
    t.checkOps n ra ba c b os = s.checkOps n ra ba c b os := by
  induction os with
  | nil => rfl
  | cons o os ih => rw [State.checkOps, State.checkOps, State.checkOp_congr h, ih]

theorem State.checkBundles_congr (n ra w c : Nat) (bs : List (Nat × RawBundle)) :
    t.checkBundles n ra w c bs = s.checkBundles n ra w c bs := by
  induction bs generalizing c with
  | nil => rfl
  | cons b bs ih =>
    rw [State.checkBundles, State.checkBundles, State.checkOps_congr h, State.groupTrap_congr h, ih]

/-- The checks of a group read the contexts alone. -/
theorem State.checkGroup_congr (n va w : Nat) (bs : List (Nat × RawBundle)) :
    t.checkGroup n va w bs = s.checkGroup n va w bs := by
  have hbad : t.groupBad n bs = s.groupBad n bs := by
    rw [State.groupBad, State.groupBad, State.membersOf_congr h, h]
  rw [State.checkGroup, State.checkGroup, State.checkBundles_congr h, hbad, State.groupTrap_congr h, State.membersOf_congr h, h]

end
end

/-- The bundles that a fetch fault left assembled are taken up (R369). -/
def Ctx.noPart (c : Ctx) : Ctx := { c with part := none }

/-- A context that has none left is fetched as it stands. -/
theorem State.sameCode_noPart {s : State} {n : Nat} (hp : (s.ctx n).part = none) : s.SameCode (s.onCtx n Ctx.noPart) := by
  refine ⟨?_, rfl, rfl, rfl⟩
  funext m
  rw [State.ctx_onCtx, Ctx.noPart, ← hp]
  split
  · next he => rw [he]
  · rfl

/-! ### ISSUE_GROUP -/

theorem issueGroup_misaligned {s : State} {n : Nat} (ho : (s.ctx n).pc % 2 = 1) :
    ∃ t : TrapRec, t.code = .fetchAlign ∧ s.issueGroup n = s.onCtx n (fun c => c.report t) :=
  ⟨s.groupTrap n (s.ctx n).pc (s.ctx n).pc .fetchAlign 0 (BitVec.ofNat 64 (s.ctx n).pc) 0, rfl, if_pos ho⟩

/-- A group that is fetched and passes its checks is taken, in a state with the contexts of before. -/
theorem issueGroup_taken {s : State} {n : Nat} (he : (s.ctx n).pc % 2 = 0) (hp : (s.ctx n).part = none) :
    let va := (s.ctx n).pc
    let s1 := s.evict n (linesOf va 1048)
    let bs := s1.assemble n (s.ctx n).fuseW va 4
    s1.fetchBad n bs = none →
    (s1.fillLines n (linesOf va (groupEnd va bs - va))).checkGroup n va (s.ctx n).fuseW bs = none →
    ∃ t : State, s.issueGroup n = t.takeGroup n va bs ∧ t.ctx = s.ctx := by
  intro va s1 bs hf hc
  -- The machine first takes up what a fetch fault left: here nothing, so that fetch and checks read the same.
  have hev : s1.ctx = s.ctx := funext fun m => State.evict_ctx s n m _
  have hsame : s1.SameCode (s1.onCtx n Ctx.noPart) := State.sameCode_noPart (by rw [hev, hp])
  have hctx (l : List Nat) : ((s1.onCtx n Ctx.noPart).fillLines n l).ctx = s.ctx := by
    funext m; rw [State.fillLines_ctx, hsame.ctx, hev]
  have hfill (l : List Nat) : (s1.fillLines n l).ctx = s.ctx := by
    funext m; rw [State.fillLines_ctx, hev]
  refine ⟨(s1.onCtx n Ctx.noPart).fillLines n (linesOf va (groupEnd va bs - va)), ?_, hctx _⟩
  rw [State.checkGroup_congr (hfill _), ← State.checkGroup_congr (hctx (linesOf va (groupEnd va bs - va)))] at hc
  rw [← hsame.fetchBad] at hf
  unfold State.issueGroup
  extract_lets w trap old at' s1' new bs' s2'
  rw [if_neg (by omega)]
  have hold : old = [] := by simp only [old, Ctx.assembled, hp]
  have hat : at' = va := by simp only [at', hold]; rfl
  have hs1 : s1' = s1.onCtx n Ctx.noPart := by simp only [s1', hat]; rfl
  have hnew : new = bs := by simp only [new, hs1, hat, hold]; exact hsame.assemble ..
  have hbs : bs' = bs := by simp only [bs', hold, hnew]; rfl
  have hs2 : s2' = (s1.onCtx n Ctx.noPart).fillLines n (linesOf va (groupEnd va bs - va)) := by simp only [s2', hs1, hbs]
  rw [hnew, hs1, hf, hbs, hs2]
  dsimp only
  rw [hc]

/-- What a group that is taken changes of the contexts. -/
theorem State.takeGroup_ctx (t : State) (n va : Nat) (bs : List (Nat × RawBundle)) :
    othersStay t (t.takeGroup n va bs) n ∧ ((t.takeGroup n va bs).ctx n).gaddr = va ∧
      ((t.takeGroup n va bs).ctx n).gnext = groupEnd va bs ∧ ((t.takeGroup n va bs).ctx n).toRegs = (t.ctx n).toRegs ∧
      ((t.takeGroup n va bs).ctx n).group =
        bs.map (fun b => GBundle.mk b.1 b.2.len b.2.hdr b.2.ops (b.2.hdr.rep.toNat + 1) none false) := by
  have hctx : (t.takeGroup n va bs).ctx = (t.onCtx n (fun c => { c with
    group := bs.map (fun b => GBundle.mk b.1 b.2.len b.2.hdr b.2.ops (b.2.hdr.rep.toNat + 1) none false),
    gaddr := va, gnext := groupEnd va bs })).ctx := rfl
  rw [othersStay, hctx, State.ctx_onCtx_same]
  exact ⟨fun m hm => (State.ctx_onCtx ..).trans (if_neg hm), rfl, rfl, rfl, rfl⟩

/-- Settles O44: a misaligned address is reported; a fetched and checked group is taken in a state with the contexts of before. -/
theorem issueGroups : Obligations.IssueGroups := by
  intro s n va s1 bs
  refine ⟨fun ho => ?_, fun he hp hf hc => ?_⟩
  · obtain ⟨t, ht, hi⟩ := issueGroup_misaligned ho
    exact ⟨t, ht, congrArg Host.Outcome.next hi⟩
  · obtain ⟨t, hi, hctx⟩ := issueGroup_taken he hp hf hc
    obtain ⟨hothers, haddr, hnext, hregs, hgroup⟩ := t.takeGroup_ctx n va bs
    refine ⟨t.takeGroup n va bs, congrArg Host.Outcome.next hi, ?_, ?_, haddr, hnext, ?_, ?_⟩
    · rw [← hi]; exact s.issueGroup_mem n
    · rw [othersStay, hctx] at hothers; exact hothers
    · rw [hregs, hctx]
    · rw [hgroup, List.map_map]; rfl

end Sys2Proof.Machine
end

section
/-! PROOFS. The words that the manual writes out (R87). -/

namespace Sys2Proof

theorem decodeOp_of_encode_short {i : Instr} {sl : Slot} {w0 : BitVec 32} (hw : i.wf = true)
    (he : encode i = some (sl, w0, none)) : decodeOp sl w0 0 = .ok i := encodedOperationsDecode i sl w0 none hw he

theorem decodeOp_of_encode_long {i : Instr} {sl : Slot} {w0 x : BitVec 32} (hw : i.wf = true)
    (he : encode i = some (sl, w0, some x)) : decodeOp sl w0 x = .ok i := encodedOperationsDecode i sl w0 (some x) hw he

/-- Settles O56: the words that the manual reads as operations are the encodings of those, so that they decode to them; the other
three are refused as they are read. -/
theorem decodedWords : Obligations.DecodedWords := by
  refine ⟨decodeOp_of_encode_short ?_ ?_, decodeOp_of_encode_short ?_ ?_, decodeOp_of_encode_long ?_ ?_,
    decodeOp_of_encode_short ?_ ?_, decodeOp_of_encode_short ?_ ?_, decodeOp_of_encode_short ?_ ?_,
    decodeOp_of_encode_short ?_ ?_, decodeOp_of_encode_long ?_ ?_, decodeOp_of_encode_long ?_ ?_,
    decodeOp_of_encode_long ?_ ?_, decodeOp_of_encode_short ?_ ?_, decodeOp_of_encode_short ?_ ?_,
    decodeOp_of_encode_long ?_ ?_, decodeOp_of_encode_long ?_ ?_, decodeOp_of_encode_short ?_ ?_, ?_, ?_, ?_⟩ <;> decide +kernel

end Sys2Proof
end

section
/-! PROOFS. Scalar and address operations (R75 to R85): what each operation writes. -/

namespace Sys2Proof.Machine

open Sys2Proof.Claims

/-! ### The values of the rules -/

/-- At equal values it does not matter which operand is taken, so that strict and plain comparison pick alike. -/
theorem ite_lt_eq_ite_le {α : Type} [LinearOrder α] {k : Word → α} (hk : Function.Injective k) {x y a b : Word}
    (hab : x = y → a = b) : (if k x < k y then a else b) = if k x ≤ k y then a else b := by
  rcases lt_trichotomy (k x) (k y) with h | h | h
  · rw [if_pos h, if_pos h.le]
  · rw [if_neg h.not_lt, if_pos h.le, hab (hk h)]
  · rw [if_neg h.not_gt, if_neg h.not_ge]

theorem toInt_injective : Function.Injective (BitVec.toInt : Word → Int) := fun _ _ => BitVec.eq_of_toInt_eq

theorem sMin_eq : sMin = fun x y : Word => if x.toInt ≤ y.toInt then x else y := by
  funext x y
  rw [← ite_lt_eq_ite_le toInt_injective id]
  simp [sMin, BitVec.slt]

theorem sMax_eq : sMax = fun x y : Word => if x.toInt ≤ y.toInt then y else x := by
  funext x y
  rw [← ite_lt_eq_ite_le toInt_injective Eq.symm]
  simp [sMax, BitVec.slt]

theorem uMin_eq : uMin = fun x y : Word => if x ≤ y then x else y := by
  funext x y
  simp only [uMin, BitVec.ult_eq_decide, decide_eq_true_eq, BitVec.le_def]
  exact ite_lt_eq_ite_le BitVec.toNat_injective id

theorem uMax_eq : uMax = fun x y : Word => if x ≤ y then y else x := by
  funext x y
  simp only [uMax, BitVec.ult_eq_decide, decide_eq_true_eq, BitVec.le_def]
  exact ite_lt_eq_ite_le BitVec.toNat_injective Eq.symm

theorem ofBool_beq : (fun x y : Word => ofBool (x == y)) = fun x y => if x = y then 1 else 0 := by
  funext x y; simp [ofBool]

theorem ofBool_bne : (fun x y : Word => ofBool (x != y)) = fun x y => if x = y then 0 else 1 := by
  funext x y
  by_cases h : x = y <;> simp [ofBool, h]

theorem ofBool_slt : (fun x y : Word => ofBool (x.slt y)) = fun x y => if x.toInt < y.toInt then 1 else 0 := by
  funext x y; simp [ofBool, BitVec.slt]

theorem ofBool_ult : (fun x y : Word => ofBool (x.ult y)) = fun x y => if x < y then 1 else 0 := by
  funext x y; simp [ofBool, BitVec.ult, BitVec.lt_def]

theorem ffsN_eq (w : Nat) :
    (fun x : Word => BitVec.ofNat 64 (ffsN w x.toNat)) =
      fun x => if x.toNat % 2 ^ w = 0 then 0 else BitVec.ofNat 64 (ctzN w x.toNat + 1) := by
  funext x
  rw [ffsN]
  split <;> rfl

/-- A sign extension of the low `w` bits, for `w` up to the word. -/
theorem sextN_eq_signExtend {w : Nat} (hw : w ≤ 64) (n : Nat) : sextN w n = (BitVec.ofNat w n).signExtend 64 := by
  have h64 : 2 ^ w ≤ 2 ^ 64 := Nat.pow_le_pow_right (by omega) hw
  have hlt : n % 2 ^ w < 2 ^ w := Nat.mod_lt _ (by positivity)
  rw [BitVec.signExtend, BitVec.toInt_eq_toNat_cond, BitVec.toNat_ofNat, sextN]
  generalize n % 2 ^ w = y at hlt ⊢
  generalize 2 ^ w = p at h64 hlt ⊢
  split
  · exact (BitVec.ofInt_natCast 64 _).symm
  · apply BitVec.eq_of_toNat_eq
    rw [BitVec.toNat_ofNat, BitVec.toNat_ofInt]
    omega

theorem sext_eq {w : Nat} (hw : w ≤ 64) : (fun x : Word => sextN w x.toNat) = fun x => (x.setWidth w).signExtend 64 := by
  funext x
  rw [sextN_eq_signExtend hw, BitVec.ofNat_toNat]

theorem zext_eq (w : Nat) : (fun x : Word => BitVec.ofNat 64 (x.toNat % 2 ^ w)) = fun x => (x.setWidth w).setWidth 64 := by
  funext x
  apply BitVec.eq_of_toNat_eq
  simp

theorem extWidth_le (sub : BitVec 2) : extWidth sub ≤ 64 := by
  revert sub
  decide

theorem bfxVal_eq (o : IOp) : bfxVal o = fun v =>
    let f := v.extractLsb' o.pos o.len
    if o.imm32.getLsbD 16 then f.signExtend 64 else f.setWidth 64 := by
  have hl : o.len ≤ 64 := by unfold IOp.len; omega
  funext v
  simp only [bfxVal, sextN_eq_signExtend hl, ← Nat.shiftRight_eq_div_pow]
  split
  · congr 1
    apply BitVec.eq_of_toNat_eq
    simp
  · apply BitVec.eq_of_toNat_eq
    simp

theorem bfiVal_getLsbD (o : IOp) (d x : Word) {i : Nat} (hi : i < 64) : (bfiVal o d x).getLsbD i =
    if o.pos ≤ i ∧ i < o.pos + o.len then x.getLsbD (i - o.pos) else d.getLsbD i := by
  have hm : ((2 ^ o.len - 1) * 2 ^ o.pos).testBit i = decide (o.pos ≤ i ∧ i < o.pos + o.len) := by
    rw [Nat.testBit_mul_two_pow, Nat.testBit_two_pow_sub_one]
    simp only [← Bool.decide_and, decide_eq_decide]
    omega
  simp only [bfiVal, BitVec.getLsbD_or, BitVec.getLsbD_and, BitVec.getLsbD_not, BitVec.getLsbD_ofNat, hi, decide_true,
    Bool.true_and, hm, Nat.testBit_mul_two_pow, Nat.testBit_mod_two_pow, BitVec.testBit_toNat]
  split
  · next h => simp [h, show i - o.pos < o.len by omega]
  · next h => simp [h]

/-! ### One result -/

section
variable {s : State} {h : Hdr} (hf : s.Fires h)
include hf

theorem State.bin_writes {o : TOp} {x y : SVal} (hx : s.SIs o.a.toNat x) (hy : s.SIs o.b.toNat y) (lat : Nat)
    (f : Word → Word → Word) : s.WritesS (s.bin h o lat f) h o.d.toNat lat (result2 f x y) := by
  rw [State.bin, hx, hy, lift2_one]
  exact State.regS_writes hf _ _ _

theorem State.un_writes {o : TOp} {x : SVal} (hx : s.SIs o.a.toNat x) (f : Word → Word) :
    s.WritesS (s.un h o f) h o.d.toNat 1 (result1 f x) := by
  rw [State.un, hx, lift1_one]
  exact State.regS_writes hf _ _ _

theorem State.imm_writes {o : IOp} {x : SVal} (hx : s.SIs o.a.toNat x) (lat : Nat) (f : Word → Word → Word) :
    s.WritesS (s.imm h o lat f) h o.d.toNat lat (result1 (fun v => f v (o.imm h)) x) := by
  rw [State.imm, hx, lift1_one]
  exact State.regS_writes hf _ _ _

end

/-! ### Operations of registers (R77 to R79) -/

theorem next_bin {f g : Word → Word → Word} (hfg : f = g) (h : Hdr) (o : TOp) (lat : Nat) (s : State) :
    (.next (s.bin h o lat f) : Host.Outcome State Fault Refusal) = .next (s.bin h o lat g) := by rw [hfg]

theorem exec_twoSource : ∀ e ∈ twoSource, ∀ h o s, exec (e.1 h o) s = .next (s.bin h o e.2.1 e.2.2) := by
  simp only [twoSource, List.forall_mem_cons, List.not_mem_nil, IsEmpty.forall_iff, implies_true, and_true]
  refine ⟨?_, ?_, ?_, ?_, ?_, ?_, ?_, ?_, ?_, ?_, ?_, ?_, ?_, fun h o => next_bin sMin_eq h o 1,
    fun h o => next_bin uMin_eq h o 1, fun h o => next_bin sMax_eq h o 1, fun h o => next_bin uMax_eq h o 1,
    fun h o => next_bin ofBool_beq h o 1, fun h o => next_bin ofBool_bne h o 1, fun h o => next_bin ofBool_slt h o 1,
    fun h o => next_bin ofBool_ult h o 1⟩ <;> exact fun _ _ _ => rfl

theorem next_un {f g : Word → Word} (hfg : f = g) (h : Hdr) (o : TOp) (s : State) :
    (.next (s.un h o f) : Host.Outcome State Fault Refusal) = .next (s.un h o g) := by rw [hfg]

theorem exec_oneSource : ∀ e ∈ oneSource, ∀ h o s, exec (e.1 h o) s = .next (s.un h o (e.2 o)) := by
  simp only [oneSource, List.forall_mem_cons, List.not_mem_nil, IsEmpty.forall_iff, implies_true, and_true]
  refine ⟨?_, ?_, ?_, ?_, fun h o => next_un (ffsN_eq _) h o, fun h o => next_un (sext_eq (extWidth_le o.sub)) h o,
    fun h o => next_un (zext_eq _) h o⟩ <;> exact fun _ _ _ => rfl

theorem threeRegisterResults : ThreeRegisterResults := fun e he h o s _ _ hf hx hy =>
  ⟨_, exec_twoSource e he h o s, State.bin_writes hf hx hy _ _⟩

theorem oneSourceResults : OneSourceResults := fun e he h o s _ hf hx =>
  ⟨_, exec_oneSource e he h o s, State.un_writes hf hx _⟩

/-- Settles O1: each operation is one result function of the rule, applied to the values of its sources. -/
theorem scalarResults : Obligations.ScalarResults := ⟨threeRegisterResults, oneSourceResults⟩

/-! ### Immediate forms, constants, bit fields, `sel` and address operations (R80, R83 to R85) -/

theorem next_imm {f g : Word → Word → Word} (hfg : f = g) (h : Hdr) (o : IOp) (lat : Nat) (s : State) :
    (.next (s.imm h o lat f) : Host.Outcome State Fault Refusal) = .next (s.imm h o lat g) := by rw [hfg]

theorem exec_withImmediate : ∀ e ∈ withImmediate, ∀ h o s, exec (e.1 h o) s = .next (s.imm h o e.2.1 e.2.2) := by
  simp only [withImmediate, List.forall_mem_cons, List.not_mem_nil, IsEmpty.forall_iff, implies_true, and_true]
  refine ⟨?_, ?_, ?_, ?_, ?_, ?_, ?_, ?_, ?_, fun h o => next_imm sMin_eq h o 1, fun h o => next_imm sMax_eq h o 1,
    fun h o => next_imm ofBool_slt h o 1, fun h o => next_imm ofBool_ult h o 1, fun h o => next_imm ofBool_beq h o 1,
    fun h o => next_imm ofBool_bne h o 1⟩ <;> exact fun _ _ _ => rfl

theorem immediateResults : ImmediateResults := fun e he h o s _ hf hx =>
  ⟨_, exec_withImmediate e he h o s, State.imm_writes hf hx _ _⟩

theorem moveAndFieldResults : MoveAndFieldResults := by
  intro h s hf
  refine ⟨fun o => ⟨_, rfl, State.regS_writes hf _ _ _⟩, fun o x hx => ⟨_, rfl, ?_⟩, fun o x hx => ⟨_, rfl, ?_⟩,
    fun o d x hd hx => ⟨_, rfl, result2 (bfiVal o) d x, ?_, rfl, fun i hi => bfiVal_getLsbD o d.v x.v hi⟩,
    fun o a b c ha hb hc => ⟨_, rfl, selVal a b c, ?_, ?_, rfl⟩, fun o x hx => ⟨_, rfl, ?_⟩, fun o x hx => ⟨_, rfl, ?_⟩,
    fun o x hx => ⟨_, rfl, ?_⟩, fun o x hx => ⟨_, rfl, ?_⟩⟩
  · rw [hx, lift1_one]
    exact State.regS_writes hf _ _ _
  · rw [hx, lift1_one, ← bfxVal_eq]
    exact State.regS_writes hf _ _ _
  · rw [hd, hx, lift2_one]
    exact State.regS_writes hf _ _ _
  · rw [ha, hb, hc, lift3_one]
    exact State.regS_writes hf _ _ _
  · by_cases hz : c.v = 0 <;> simp [selVal, hz]
  · rw [hx, lift1_one]
    exact State.regA_writes hf _ _ _
  · rw [hx]
    exact State.regA_writes hf _ _ _
  · rw [hx]
    exact State.regS_writes hf _ _ _
  · rw [hx]
    exact State.regA_writes hf _ _ _

/-- Settles O2: each form delivers the value of its rule to its one register. -/
theorem immediateAndMoveResults : Obligations.ImmediateAndMoveResults := ⟨immediateResults, moveAndFieldResults⟩

/-! ### Division (R81, R82) -/

theorem sdiv_eq (x y : Word) : x.sdiv y = BitVec.ofInt 64 (x.toInt.tdiv y.toInt) := by
  apply BitVec.eq_of_toInt_eq
  rw [BitVec.toInt_sdiv, BitVec.toInt_ofInt]

theorem srem_eq (x y : Word) : x.srem y = BitVec.ofInt 64 (x.toInt.tmod y.toInt) := by
  rw [← BitVec.toInt_srem, BitVec.ofInt_toInt]

theorem udiv_eq (x y : Word) : x.udiv y = BitVec.ofNat 64 (x.toNat / y.toNat) := by
  apply BitVec.eq_of_toNat_eq
  rw [BitVec.toNat_ofNat, Nat.mod_eq_of_lt ((Nat.div_le_self _ _).trans_lt x.isLt)]
  exact BitVec.toNat_udiv

theorem umod_eq (x y : Word) : x.umod y = BitVec.ofNat 64 (x.toNat % y.toNat) := by
  apply BitVec.eq_of_toNat_eq
  rw [BitVec.toNat_ofNat, Nat.mod_eq_of_lt ((Nat.mod_le _ _).trans_lt x.isLt)]
  exact BitVec.toNat_umod

theorem divLat_eq (sg : Bool) (x y : Word) : divLat sg x y = divLatency sg x y := by cases sg <;> rfl

theorem State.div1_quotient (s : State) (opc : Word) (f : Word → Word → Word) (x : SVal) {y : SVal} (hy : y.v ≠ 0 ∨ y.p ≠ 0) :
    s.div1 opc f x y = (val2 f x y, none) := by
  rw [State.div1, if_neg]
  simp only [Bool.and_eq_true, beq_iff_eq]
  tauto

theorem State.div1_zero (s : State) (opc : Word) (f : Word → Word → Word) (x : SVal) :
    s.div1 opc f x (clean 0) =
      (⟨0, x.p, some { s.trapRec .divZero x.v opc with deferred := true }⟩, some (s.trapRec .divZero x.v opc)) := rfl

theorem le_divLat (sg : Bool) (x y : Word) : 18 ≤ divLat sg x y := Nat.le_add_right ..

theorem exec_divisions : ∀ e ∈ divisions, ∃ opc f, (∀ h o s, exec (e.1 h o) s = .next (s.divide h o opc e.2.1 f)) ∧ f = e.2.2 := by
  simp only [divisions, List.forall_mem_cons, List.not_mem_nil, IsEmpty.forall_iff, implies_true, and_true]
  exact ⟨⟨_, _, fun _ _ _ => rfl, funext₂ sdiv_eq⟩, ⟨_, _, fun _ _ _ => rfl, funext₂ srem_eq⟩,
    ⟨_, _, fun _ _ _ => rfl, funext₂ udiv_eq⟩, ⟨_, _, fun _ _ _ => rfl, funext₂ umod_eq⟩⟩

theorem tagPair_one {α β : Type} (x : α) (y : β) : tagPair [(([] : Tag), x)] [(([] : Tag), y)] = [([], (x, y))] := by
  simp [tagPair, tagAnd, tagOk]

theorem arriveRoom_one (h : Hdr) : arriveRoom {} h [([], [])] = 0 := by
  unfold arriveRoom arriveIn
  split <;> rfl

/-- The divider is occupied for `lat` counts (R82). -/
def State.dividing (s : State) (lat : Nat) : State := s.onCur (fun c => { c with divBusy := s.latch.ic + lat })

/-- A division has occupied the divider and sent its result, which is locked, to S[d] (R82). -/
def State.divided (s : State) (o : TOp) (lat : Nat) (v : SVal) : State :=
  if o.d = 0 then s.dividing lat
  else (s.dividing lat).addS { mkPend (s.dividing lat) o.d.toNat lat [] [([], v)] with lock := true }

theorem State.dividing_becomes (s : State) (lat : Nat) :
    s.Becomes (s.dividing lat) { s.cur with divBusy := s.latch.ic + lat } := s.onCur_becomes _

theorem State.locked_fits (s : State) (f : RegFile 64 1) (r lat : Nat) (v : SVal) :
    f.wouldHold { mkPend s r lat [] [([], v)] with lock := true } ≤ 4 := one_alternative f _ rfl rfl (by simp [mkPend])

theorem toNat_eq_zero_iff {w : Nat} (d : BitVec w) : d.toNat = 0 ↔ d = 0 := by
  simp [← BitVec.toNat_inj]

theorem State.divided_becomes (s : State) (o : TOp) (lat : Nat) (v : SVal) : s.Becomes (s.divided o lat v) { s.cur with
    sa := if o.d.toNat = 0 then s.cur.sa else s.cur.sa.add { s.result o.d.toNat lat v with lock := true },
    divBusy := s.latch.ic + lat } := by
  have hbusy := s.dividing_becomes lat
  simp only [State.divided, toNat_eq_zero_iff]
  split
  · exact hbusy
  · have hadd := (s.dividing lat).addS_becomes _ (State.locked_fits (s.dividing lat) _ o.d.toNat lat v)
    rw [hbusy.cur] at hadd
    exact hbusy.trans hadd

theorem State.divided_uid (s : State) (o : TOp) (lat : Nat) (v : SVal) :
    (s.divided o lat v).uid = if o.d.toNat = 0 then s.uid else s.uid + 1 := by
  simp only [State.divided, toNat_eq_zero_iff]
  split
  · rfl
  · exact State.addS_uid _ _ (State.locked_fits ..)

section
variable {s : State} {h : Hdr} {o : TOp} {x y : SVal} (hf : s.Fires h) (hx : s.SIs o.a.toNat x) (hy : s.SIs o.b.toNat y)
  (hfree : s.cur.divBusy ≤ s.latch.ic) (opc : Word) (sg : Bool) (f : Word → Word → Word)
include hf hx hy hfree

/-- A division that does not trap sends its result, and then makes its arrival. -/
theorem State.divide_eq_divided (hd : y.v ≠ 0 ∨ y.p ≠ 0) :
    s.divide h o opc sg f = (s.divided o (divLat sg x.v y.v) (val2 f x y)).arriveLat {} h (divLat sg x.v y.v) := by
  have hlat : max 18 (divLat sg x.v y.v) = divLat sg x.v y.v := max_eq_right (le_divLat ..)
  rw [State.divide, hf.guarded, if_neg (by omega), hx, hy, tagPair_one, State.arriveLat, (s.divided_becomes ..).latch]
  simp [State.div1_quotient s opc f x hd, hlat, State.raiseAll, State.withRoom, arriveRoom_one, State.divided,
    State.dividing]

theorem State.divide_becomes (hd : y.v ≠ 0 ∨ y.p ≠ 0) :
    let lat := divLat sg x.v y.v
    s.Becomes (s.divide h o opc sg f) { s.cur with
      sa := if o.d.toNat = 0 then s.cur.sa else s.cur.sa.add { s.result o.d.toNat lat (val2 f x y) with lock := true },
      divBusy := s.latch.ic + lat,
      arrP := s.cur.arrP ++ s.arrival h lat (if o.d.toNat = 0 then s.uid else s.uid + 1) } := by
  intro lat
  have h1 := s.divided_becomes o lat (val2 f x y)
  have h2 := (s.divided o lat (val2 f x y)).arriveLat_becomes h lat
  rw [h1.cur, State.divided_uid, State.arrival_latch h lat _ h1.latch] at h2
  rw [State.divide_eq_divided hf hx hy hfree opc sg f hd]
  exact h1.trans h2

theorem State.divide_zero (hz : y = clean 0) : s.divide h o opc sg f = s.stat (.trap (s.trapRec .divZero x.v opc)) := by
  have h1 := s.div1_zero opc f x
  rw [← hz] at h1
  rw [State.divide, hf.guarded, if_neg (by omega), hx, hy, tagPair_one]
  simp [h1, tagAnd]

end

theorem divisionQuotients : DivisionQuotients := by
  intro e he h o s x y hf hx hy hfree hd
  obtain ⟨opc, f, hexec, hfe⟩ := exec_divisions e he
  refine ⟨_, val2 f x y, hexec h o s, rfl, fun _ => congrFun₂ hfe x.v y.v, ?_⟩
  rw [← divLat_eq]
  exact State.divide_becomes hf hx hy hfree opc e.2.1 f hd

theorem divisionByZeroTraps : DivisionByZeroTraps := by
  intro e he h o s x hf hx hy hfree
  obtain ⟨opc, f, hexec, _⟩ := exec_divisions e he
  refine ⟨s.trapRec .divZero x.v opc, rfl, rfl, rfl, rfl, ?_⟩
  rw [hexec, State.divide_zero hf hx hy hfree opc e.2.1 f rfl]

/-- Settles O3: a division sends its result and occupies the divider; a clean zero divisor traps before either. -/
theorem divisionResults : Obligations.DivisionResults := ⟨divisionQuotients, divisionByZeroTraps⟩

end Sys2Proof.Machine
end

section
/-! PROOFS. Data and acknowledgments that arrive, and accesses that leave (R86, R143, R154, R157, R356). -/

namespace Sys2Proof.Machine

open Sys2Proof.Claims (othersStay)

/-! ### Data and acknowledgments that arrive (R143, R154) -/

/-- From `s` to `t` the answers under way stay, and every context but `n`. -/
structure State.Touches (s t : State) (n : Nat) : Prop where
  resps : t.resps = s.resps
  others : othersStay s t n

theorem State.Touches.refl (s : State) (n : Nat) : s.Touches s n := ⟨rfl, fun _ _ => rfl⟩

theorem State.Touches.trans {s t u : State} {n : Nat} (h : s.Touches t n) (k : t.Touches u n) : s.Touches u n :=
  ⟨k.resps.trans h.resps, fun m hm => (k.others m hm).trans (h.others m hm)⟩

theorem State.onCtx_touches (s : State) (n : Nat) (f : Ctx → Ctx) : s.Touches (s.onCtx n f) n :=
  ⟨rfl, fun m hm => (s.ctx_onCtx n m f).trans (if_neg hm)⟩

theorem State.rebase_touches (s : State) (n : Nat) (b : BaseRef) (d : Word) (due : Nat) : s.Touches (s.rebase n b d due) n := by
  unfold State.rebase
  split
  · exact .refl s n
  · obtain ⟨hresps, hothers⟩ := s.onCtx_touches n (fun c => { c with sa := (c.sa.stepsOver _).add _ })
    exact ⟨hresps, hothers⟩

theorem State.rebaseOpt_touches (s : State) (n : Nat) (b : Option BaseRef) (d : Word) (hops due : Nat) :
    s.Touches (s.rebaseOpt n b d hops due) n := by
  unfold State.rebaseOpt
  split
  · exact .refl s n
  · split
    · exact s.rebase_touches ..
    · exact .refl s n

theorem State.reportAcc_touches (s : State) (a : Acc) (t : TrapRec) : s.Touches (s.reportAcc a t) a.n := by
  unfold State.reportAcc
  split
  · exact .refl s a.n
  · exact s.onCtx_touches a.n _

/-- An answer is taken from those under way. -/
def State.answered (s : State) (a : Acc) : State := { s with resps := s.resps.filter (fun x => x.acc.id != a.id) }

theorem State.answered_ne (s : State) (a : Acc) : ∀ x ∈ (s.answered a).resps, x.acc.id ≠ a.id := fun x hx => by
  simpa using (List.mem_filter.mp hx).2

theorem State.landData_touches (s : State) (r : Resp) : (s.answered r.acc).Touches (s.landData r) r.acc.n := by
  unfold State.landData
  extract_lets a k dead soon s1 sv vv s2
  have h1 : (s.answered a).Touches s1 a.n := by
    obtain ⟨hresps, hothers⟩ := ((s.answered a).onCore k (fun d => d.fillPorch a.id)).onCtx_touches a.n
      (fun c => (c.performedIn s.cycle a.id).landed a.id)
    exact ⟨hresps, hothers⟩
  have h2 : (s.answered a).Touches s2 a.n := by
    refine h1.trans ?_
    unfold s2
    split <;> exact s1.onCtx_touches a.n _
  split
  · exact h1
  · split
    · exact h2.trans (s2.reportAcc_touches a _)
    · split
      · exact h2
      · exact h2.trans (s2.rebaseOpt_touches ..)

theorem State.ackMerged_resps (s : State) (d : Word) (hops : Nat) (l : List Acc1) : (s.ackMerged d hops l).resps = s.resps := by
  induction l generalizing s with
  | nil => rfl
  | cons x l ih =>
    rw [State.ackMerged, ih, (State.rebaseOpt_touches ..).resps]
    split <;> rfl

theorem State.faultMerged_resps (s : State) (t : TrapRec) (l : List Acc1) : (s.faultMerged t l).resps = s.resps := by
  induction l generalizing s with
  | nil => rfl
  | cons x l ih => rw [State.faultMerged, ih, (State.onCtx_touches ..).resps]

theorem State.landAck_resps (s : State) (r : Resp) : (s.landAck r).resps = (s.answered r.acc).resps := by
  unfold State.landAck
  extract_lets a s1 s2
  split
  · rw [State.faultMerged_resps]
    rfl
  · rw [State.ackMerged_resps, (State.rebaseOpt_touches ..).resps]
    unfold s2
    split <;> rfl

/-- Data that lands takes the place of every reference to its access (R143). -/
theorem RegFile.mem_land {w p : Nat} {f : RegFile w p} {id : Nat} {x : Pend w p} (hx : x ∈ f.pend) {al : Alt w p}
    (hal : al ∈ x.alts) (hr : al.ref = some id) (cyc : Nat) (soon : Bool) (v : Val w p) :
    ∃ y ∈ (f.land id cyc soon v).pend, y.dst = x.dst ∧ y.due = x.due ∧ { al with val := v, ref := none } ∈ y.alts := by
  have hany : x.alts.any (fun a => a.ref == some id) = true := List.any_eq_true.mpr ⟨al, hal, by simp [hr]⟩
  refine ⟨_, List.mem_map_of_mem hx, ?_⟩
  rw [if_pos hany]
  refine ⟨rfl, rfl, List.mem_map.mpr ⟨al, hal, ?_⟩⟩
  rw [if_pos (by simp [hr])]

theorem Ctx.performedIn_toRegs (c : Ctx) (cyc id : Nat) : (c.performedIn cyc id).toRegs = c.toRegs := by
  unfold Ctx.performedIn
  dsimp only
  split <;> rfl

theorem Ctx.landed_toRegs (c : Ctx) (id : Nat) : (c.landed id).toRegs = c.toRegs := rfl
theorem Ctx.landS_sa (c : Ctx) (id cyc : Nat) (soon : Bool) (v : SVal) : (c.landS id cyc soon v).sa = c.sa.land id cyc soon v := rfl
theorem Ctx.landV_v (c : Ctx) (id cyc : Nat) (soon : Bool) (v : VVal) : (c.landV id cyc soon v).v = c.v.land id cyc soon v := rfl

section
variable {s : State} {r : Resp} (hfault : r.fault = none) (hhops : r.acc.hops = 0)
  (hporch : (s.core (coreOf r.acc.n)).porchDead r.acc.id = false) (htag : (s.ctx r.acc.n).tagGone r.acc.tag = false)
include hfault hhops hporch htag

/-- Data without a fault, of an access that did not chase and whose alternative stands, lands in the file of its register. -/
theorem State.landData_scalar {d : Nat} {sg : Bool} (hdst : r.acc.dst = .s d sg) : ∃ soon,
    ((s.landData r).ctx r.acc.n).sa = (s.ctx r.acc.n).sa.land r.acc.id s.cycle soon (bytesS sg r.bytes r.bad) := by
  refine ⟨r.exact && (s.core (coreOf r.acc.n)).late.isNone, ?_⟩
  unfold State.landData
  simp only [hporch, htag, Bool.or_self, Bool.false_eq_true, if_false, hdst, hfault, State.rebaseOpt, hhops, if_true, ite_self,
    State.ctx_onCtx_same, Ctx.landS_sa, Ctx.landed_toRegs, Ctx.performedIn_toRegs]
  rfl

theorem State.landData_vector {d : Nat} (hdst : r.acc.dst = .v d) : ∃ soon,
    ((s.landData r).ctx r.acc.n).v = (s.ctx r.acc.n).v.land r.acc.id s.cycle soon (bytesV r.bytes r.bad) := by
  refine ⟨r.exact && (s.core (coreOf r.acc.n)).late.isNone, ?_⟩
  unfold State.landData
  simp only [hporch, htag, Bool.or_self, Bool.false_eq_true, if_false, hdst, hfault, State.rebaseOpt, hhops, if_true, ite_self,
    State.ctx_onCtx_same, Ctx.landV_v, Ctx.landed_toRegs, Ctx.performedIn_toRegs]
  rfl

end

theorem exec_dataArrival {s : State} {r : Resp} (hr : s.resps.find? (fun r => r.acc.id == s.ev.id && r.acc.returns) = some r) :
    exec .dataArrival s = .next (s.landData r) := by
  show execDataArrival s = _
  rw [execDataArrival, hr]

theorem exec_acknowledgmentArrival {s : State} {r : Resp} (hi : s.ev.idx ≠ 1)
    (hr : s.resps.find? (fun r => r.acc.id == s.ev.id && !r.acc.returns) = some r) :
    exec .acknowledgmentArrival s = .next (s.landAck r) := by
  show execAcknowledgmentArrival s = _
  rw [execAcknowledgmentArrival, if_neg hi, hr]

theorem exec_invalidation_acknowledged {s : State} (hi : s.ev.idx = 1) : exec .acknowledgmentArrival s = .next
    (s.onCtx s.ev.n (fun c => { c with invN := c.invN.filter (fun i => i != s.ev.id) })) := by
  show execAcknowledgmentArrival s = _
  rw [execAcknowledgmentArrival, if_pos hi]

theorem evResp_id {s : State} {r : Resp} {p : Resp → Bool} (hr : s.resps.find? (fun r => r.acc.id == s.ev.id && p r) = some r) :
    r.acc.id = s.ev.id := by
  have hp := List.find?_some hr
  simp only [Bool.and_eq_true, beq_iff_eq] at hp
  exact hp.1

/-- The register that waits for data receives it at its due count (R143). -/
theorem dataArrival_changes (s : State) {r : Resp}
    (hr : s.resps.find? (fun r => r.acc.id == s.ev.id && r.acc.returns) = some r) :
    ∃ u, exec .dataArrival s = .next u ∧ u.mem = s.mem ∧ (∀ x ∈ u.resps, x.acc.id ≠ s.ev.id) ∧ othersStay s u r.acc.n ∧
      (r.fault = none → r.acc.hops = 0 → (s.core (coreOf r.acc.n)).porchDead s.ev.id = false →
        (s.ctx r.acc.n).tagGone r.acc.tag = false →
        (∀ d sg, r.acc.dst = .s d sg → ∀ x ∈ (s.ctx r.acc.n).sa.pend, ∀ al ∈ x.alts, al.ref = some s.ev.id →
          ∃ y ∈ (u.ctx r.acc.n).sa.pend, y.dst = x.dst ∧ y.due = x.due ∧
            { al with val := bytesS sg r.bytes r.bad, ref := none } ∈ y.alts) ∧
        (∀ d, r.acc.dst = .v d → ∀ x ∈ (s.ctx r.acc.n).v.pend, ∀ al ∈ x.alts, al.ref = some s.ev.id →
          ∃ y ∈ (u.ctx r.acc.n).v.pend, y.dst = x.dst ∧ y.due = x.due ∧
            { al with val := bytesV r.bytes r.bad, ref := none } ∈ y.alts)) := by
  have hid := evResp_id hr
  obtain ⟨hresps, hothers⟩ := s.landData_touches r
  refine ⟨_, exec_dataArrival hr, s.landData_mem r, ?_, hothers, fun hfault hhops hporch htag => ⟨?_, ?_⟩⟩
  · rw [hresps, ← hid]
    exact s.answered_ne r.acc
  all_goals rw [← hid] at hporch ⊢
  · intro d sg hdst x hx al hal href
    obtain ⟨soon, hsa⟩ := State.landData_scalar hfault hhops hporch htag hdst
    rw [hsa]
    exact RegFile.mem_land hx hal href _ _ _
  · intro d hdst x hx al hal href
    obtain ⟨soon, hv⟩ := State.landData_vector hfault hhops hporch htag hdst
    rw [hv]
    exact RegFile.mem_land hx hal href _ _ _

theorem acknowledgmentArrival_changes (s : State) (hi : s.ev.idx ≠ 1) {r : Resp}
    (hr : s.resps.find? (fun r => r.acc.id == s.ev.id && !r.acc.returns) = some r) :
    ∃ u, exec .acknowledgmentArrival s = .next u ∧ u.mem = s.mem ∧ ∀ x ∈ u.resps, x.acc.id ≠ s.ev.id := by
  have hid := evResp_id hr
  refine ⟨_, exec_acknowledgmentArrival hi hr, s.landAck_mem r, ?_⟩
  rw [s.landAck_resps, ← hid]
  exact s.answered_ne r.acc

/-! ### Leaving the core (R157) -/

theorem outboundDepart_alone (s : State) {a : Acc} (ha : s.outq.find? (fun a => a.id == s.ev.id) = some a)
    (hm : ∀ b ∈ s.net, a.mergesWith b = false) :
    exec .outboundDepart s = .next { s with outq := s.outq.filter (fun x => x.id != s.ev.id), net := s.net ++ [a] } := by
  have hid : a.id = s.ev.id := by simpa using List.find?_some ha
  have hnone : s.net.find? (fun b => a.mergesWith b) = none := List.find?_eq_none.mpr fun b hb => by simp [hm b hb]
  show execOutboundDepart s = _
  rw [execOutboundDepart, ha]
  simp only [State.depart1, hnone, hid]

end Sys2Proof.Machine
end

section
/-! PROOFS. Accesses at their homes in device memory (R152 to R154, R293, R295). -/

namespace Sys2Proof.Machine

/-! ### Homes of device memory -/

theorem isDevice_lt {hm : Nat} (h : isDevice hm = true) : hm < deviceSize := by simpa [isDevice] using h

theorem isScratch_device {hm : Nat} (h : hm ≤ deviceSize) : isScratch hm = false := by
  simp only [deviceSize] at h
  rw [isScratch, decide_eq_false_iff_not, scratchBase]
  omega

theorem State.ownHome_device (s : State) {hm : Nat} (h : isDevice hm = true) : s.ownHome hm = hm := by
  have := isDevice_lt h
  simp only [deviceSize] at this
  rw [State.ownHome, if_neg]
  simp only [Bool.and_eq_true, decide_eq_true_eq]
  omega

theorem State.refused_device (s : State) {hm : Nat} (h : isDevice hm = true) (n : Nat) (wr : Bool) : s.refused hm n wr = false := by
  have := isDevice_lt h
  simp only [deviceSize] at this
  rw [State.refused, if_pos (by omega)]

theorem tileHome_device {hm : Nat} (h : isDevice hm = true) : tileHome hm = true := by
  have := isDevice_lt h
  simp only [deviceSize] at this
  rwa [tileHome, Nat.mod_eq_of_lt (by omega)]

theorem State.correct_device (s : State) {hm : Nat} (h : hm ≤ deviceSize) (n : Nat) (c : Option Nat) : s.correct hm n c = s := by
  simp [State.correct, isScratch_device h]

theorem State.inPart_device {α : Type} (s : State) (hm : Nat) (l : List α) (h : hm + l.length ≤ deviceSize) :
    s.inPart hm l = l := by
  induction l generalizing hm with
  | nil => rfl
  | cons b l ih =>
    rw [List.length_cons] at h
    rw [State.inPart, if_pos (by simp [State.inRange, isScratch_device (show hm ≤ deviceSize by omega)]), ih (hm + 1) (by omega)]

/-! ### An access at its home -/

section
variable {s : State} {a : Acc} (ha : s.net.find? (fun a => a.id == s.ev.id) = some a)
include ha

theorem State.evAcc_id : a.id = s.ev.id := by simpa using List.find?_some ha

theorem State.leaveNet_net : (s.leaveNet a).net = s.net.filter (fun x => x.id != s.ev.id) := by
  rw [State.leaveNet, State.evAcc_id ha]

theorem exec_homeAccess_device (hd : isDevice a.home = true) : exec .homeAccess s = .next (s.homeAccess a) := by
  show execHomeAccess s = _
  simp [execHomeAccess, ha, hd]

/-- Device memory has no home above its size; only what accesses no data is answered there (R153, R295; log 20). -/
theorem exec_homeAccess_beyond (hp : a.place = 3) (hd : isDevice a.home = false) (hc : a.kind ≠ .tchase) (ht : a.kind ≠ .tstat) :
    exec .homeAccess s = .fault (.noSuchHome a.home) := by
  show execHomeAccess s = _
  rw [execHomeAccess, ha]
  simp only [hp, hd, Bool.not_false, decide_true, Bool.and_self, if_true]

theorem exec_homeAccess_answered (hp : a.place = 3) (hd : isDevice a.home = false) (hk : a.kind = .tchase ∨ a.kind = .tstat) :
    exec .homeAccess s = .next (s.homeRead a a.home) := by
  show execHomeAccess s = _
  rw [execHomeAccess, ha]
  rcases hk with hk | hk <;> simp [hp, hd, hk]

end

/-- The word of `tchase` where its entry is not movable: the address and its hops (R153). -/
theorem State.tchaseWord_fixed (s : State) {a : Acc} (hm : a.mv = false) : s.tchaseWord a = a.ea % 2 ^ 48 + a.hops * 2 ^ 48 := by
  simp [State.tchaseWord, hm]

theorem homeAccess_answers {s : State} {a : Acc} (ha : s.net.find? (fun a => a.id == s.ev.id) = some a) (hp : a.place = 3)
    (hd : isDevice a.home = false) (hk : a.kind = .tchase ∨ a.kind = .tstat) : ∃ u bs, exec .homeAccess s = .next u ∧
      u.mem = s.mem ∧ u.net = s.net.filter (fun x => x.id != s.ev.id) ∧ u.resps = s.resps ++ [⟨a, bs, [], none, 0, false⟩] ∧
      bs.length = 8 ∧ (a.kind = .tchase → a.mv = false → a.hops ≤ 3 → leBytes bs = a.ea % 2 ^ 48 + a.hops * 2 ^ 48) := by
  rw [exec_homeAccess_answered ha hp hd hk]
  rcases hk with hk | hk
  · refine ⟨_, toBytes (s.tchaseWord a) 8, rfl, ?_⟩
    rw [State.homeRead, hk]
    refine ⟨rfl, State.leaveNet_net ha, rfl, toBytes_length _ _, fun _ hm hh => ?_⟩
    rw [leBytes_toBytes, s.tchaseWord_fixed hm]
    omega
  · refine ⟨_, toBytes (s.tstatWord a a.home) 8, rfl, ?_⟩
    rw [State.homeRead, hk]
    exact ⟨rfl, State.leaveNet_net ha, rfl, toBytes_length _ _, nofun⟩

/-- What an access of data does at a home of device memory: at a marked line it goes on, three times at most; else it writes,
or joins the queue of a move, or reads (R152, R154, R170, R288). -/
theorem State.homeAccess_device (s : State) {a : Acc} (hd : isDevice a.home = true)
    (hk : a.kind = .load ∨ a.kind = .store ∨ a.kind = .atomic) : s.homeAccess a =
      if a.mv && s.mem.marked a.home then (if a.hops = 3 then s.bounce a .markChain a.ea0 else s.chase a)
      else if a.kind = .load then s.homeRead a a.home
      else if (s.moveFrom a.home).isSome then s.queueStore a
      else s.homeWrite a a.home := by
  rcases hk with hk | hk | hk <;>
    simp [State.homeAccess, hk, s.ownHome_device hd, s.refused_device hd, tileHome_device hd, hd]

theorem State.recordOor_net (s : State) (n : Nat) (wr : Bool) (place core off len ba : Nat) :
    (s.recordOor n wr place core off len ba).net = s.net ∧ (s.recordOor n wr place core off len ba).resps = s.resps := by
  unfold State.recordOor
  repeat' split
  all_goals exact ⟨rfl, rfl⟩

theorem State.completed_net (s : State) (a : Acc) (bytes : List Byte) (bad : List Bool) : (s.completed a bytes bad).net = s.net := by
  unfold State.completed
  repeat' split
  all_goals rfl

/-- What a store does as it performs at a home of device memory (R154). -/
theorem State.performAt_store (s : State) {a : Acc} (hd : isDevice a.home = true) (hk : a.kind = .store) :
    ∃ fired, s.performAt a [] =
      ((s.recordOor a.n true a.place (scratchCore a.home) a.off a.size a.ba).storeAt a.home a.data [], fired, [], []) := by
  rw [State.performAt, hk, State.correct_device _ (isDevice_lt hd).le]
  exact ⟨_, rfl⟩

theorem State.homeWrite_store (s : State) {a : Acc} (hd : isDevice a.home = true) (hk : a.kind = .store)
    (hend : a.home + a.data.length ≤ deviceSize) :
    (s.homeWrite a a.home).net = (s.leaveNet a).net ∧ (s.homeWrite a a.home).mem = s.mem.store a.home a.data [] := by
  obtain ⟨fired, hp⟩ := (s.leaveNet a).performAt_store hd hk
  have hw : s.homeWrite a a.home = (((s.leaveNet a).performAt a []).1.completed a ((s.leaveNet a).performAt a []).2.2.1
      ((s.leaveNet a).performAt a []).2.2.2) := by
    rw [State.homeWrite, isScratch_device (isDevice_lt hd).le]
    rfl
  rw [hw, hp, State.completed_net, State.completed_mem]
  refine ⟨(State.recordOor_net ..).1, ?_⟩
  rw [State.storeAt, State.inPart_device _ _ _ hend, State.inPart, State.recordOor_mem, State.leaveNet_mem]

/-- An access at its home is turned back with a trap (R152). -/
def State.turnsBack (s : State) (a : Acc) (code : TrapCode) (i0 : Nat) : Prop :=
  ∃ (u : State) (t : TrapRec), exec .homeAccess s = .next u ∧ u.mem = s.mem ∧
    u.net = s.net.filter (fun x => x.id != s.ev.id) ∧ u.resps = s.resps ++ [⟨a, [], [], some t, 0, false⟩] ∧ t.code = code ∧
    t.slot = a.slot ∧ t.ba = a.ba ∧ t.info0 = BitVec.ofNat 64 i0

section
variable {s : State} {a : Acc} (ha : s.net.find? (fun a => a.id == s.ev.id) = some a) (hd : isDevice a.home = true)
include ha

theorem State.turnsBack_of_bounce {code : TrapCode} {i0 : Nat} (h : exec .homeAccess s = .next (s.bounce a code i0)) :
    s.turnsBack a code i0 := ⟨_, _, h, rfl, State.leaveNet_net ha, rfl, rfl, rfl, rfl, rfl⟩

include hd

theorem exec_homeAccess_marked (hk : a.kind = .load ∨ a.kind = .store ∨ a.kind = .atomic) (hmv : a.mv = true)
    (hmark : s.mem.marked a.home = true) :
    exec .homeAccess s = .next (if a.hops = 3 then s.bounce a .markChain a.ea0 else s.chase a) := by
  rw [exec_homeAccess_device ha hd, s.homeAccess_device hd hk, if_pos (by simp [hmv, hmark])]

theorem homeAccess_marked (hk : a.kind = .load ∨ a.kind = .store ∨ a.kind = .atomic) (hmv : a.mv = true)
    (hmark : s.mem.marked a.home = true) :
    let line := a.home - a.home % 65536
    let to' := s.mem.nat line 8 % 2 ^ 48 + a.ea % 65536
    (a.hops = 3 → s.turnsBack a .markChain a.ea0) ∧
    (a.hops < 3 → ∀ code, accessCheck (s.ctx a.n).table.core (coreOf a.n) (BitVec.ofNat 64 to') a.size false (a.kind != .load) =
      .inl code → s.turnsBack a code to') ∧
    (a.hops < 3 → ∀ t, accessCheck (s.ctx a.n).table.core (coreOf a.n) (BitVec.ofNat 64 to') a.size false (a.kind != .load) =
      .inr t → exec .homeAccess s = .next { s with net := s.net.map (fun x => if x.id == s.ev.id then
        { a with ea := to', place := t.place, home := t.home, off := t.off, mv := t.mv, hops := a.hops + 1,
                 moved := a.moved + (BitVec.ofNat 64 to' - BitVec.ofNat 64 a.ea) } else x) }) := by
  intro line to'
  have hx := exec_homeAccess_marked ha hd hk hmv hmark
  have hwr : (a.kind == .store || a.kind == .atomic) = (a.kind != .load) := by
    rcases hk with hk | hk | hk <;> rw [hk] <;> rfl
  have hto : s.mem.newVa (s.ownHome a.home) + a.ea % 65536 = to' := by rw [s.ownHome_device hd]; rfl
  refine ⟨fun hh => ?_, fun hh code hc => ?_, fun hh t hc => ?_⟩
  · rw [if_pos hh] at hx
    exact State.turnsBack_of_bounce ha hx
  · rw [if_neg (by omega), State.chase] at hx
    simp only [hto, hwr, hc] at hx
    exact State.turnsBack_of_bounce ha hx
  · rw [hx, if_neg (by omega), State.chase]
    simp only [hto, hwr, hc, State.evAcc_id ha]

theorem homeAccess_load (hk : a.kind = .load) (hmv : a.mv = false) : ∃ u, exec .homeAccess s = .next u ∧
    u.net = s.net.filter (fun x => x.id != s.ev.id) ∧ s.KeepsBytes u ∧
    u.resps = s.resps ++ [⟨a, s.bytesAt a.home a.size, s.badAt a.home a.size, none, 0, false⟩] := by
  have hx : exec .homeAccess s = .next ((s.recordOor a.n false a.place (scratchCore a.home) a.off a.size a.ba).answerAcc a
      (s.bytesAt a.home a.size) (s.badAt a.home a.size)) := by
    rw [exec_homeAccess_device ha hd, s.homeAccess_device hd (.inl hk), if_neg (by simp [hmv]), if_pos hk, State.homeRead]
    simp only [hk, State.correct_device _ (isDevice_lt hd).le]
  obtain ⟨hnet, hresps⟩ := s.recordOor_net a.n false a.place (scratchCore a.home) a.off a.size a.ba
  refine ⟨_, hx, ?_, fun k => ?_, ?_⟩
  · rw [← State.evAcc_id ha, State.answerAcc, State.leaveNet, hnet]
  · rw [State.answerAcc_mem, State.recordOor_mem]
  · rw [State.answerAcc, hresps]

/-- A store at its home writes its bytes there and nothing else (R154). -/
theorem homeAccess_store (hk : a.kind = .store) (hmv : a.mv = false) (hend : isDevice (a.home + a.data.length) = true)
    (hs : s.MemInv) (hmove : s.moveFrom a.home = none) : ∃ u, exec .homeAccess s = .next u ∧
      u.net = s.net.filter (fun x => x.id != s.ev.id) ∧
      (∀ i (hi : i < a.data.length), u.mem.get (a.home + i) = a.data[i]) ∧
      ∀ k, k < a.home ∨ a.home + a.data.length ≤ k → u.mem.get k = s.mem.get k := by
  have hx : exec .homeAccess s = .next (s.homeWrite a a.home) := by
    rw [exec_homeAccess_device ha hd, s.homeAccess_device hd (.inr (.inl hk)), if_neg (by simp [hmv]), if_neg (by simp [hk]), hmove]
    rfl
  obtain ⟨hnet, hmem⟩ := s.homeWrite_store hd hk (isDevice_lt hend).le
  refine ⟨_, hx, ?_, fun i hi => ?_, fun k hkk => ?_⟩
  · rw [hnet, State.leaveNet_net ha]
  · rw [hmem, Mem.get_store, Mem.get_write a.home i a.data hs hi]
  · rw [hmem, Mem.get_store, Mem.get_write_other _ _ hkk]

end

end Sys2Proof.Machine
end

section
/-! PROOFS. Requests and invalidations of other nodes (R324, R337, R356, R398), and all events of the network. -/

namespace Sys2Proof.Machine

/-! ### Requests of other nodes (R324, R337) -/

theorem State.nodePlace_device (s : State) {a n : Nat} (h : a + n ≤ deviceSize) : s.nodePlace a n = .memory := by
  have := h
  simp only [deviceSize] at this
  rw [State.nodePlace, if_neg (by rw [windowBase]; omega), if_neg (by rw [inImage, decide_eq_true_eq, imageBase]; omega),
    if_pos (by simp [h])]

theorem State.answer_other (s : State) {node : Nat} (h : node ≠ s.mod.node.toNat) (refused : Bool) (bs : List Byte) (mark : Bool) :
    s.answer node refused bs mark =
      { s with sent := s.sent ++ [{ node := node, refused := refused, bytes := bs, mark := mark }] } := if_neg h

section
variable {s : State} (hi : s.ev.idx ≠ 1) (hn : s.ev.req.addr + s.ev.req.len ≤ deviceSize)
include hi hn

/-- A request for device memory is dropped without power, refused before READY, and then served (R324, R398). -/
theorem exec_fabricRequest_device : exec .fabricRequest s = .next (
    if s.mod.power = false then s
    else if s.mod.stage = 6 then s.fabricAccess s.ev.req
    else s.answer s.ev.req.node.toNat true []) := by
  show execFabricRequest s = _
  simp only [execFabricRequest, if_neg hi, s.nodePlace_device hn, Bool.not_eq_eq_eq_not, Bool.not_true]

variable (hnode : s.ev.req.node.toNat ≠ s.mod.node.toNat) (hp : s.mod.power = true)
include hp

theorem exec_fabricRequest_ready (hr : s.mod.stage = 6) : exec .fabricRequest s = .next (s.fabricAccess s.ev.req) := by
  rw [exec_fabricRequest_device hi hn, if_neg (by simp [hp]), if_pos hr]

theorem exec_fabricRequest_held (hr : s.mod.stage = 6) (hw : s.fabricWaits s.ev.req = true) :
    exec .fabricRequest s = .next (s.fabricHold s.ev.req) := by
  rw [exec_fabricRequest_ready hi hn hp hr, State.fabricAccess, if_pos hw]

include hnode

theorem exec_fabricRequest_refused (hr : s.mod.stage ≠ 6) : exec .fabricRequest s =
    .next { s with sent := s.sent ++ [{ node := s.ev.req.node.toNat, refused := true, bytes := [] }] } := by
  rw [exec_fabricRequest_device hi hn, if_neg (by simp [hp]), if_neg hr, s.answer_other hnode]

theorem exec_fabricRequest_marked (hr : s.mod.stage = 6) (hw : s.fabricWaits s.ev.req = false) (hmv : s.ev.req.mv = true)
    (hd : isDevice s.ev.req.addr = true) (hm : s.mem.marked s.ev.req.addr = true) : exec .fabricRequest s =
    .next { s with sent := s.sent ++
      [{ node := s.ev.req.node.toNat, refused := false, bytes := toBytes (s.mem.newVa s.ev.req.addr) 8, mark := true }] } := by
  rw [exec_fabricRequest_ready hi hn hp hr, State.fabricAccess, if_neg (by simp [hw]), if_pos (by simp [hmv, hd, hm]),
    s.answer_other hnode]

theorem exec_fabricRequest_read (hr : s.mod.stage = 6) (hw : s.fabricWaits s.ev.req = false)
    (hm : s.ev.req.mv = false ∨ s.mem.marked s.ev.req.addr = false) (hk : s.ev.req.kind = 0) : exec .fabricRequest s =
    .next { s with sent := s.sent ++
      [{ node := s.ev.req.node.toNat, refused := false, bytes := s.bytesAt s.ev.req.addr s.ev.req.len }] } := by
  rw [exec_fabricRequest_ready hi hn hp hr, State.fabricAccess, if_neg (by simp [hw]), if_neg, if_pos hk,
    s.correct_device (by omega), s.answer_other hnode]
  rcases hm with hm | hm <;> simp [hm]

end

/-! ### Invalidations of other nodes (R356) -/

theorem mget_map_other {α : Type} {d : α} {f : Nat × α → Nat × α} {k : Nat} (hkey : ∀ e, (f e).1 = e.1) (m : TMap α)
    (hk : ∀ v, v = mget d m k → f (k, v) = (k, v)) : mget d (m.map f) k = mget d m k := by
  induction m with
  | nil => rfl
  | cons e m ih =>
    obtain ⟨j, v⟩ := e
    simp only [mget] at hk
    rw [List.map_cons]
    by_cases h : k = j
    · subst h
      simp only [if_true] at hk
      rw [hk v rfl]
      simp [mget]
    · have hj := hkey (j, v)
      simp only [if_neg h] at hk
      rw [← Prod.mk.eta (p := f (j, v)), hj]
      simp only [mget, if_neg h, ih hk]

theorem State.reloadAsid_ctx_other (s : State) {asid : BitVec 16} (lo len lvl : Nat) {m : Nat} (h : (s.ctx m).asid ≠ asid) :
    (s.reloadAsid asid lo len lvl).ctx m = s.ctx m := by
  refine mget_map_other (fun e => ?_) s.ctxs fun v hv => ?_
  · dsimp only
    split <;> rfl
  · have hv' : v.asid ≠ asid := by rw [hv]; exact h
    dsimp only
    rw [if_pos (by simp [hv'])]

theorem remoteInvalidation_changes (s : State) : ∃ u, exec .remoteInvalidation s = .next u ∧ u.mem = s.mem ∧
    ∀ m, (s.ctx m).asid ≠ s.ev.v.setWidth 16 → u.ctx m = s.ctx m :=
  ⟨_, rfl, State.reloadAsid_mem .., fun m hm => s.reloadAsid_ctx_other _ _ _ (by rw [bits_zero]; exact hm)⟩

/-- Settles O46: answers as they land, departures, accesses at their homes and what other nodes send, each by its own lemma. -/
theorem networkEvents : Obligations.NetworkEvents := by
  intro s id
  refine ⟨fun r hr => dataArrival_changes s hr, fun hi r hr => acknowledgmentArrival_changes s hi hr,
    exec_invalidation_acknowledged, fun a ha hm => outboundDepart_alone s ha hm, fun a ha => ⟨exec_homeAccess_beyond ha,
      homeAccess_answers ha, fun hk hmv hd hmark => homeAccess_marked ha hd hk hmv hmark,
      fun hk hmv hd => homeAccess_load ha hd hk hmv,
      fun hk hmv hd hend hs hmove => homeAccess_store ha hd hk hmv hend hs hmove⟩, ?_, remoteInvalidation_changes s⟩
  intro r n other
  refine ⟨fun ⟨hi, _, hn⟩ hp => ?_, fun ⟨hi, hnode, hn⟩ hp hr => exec_fabricRequest_refused hi hn hnode hp hr,
    fun ⟨hi, _, hn⟩ hp hr hw => exec_fabricRequest_held hi hn hp hr hw,
    fun ⟨hi, hnode, hn⟩ hp hr hw hmv hd hm => exec_fabricRequest_marked hi hn hnode hp hr hw hmv hd hm,
    fun ⟨hi, hnode, hn⟩ hp hr hw hm hk =>
      ⟨_, exec_fabricRequest_read hi hn hnode hp hr hw hm hk, fun _ => rfl, rfl⟩⟩
  rw [exec_fabricRequest_device hi hn, if_pos hp]

end Sys2Proof.Machine
end

section
/-! PROOFS. Transfers (R89, R91, R92, R109, R353): where fetch goes on, the link, the prefetch of a call, and a poisoned target. -/

namespace Sys2Proof.Machine

open Sys2Proof.Claims

/-! ### The traps of operations of R125 -/

/-- A trap of an operation of R125: at the bundle, or deferred where the larder has room (R131). -/
theorem State.branchTrap_raises {s : State} {h : Hdr} {k : Cond2} (hk : s.guard h = some k) (r : TrapRec) :
    s.Raises h (.next (s.branchTrap k r)) r := by
  intro j hj
  obtain rfl : k = j := Option.some.inj (hk.symm.trans hj)
  refine ⟨fun hn => ?_, fun hn hroom => ?_⟩
  · simp [State.branchTrap, State.withTraps, hn]
  · have hroom' : s.cur.noRoom 1 = false := by simp only [Ctx.noRoom, decide_eq_false_iff_not]; omega
    simp [State.branchTrap, State.withTraps, State.withRoom, State.raiseAll, State.raiseTag, hn, hroom']

/-- An operation of R125 that traps whatever the literals of its guard. -/
theorem State.Passes.branchingK_raises {s : State} {h : Hdr} (hp : s.Passes h) {srcs : List (List (Tag × SVal))}
    {f : Cond2 → State} {r : TrapRec} (hm : manyAlts srcs = none) (hf : ∀ k, f k = s.branchTrap k r) :
    s.Raises h (.next (s.branchingK h srcs f)) r := by
  obtain ⟨k, hk⟩ := hp.1
  rw [hp.branchingK hk srcs f hm, hf]
  exact State.branchTrap_raises hk r

/-! ### Sources of transfers -/

theorem manyAlts_single (x : SVal) : manyAlts [[([], x)]] = none := rfl

theorem State.useTrap_clean (s : State) (x ea use : Word) (fatal : Bool) : s.useTrap (clean x) ea use fatal = none := rfl

theorem State.useTrap_poison (s : State) {x : SVal} (hx : x.p = 1) (hf : x.f = none) (ea use : Word) (fatal : Bool) :
    s.useTrap x ea use fatal = some { s.trapRec .poison ea use with forceFatal := fatal } := by
  simp [State.useTrap, hx, hf]

/-- An operation of R125 on a scalar of one clean value. -/
theorem State.Passes.branchOnK {s : State} {h : Hdr} {k : Cond2} (hp : s.Passes h) (hk : s.guard h = some k) {r : Nat}
    {x : Word} (hx : s.SIs r (clean x)) (f : Cond2 → Word → State) : s.branchOnK h r f = f k x := by
  unfold State.branchOnK
  rw [hx, hp.branchingK hk _ _ (manyAlts_single _)]
  rfl

theorem State.Passes.branchOn {s : State} {h : Hdr} (hp : s.Passes h) {r : Nat} {x : Word} (hx : s.SIs r (clean x))
    (f : Word → State) : s.branchOn h r f = f x :=
  let ⟨_, hk⟩ := hp.1
  hp.branchOnK hk hx _

/-- A poisoned scalar raises `POISON` at an operation of R125 (R353). -/
theorem State.Passes.branchOn_poison {s : State} {h : Hdr} (hp : s.Passes h) {r : Nat} {x : SVal} (hx : s.SIs r x)
    (hv : x.p = 1) (hf : x.f = none) (f : Word → State) :
    s.Raises h (.next (s.branchOn h r f)) (s.trapRec .poison 0 4) := by
  unfold State.branchOn State.branchOnK
  rw [hx]
  refine hp.branchingK_raises (manyAlts_single _) fun k => ?_
  simp only [one, s.useTrap_poison hv hf]
  rfl

/-! ### Taking a transfer -/

/-- Which member decides where fetch goes depends on the fusion of the context alone. -/
theorem State.isLead_congr {s t : State} (hl : t.latch = s.latch) (hw : t.cur.fuseW = s.cur.fuseW)
    (h0 : t.cur.fuse0 = s.cur.fuse0) : t.isLead = s.isLead := by
  simp only [State.isLead, State.seqN, hl, hw, h0]

theorem State.Becomes.isLead {s t : State} {c : Ctx} (h : s.Becomes t c) (hw : c.fuseW = s.cur.fuseW)
    (h0 : c.fuse0 = s.cur.fuse0) : t.isLead = s.isLead :=
  State.isLead_congr h.latch (by rw [h.cur, hw]) (by rw [h.cur, h0])

theorem State.jump_becomes (s : State) (tgt cost : Nat) : s.Becomes (s.jump tgt cost) (goingTo s tgt cost s.cur) := by
  unfold State.jump goingTo
  split
  · exact s.onCur_becomes _
  · exact State.Becomes.refl s

/-- A transfer taken after a change that leaves the fusion alone. -/
theorem State.Becomes.jump {s t : State} {c : Ctx} (h : s.Becomes t c) (hw : c.fuseW = s.cur.fuseW)
    (h0 : c.fuse0 = s.cur.fuse0) (tgt cost : Nat) : s.Becomes (t.jump tgt cost) (goingTo s tgt cost c) := by
  have hj := t.jump_becomes tgt cost
  rw [goingTo, h.isLead hw h0, h.cur] at hj
  exact h.trans hj

/-- A link on its way and fetch continuing at the target (R91). -/
theorem State.linkTo_jump_becomes (s : State) (r tgt cost : Nat) :
    s.Becomes ((s.linkTo r).jump tgt cost) (goingTo s tgt cost (linked s r)) :=
  (s.deliverS_becomes r 1 (clean (BitVec.ofNat 64 s.latch.next))).jump rfl rfl tgt cost

/-! ### Lines brought into caches -/

/-- From `s` to `t` only lines are brought into caches. -/
def State.CachesOnly (s t : State) : Prop :=
  t = { s with cores := t.cores, picks := t.picks } ∧ ∀ k, t.core k = { s.core k with lines := (t.core k).lines }

theorem State.CachesOnly.refl (s : State) : s.CachesOnly s := ⟨rfl, fun _ => rfl⟩

theorem State.CachesOnly.trans {s t u : State} (h : s.CachesOnly t) (k : t.CachesOnly u) : s.CachesOnly u := by
  obtain ⟨hst, hcore⟩ := h
  obtain ⟨htu, kcore⟩ := k
  exact ⟨by rw [htu, hst], fun j => by rw [kcore, hcore]⟩

theorem State.CachesOnly.mem {s t : State} (h : s.CachesOnly t) : t.mem = s.mem := by rw [h.1]
theorem State.CachesOnly.ctxs {s t : State} (h : s.CachesOnly t) : t.ctxs = s.ctxs := by rw [h.1]
theorem State.CachesOnly.latch {s t : State} (h : s.CachesOnly t) : t.latch = s.latch := by rw [h.1]
theorem State.CachesOnly.uid {s t : State} (h : s.CachesOnly t) : t.uid = s.uid := by rw [h.1]
theorem State.CachesOnly.ctx {s t : State} (h : s.CachesOnly t) (m : Nat) : t.ctx m = s.ctx m := by
  rw [State.ctx, h.ctxs]; rfl
theorem State.CachesOnly.cur {s t : State} (h : s.CachesOnly t) : t.cur = s.cur := by
  rw [State.cur, h.latch, h.ctx]; rfl
theorem State.CachesOnly.locks {s t : State} (h : s.CachesOnly t) (k : Nat) : (t.core k).locks = (s.core k).locks := by
  rw [h.2]
theorem State.CachesOnly.act {s t : State} (h : s.CachesOnly t) (k : Nat) : (t.core k).act = (s.core k).act := by
  rw [h.2]

/-- Making room loses lines and nothing else. -/
theorem Core.makeRoom_lines (d : Core) (k : Nat) : d.makeRoom k = { d with lines := (d.makeRoom k).lines } := by
  unfold Core.makeRoom
  extract_lets free
  split
  · rfl
  · split <;> rfl

theorem Core.filled_lines (k : Nat) (l : Nat × Nat) (d : Core) : d.filled k l = { d with lines := (d.filled k l).lines } := by
  unfold Core.filled
  rw [d.makeRoom_lines k]

theorem State.fillLine_cachesOnly (s : State) (n va : Nat) : s.CachesOnly (s.fillLine n va) := by
  unfold State.fillLine
  extract_lets c k v0 full
  split
  · exact .refl s
  · split
    · exact .refl s
    · next hm _ =>
      refine ⟨rfl, fun j => ?_⟩
      show (s.onCore (coreOf n) (Core.filled (Config.pick s.picks) (k, leBytes (s.bytesAt hm 64)))).core j =
        { s.core j with
          lines := ((s.onCore (coreOf n) (Core.filled (Config.pick s.picks) (k, leBytes (s.bytesAt hm 64)))).core j).lines }
      rw [State.core_onCore]
      split
      · next hj => rw [hj]; exact Core.filled_lines _ _ _
      · rfl

theorem State.fillLines_cachesOnly (s : State) (n : Nat) (l : List Nat) : s.CachesOnly (s.fillLines n l) := by
  induction l generalizing s with
  | nil => exact .refl s
  | cons va l ih => exact (s.fillLine_cachesOnly n va).trans (ih _)

/-- A fill of a cache with room keeps what it holds, and takes one line at most. -/
theorem State.fillLine_room {s : State} {n : Nat} (va : Nat) (hroom : (s.core (coreOf n)).lines.length < cacheLines) :
    (∀ l ∈ (s.core (coreOf n)).lines, l ∈ ((s.fillLine n va).core (coreOf n)).lines) ∧
      ((s.fillLine n va).core (coreOf n)).lines.length ≤ (s.core (coreOf n)).lines.length + 1 := by
  rcases s.fillLine_cases n va with ⟨he, -⟩ | ⟨u, v, he, -, -, hlines⟩
  · rw [he]; exact ⟨fun _ hl => hl, Nat.le_succ _⟩
  · rw [he, hlines, Core.makeRoom_of_room _ hroom]
    exact ⟨fun _ hl => List.mem_append_left _ hl, (List.length_append ..).le⟩

/-- A line that can be fetched is in the cache behind its fill. -/
theorem State.fillLine_has {s : State} {n va : Nat} (hc : (s.ctx n).canFetch (va - va % 64) = true)
    (hh : (s.fetchHome n (va - va % 64)).isSome = true) :
    ∃ bs, (lineKey (s.ctx n).asid va, bs) ∈ ((s.fillLine n va).core (coreOf n)).lines := by
  obtain ⟨hm, hhm⟩ := Option.isSome_iff_exists.1 hh
  rcases s.fillLine_cases n va with ⟨he, hkey⟩ | ⟨u, v, he, -, -, hlines⟩
  · obtain ⟨⟨key, bs⟩, hl, rfl⟩ := hkey hc hm hhm
    exact ⟨bs, by rw [he]; exact hl⟩
  · exact ⟨v, by rw [he, hlines]; simp⟩

theorem State.fillLines_keeps {s : State} {n : Nat} {vas : List Nat}
    (hroom : (s.core (coreOf n)).lines.length + vas.length ≤ cacheLines) :
    ∀ l ∈ (s.core (coreOf n)).lines, l ∈ ((s.fillLines n vas).core (coreOf n)).lines := by
  induction vas generalizing s with
  | nil => exact fun _ hl => hl
  | cons va vas ih =>
    rw [List.length_cons] at hroom
    obtain ⟨hkeep, hlen⟩ := s.fillLine_room (n := n) va (by omega)
    exact fun l hl => ih (by omega) l (hkeep l hl)

/-- What a fetch of code finds depends on memory, the module and the context's table. -/
theorem State.fetchHome_congr {s t : State} {n : Nat} (hmem : t.mem = s.mem) (hmod : t.mod = s.mod)
    (htab : (t.ctx n).table = (s.ctx n).table) : t.fetchHome n = s.fetchHome n := by
  have hown : t.ownHome = s.ownHome := by funext hm; simp only [State.ownHome, hmod]
  funext va
  rw [State.fetchHome, State.fetchHome, State.fetchWay, State.fetchWay, hmem, hown, htab]

theorem State.CachesOnly.fetchHome {s t : State} (h : s.CachesOnly t) (n : Nat) : t.fetchHome n = s.fetchHome n :=
  State.fetchHome_congr h.mem (by rw [h.1]) (by rw [h.ctx])

/-- Behind the fills of a cache that has room for them all, every line that can be fetched is there. -/
theorem State.fillLines_has {s : State} {n va : Nat} {vas : List Nat}
    (hroom : (s.core (coreOf n)).lines.length + vas.length ≤ cacheLines) (hva : va ∈ vas)
    (hc : (s.ctx n).canFetch (va - va % 64) = true) (hh : (s.fetchHome n (va - va % 64)).isSome = true) :
    ∃ bs, (lineKey (s.ctx n).asid va, bs) ∈ ((s.fillLines n vas).core (coreOf n)).lines := by
  induction vas generalizing s with
  | nil => exact absurd hva List.not_mem_nil
  | cons x vas ih =>
    rw [List.length_cons] at hroom
    obtain ⟨-, hlen⟩ := s.fillLine_room (n := n) x (by omega)
    rcases List.mem_cons.1 hva with rfl | hva
    · obtain ⟨bs, hbs⟩ := State.fillLine_has hc hh
      exact ⟨bs, State.fillLines_keeps (s := s.fillLine n va) (by omega) _ hbs⟩
    · have ho := s.fillLine_cachesOnly n x
      rw [← ho.ctx n] at hc ⊢
      rw [← ho.fetchHome n] at hh
      exact ih (s := s.fillLine n x) (by omega) hva hc hh

/-! ### The prefetch of a call (R109) -/

theorem length_upTo (lo n : Nat) : (upTo lo n).length = n := by
  induction n generalizing lo with
  | zero => rfl
  | succ n ih => rw [upTo, List.length_cons, ih]

theorem length_linesOf_128 (x : Nat) : (linesOf x 128).length ≤ 3 := by
  simp only [linesOf, if_neg (by decide : ¬ (128 : Nat) = 0), List.length_map, length_upTo]
  omega

/-- The lines of the bytes at `x` and 64 further are among those that hold the 128 bytes from `x` on. -/
theorem mem_linesOf_128 {x va : Nat} (h : va ∈ [x, x + 64]) : va - va % 64 ∈ linesOf x 128 := by
  rw [linesOf, if_neg (by decide)]
  have hva : va = x ∨ va = x + 64 := by simpa using h
  exact List.mem_map.2 ⟨va / 64 - x / 64, mem_upTo.2 (by omega), by omega⟩

theorem State.fillLines_append (s : State) (n : Nat) (a b : List Nat) :
    s.fillLines n (a ++ b) = (a.foldl (fun s va => s.fillLine n va) s).fillLines n b := by
  induction a generalizing s with
  | nil => rfl
  | cons x a ih => exact ih _

theorem State.prefetch_eq_fillLines (s : State) (n : Nat) (l : List Nat) :
    s.prefetch n l = s.fillLines n (l.flatMap (fun x => linesOf x 128)) := by
  induction l generalizing s with
  | nil => rfl
  | cons x l ih => rw [State.prefetch, ih, List.flatMap_cons, State.fillLines_append]

theorem State.length_successors (s : State) (n tgt : Nat) : (s.successors n tgt).length ≤ 4 := by
  unfold State.successors
  split
  · exact Nat.zero_le 4
  · dsimp only
    split
    · exact Nat.zero_le 4
    · split
      · exact Nat.zero_le 4
      · rw [List.length_map, length_upTo]
        exact Nat.min_le_left 4 _

theorem length_flatMap_linesOf_128 (l : List Nat) : (l.flatMap (fun x => linesOf x 128)).length ≤ 3 * l.length := by
  induction l with
  | nil => exact Nat.le_refl 0
  | cons x l ih =>
    have := length_linesOf_128 x
    rw [List.flatMap_cons, List.length_append, List.length_cons]
    omega

/-- The successors of a call's target take at most twelve lines. -/
theorem State.length_successor_lines (s : State) (n tgt : Nat) :
    ((s.successors n tgt).flatMap (fun x => linesOf x 128)).length ≤ 12 :=
  (length_flatMap_linesOf_128 _).trans (Nat.mul_le_mul_left 3 (s.length_successors n tgt))

/-- A change of the context, and lines brought into caches behind it. -/
theorem State.Becomes.cached {s t u : State} {c : Ctx} (h : s.Becomes t c) (k : t.CachesOnly u) : s.BecomesCached u c := by
  obtain ⟨hst, hother, hcur, -⟩ := h
  refine ⟨by rw [k.1, hst], fun m hm => (k.ctx m).trans (hother m hm), k.cur.trans hcur, fun j => ?_⟩
  rw [k.2 j, hst]
  rfl

/-- A call taken: the link, the target, and the lines of the target's successors (R91, R109). -/
theorem State.callTo_changes (s : State) (r tgt cost : Nat) :
    s.BecomesCached (s.callTo r tgt cost) (goingTo s tgt cost (linked s r)) ∧ fetched s (s.callTo r tgt cost) tgt := by
  have hb := s.linkTo_jump_becomes r tgt cost
  have he : s.callTo r tgt cost = ((s.linkTo r).jump tgt cost).fillLines s.latch.n
      ((s.successors s.latch.n tgt).flatMap (fun x => linesOf x 128)) := State.prefetch_eq_fillLines _ _ _
  rw [he]
  refine ⟨hb.cached (State.fillLines_cachesOnly _ _ _), fun hroom x hx va hva hc hh => ?_⟩
  have htab : ((s.linkTo r).jump tgt cost).cur.table = s.cur.table ∧ ((s.linkTo r).jump tgt cost).cur.ttb = s.cur.ttb := by
    rw [hb.cur, goingTo]; split <;> exact ⟨rfl, rfl⟩
  generalize (s.linkTo r).jump tgt cost = t at hb htab
  have hctx : t.ctx s.latch.n = t.cur := by rw [State.cur, hb.latch]
  have hv : va - va % 64 - (va - va % 64) % 64 = va - va % 64 := by omega
  have hhome : t.fetchHome s.latch.n = s.fetchHome s.latch.n :=
    State.fetchHome_congr (by rw [hb.1]) (by rw [hb.1]) (by rw [hctx, htab.1]; rfl)
  have hfetch : (t.ctx s.latch.n).canFetch (va - va % 64) = true := by
    rw [hctx, Ctx.canFetch, htab.1]; exact hc
  have hlen := s.length_successor_lines s.latch.n tgt
  obtain ⟨bs, hbs⟩ := State.fillLines_has (s := t) (n := s.latch.n) (va := va - va % 64)
    (vas := (s.successors s.latch.n tgt).flatMap (fun x => linesOf x 128)) (by rw [hb.core]; omega)
    (List.mem_flatMap.2 ⟨x, hx, mem_linesOf_128 hva⟩) (by rw [hv]; exact hfetch) (by rw [hv, hhome]; exact hh)
  refine ⟨bs, ?_⟩
  rw [lineKey, hv, hctx, Ctx.asid, htab.2] at hbs
  exact hbs

/-! ### The obligation -/

/-- R91, R92, R109: the five transfers under a guard that passes. -/
theorem transferTargets : TransferTargets := by
  intro h s hp
  refine ⟨fun o => ⟨_, congrArg Host.Outcome.next (hp.branching [] _ rfl), s.jump_becomes _ 1⟩,
    fun o => ⟨_, congrArg Host.Outcome.next (hp.branching [] _ rfl), s.callTo_changes 63 _ 1⟩, fun o x hx => ⟨?_, ?_, ?_⟩⟩
  · exact ⟨_, congrArg Host.Outcome.next (hp.branchOn hx _), s.jump_becomes _ 3⟩
  · exact ⟨_, congrArg Host.Outcome.next (hp.branchOn hx _), s.callTo_changes o.d.toNat _ 3⟩
  · exact ⟨_, congrArg Host.Outcome.next (hp.branchOn hx _), s.jump_becomes _ 3⟩

theorem poisonedTargetTraps : PoisonedTargetTraps := fun _ s _ _ hp hx hv hf =>
  ⟨s.trapRec .poison 0 4, rfl, rfl, rfl, hp.branchOn_poison hx hv hf _, hp.branchOn_poison hx hv hf _,
    hp.branchOn_poison hx hv hf _⟩

/-- Settles O5: transfers under a guard that passes, and those whose target is poisoned. -/
theorem transfersTaken : Obligations.TransfersTaken := ⟨transferTargets, poisonedTargetTraps⟩

end Sys2Proof.Machine
end

section
/-! PROOFS. Loops (R93 to R96): levels pushed, left and read. -/

namespace Sys2Proof.Machine

open Sys2Proof.Claims

/-! ### The push of a level (R93) -/

section
variable {s : State} {c : Word} (hlead : s.isLead = true) (hlast : ∀ l, s.cur.loops.head? = some l → l.stop ≠ s.cur.gnext)
include hlead hlast

/-- Outside the last group of an enclosing body, member 0 skips, pushes or traps. -/
theorem State.enterLoop_lead (k : Cond2) (len : Nat) : s.enterLoop k c len =
    if c = 0 then s.jump (s.cur.gnext + 2 * len) 1
    else if 6 ≤ s.cur.loops.length + s.cur.push.length then s.branchTrap k s.depthTrap
    else s.onCur (fun d => { d with
      push := { index := 0, count := c, start := s.cur.gnext, stop := s.cur.gnext + 2 * len } :: d.push }) := by
  unfold State.enterLoop
  simp only [hlead, Bool.not_true, Bool.false_eq_true, if_false]
  rw [if_neg]
  cases hl : s.cur.loops with
  | nil => exact Bool.false_ne_true
  | cons l r => exact fun he => hlast l (by rw [hl]; rfl) (eq_of_beq he)

theorem State.enterLoop_skips (hc : c = 0) (k : Cond2) (len : Nat) :
    s.Becomes (s.enterLoop k c len) (goingTo s (s.cur.gnext + 2 * len) 1 s.cur) := by
  rw [State.enterLoop_lead hlead hlast, if_pos hc]
  exact s.jump_becomes _ 1

theorem State.enterLoop_pushes (hc : c ≠ 0) (hroom : s.cur.loops.length + s.cur.push.length < 6) (k : Cond2) (len : Nat) :
    s.Becomes (s.enterLoop k c len) { s.cur with
      push := { index := 0, count := c, start := s.cur.gnext, stop := s.cur.gnext + 2 * len } :: s.cur.push } := by
  rw [State.enterLoop_lead hlead hlast, if_neg hc, if_neg (by omega)]
  exact s.onCur_becomes _

theorem State.enterLoop_full (hc : c ≠ 0) (hfull : 6 ≤ s.cur.loops.length + s.cur.push.length) (k : Cond2) (len : Nat) :
    s.enterLoop k c len = s.branchTrap k s.depthTrap := by
  rw [State.enterLoop_lead hlead hlast, if_neg hc, if_pos hfull]

end

/-- Both loop operations of a known count enter the loop, under a guard that passes. -/
theorem exec_loop_enters {h : Hdr} {s : State} {o : CLOp} {c : Word} {i : Instr} {len : Nat} (hp : s.Passes h)
    (hi : (i = .loop h o ∧ c = (if h.ext then o.imm32.setWidth 64 else o.n.setWidth 64) ∧ len = o.len.toNat) ∨
      (i = .loopv h o ∧ s.SIs o.n.toNat (clean c) ∧ len = (if h.ext then o.imm32.toNat else o.len.toNat))) :
    ∃ k, s.guard h = some k ∧ exec i s = .next (s.enterLoop k c len) := by
  obtain ⟨k, hk⟩ := hp.1
  refine ⟨k, hk, ?_⟩
  rcases hi with ⟨rfl, rfl, rfl⟩ | ⟨rfl, hn, rfl⟩
  · exact congrArg Host.Outcome.next (hp.branchingK hk [] _ rfl)
  · exact congrArg Host.Outcome.next (hp.branchOnK hk hn _)

theorem loopsPushed : LoopsPushed := by
  intro h s o c hp hlead hlast i len hi
  obtain ⟨k, hk, he⟩ := exec_loop_enters hp hi
  rw [he]
  exact ⟨fun hc => ⟨_, rfl, State.enterLoop_skips hlead hlast hc k len⟩,
    fun hc hroom => ⟨_, rfl, State.enterLoop_pushes hlead hlast hc hroom k len⟩,
    fun hc hfull => ⟨s.depthTrap, rfl, rfl, by
      rw [State.enterLoop_full hlead hlast hc hfull]; exact State.branchTrap_raises hk _⟩⟩

/-! ### The loop-end step (R94) -/

/-- A level with iterations left goes back to its start. -/
theorem loopEnd_again (b : Nat) {l : Level} (r : List Level) (h : l.index + 1 < l.count) :
    loopEnd b (l :: r) = ({ l with index := l.index + 1, began := b } :: r, some l.start, [r.length]) := by
  unfold loopEnd
  exact if_pos (by simpa [BitVec.ult_eq_decide, BitVec.lt_def] using h)

/-- A level at its last iteration is left, where the level below it does not end at the same place. -/
theorem loopEnd_leaves (b : Nat) {l : Level} {r : List Level} (h : ¬ l.index + 1 < l.count)
    (hr : ∀ m, r.head? = some m → m.stop ≠ l.stop) : loopEnd b (l :: r) = (r, some l.stop, [r.length]) := by
  have hult : ¬ (l.index + 1).ult l.count = true := by simpa [BitVec.ult_eq_decide, BitVec.lt_def] using h
  unfold loopEnd
  simp only [if_neg hult]
  cases r with
  | nil => rfl
  | cons m r =>
    have : ¬ m.stop = l.stop := hr m rfl
    simp [this]

/-! ### Changes that the loop-end step makes to its context -/

/-- Counting slot counters (R362) changes nothing else. -/
theorem Ctx.lscAdd_lsc (c : Ctx) (k i : Nat) (d : Word) : c.lscAdd k i d = { c with lsc := (c.lscAdd k i d).lsc } := by
  unfold Ctx.lscAdd
  split <;> rfl

theorem Ctx.foldl_lscAdd_lsc (ks : List Nat) (c : Ctx) :
    ∃ x, ks.foldl (fun c k => c.lscAdd k 20 1) c = { c with lsc := x } := by
  induction ks generalizing c with
  | nil => exact ⟨c.lsc, rfl⟩
  | cons k ks ih =>
    obtain ⟨x, hx⟩ := ih (c.lscAdd k 20 1)
    exact ⟨x, by rw [List.foldl_cons, hx, Ctx.lscAdd_lsc]⟩

/-- What holds of every context and is kept by a change holds behind changes of several. -/
theorem State.onCtxs_keeps {P : Ctx → Prop} {f : Ctx → Ctx} (hf : ∀ c, P c → P (f c)) {s : State} {m : Nat}
    (h : P (s.ctx m)) (ns : List Nat) : P ((s.onCtxs f ns).ctx m) := by
  induction ns generalizing s with
  | nil => exact h
  | cons n ns ih =>
    refine ih ?_
    rw [State.ctx_onCtx]
    split
    · next hm => exact hf _ (hm ▸ h)
    · exact h

@[simp] theorem State.onCtxs_latch (s : State) (f : Ctx → Ctx) (ns : List Nat) : (s.onCtxs f ns).latch = s.latch := by
  induction ns generalizing s with
  | nil => rfl
  | cons n ns ih => rw [State.onCtxs, ih, State.onCtx_latch]

/-- The step changes the loop stack of its context, disarms its sticky slots, and asks for its point. -/
theorem State.loopStep_ctx (s : State) (n : Nat) : ∃ x, ((s.loopStep n).1.ctx n) =
    { s.ctx n with loops := (loopEnd (s.ctx n).issued (s.ctx n).loops).1, sticky := [], pointed := true, lsc := x } := by
  unfold State.loopStep
  extract_lets z s1
  refine State.onCtxs_keeps (P := fun c => ∃ x, c =
    { s.ctx n with loops := z.1, sticky := [], pointed := true, lsc := x }) ?_ ⟨(s.ctx n).lsc, ?_⟩ _
  · rintro c ⟨x, rfl⟩
    obtain ⟨y, hy⟩ := Ctx.foldl_lscAdd_lsc z.2.2 { s.ctx n with loops := z.1, sticky := [], pointed := true, lsc := x }
    exact ⟨y, by rw [hy]⟩
  · exact State.ctx_onCtx_same _ _ _

theorem State.loopStep_latch (s : State) (n : Nat) : (s.loopStep n).1.latch = s.latch := by
  simp only [State.loopStep, State.onCtxs_latch, State.onCtx_latch]

/-! ### Levels left (R95) -/

section
variable {h : Hdr} {s : State} {o : CIOp} (hp : s.Passes h) (hlead : s.isLead = true)
include hp hlead

theorem exec_brk_shallow (hk : 1 ≤ o.val h % 8) (hlen : s.cur.loops.length < o.val h % 8) :
    s.Raises h (exec (.brk h o) s) s.depthTrap := by
  have hdrop : s.cur.loops.drop (o.val h % 8 - 1) = [] := List.drop_eq_nil_of_le (by omega)
  refine hp.branchingK_raises rfl fun k => ?_
  simp only [hlead, hdrop, Bool.not_true, Bool.false_eq_true, if_false, List.head?_nil]

theorem exec_next_shallow (hlen : s.cur.loops.length < o.val h % 8) : s.Raises h (exec (.next h o) s) s.depthTrap := by
  refine hp.branchingK_raises rfl fun k => ?_
  simp only [hlead, hlen, Bool.not_true, Bool.false_eq_true, if_false, if_true]

theorem exec_brk_leaves {l : Level} {rest : List Level} (hk : 1 ≤ o.val h % 8)
    (hdrop : s.cur.loops.drop (o.val h % 8 - 1) = l :: rest) :
    ∃ t, exec (.brk h o) s = .next t ∧ s.Becomes t (goingTo s l.stop 1 { s.cur with loops := rest }) := by
  obtain ⟨k, hg⟩ := hp.1
  have hrest : s.cur.loops.drop (o.val h % 8) = rest := by
    rw [← Nat.sub_add_cancel hk, ← List.drop_drop, hdrop]; rfl
  refine ⟨(s.onCur (fun c => { c with loops := c.loops.drop (o.val h % 8) })).jump l.stop 1, ?_, ?_⟩
  · refine congrArg Host.Outcome.next ((hp.branchingK hg [] _ rfl).trans ?_)
    simp only [hlead, hdrop, Bool.not_true, Bool.false_eq_true, if_false, List.head?_cons]
  · rw [← hrest]
    exact (s.onCur_becomes _).jump rfl rfl _ _

end

/-- The state behind a `next k` of member 0 on a stack that holds k levels. -/
def State.nextStep (s : State) (k : Nat) : State :=
  let z := (s.onCur (fun c => { c with loops := c.loops.drop (k - 1), issued := c.issued + 1 })).loopStep s.latch.n
  (z.1.onCur (fun c => { c with issued := c.issued - 1 })).jump (z.2.getD s.latch.next) 1

theorem exec_next_steps {h : Hdr} {s : State} {o : CIOp} (hp : s.Passes h) (hlead : s.isLead = true)
    (hlen : o.val h % 8 ≤ s.cur.loops.length) : exec (.next h o) s = .next (s.nextStep (o.val h % 8)) := by
  obtain ⟨k, hg⟩ := hp.1
  refine congrArg Host.Outcome.next ((hp.branchingK hg [] _ rfl).trans ?_)
  simp only [hlead, Nat.not_lt.2 hlen, Bool.not_true, Bool.false_eq_true, if_false]
  rfl

/-- `next k` drops k − 1 levels, runs the loop-end step, and takes a transfer to where the step sends it. -/
theorem State.nextStep_cur {s : State} (hlead : s.isLead = true) (k : Nat) :
    let e := loopEnd (s.cur.issued + 1) (s.cur.loops.drop (k - 1))
    ∃ x, (s.nextStep k).cur = { s.cur with
      loops := e.1, sticky := [], pointed := true, lsc := x, go := some (e.2.1.getD s.latch.next), took := true, cost := 1 } := by
  intro e
  let s1 := s.onCur (fun c => { c with loops := c.loops.drop (k - 1), issued := c.issued + 1 })
  let s2 := (s1.loopStep s.latch.n).1
  have h1 : s1.ctx s.latch.n = { s.cur with loops := s.cur.loops.drop (k - 1), issued := s.cur.issued + 1 } := s.cur_onCur _
  obtain ⟨x, hx⟩ := s1.loopStep_ctx s.latch.n
  have hl2 : s2.latch = s.latch := s1.loopStep_latch s.latch.n
  have h2 : s2.cur = { s.cur with
      loops := e.1, issued := s.cur.issued + 1, sticky := [], pointed := true, lsc := x } := by
    rw [State.cur, hl2]
    exact hx.trans (by rw [h1])
  have hgo : (s1.loopStep s.latch.n).2 = e.2.1 := by simp only [State.loopStep, h1, e]
  have hlead2 : s2.isLead = true := (State.isLead_congr hl2 (by rw [h2]) (by rw [h2])).trans hlead
  have hlead3 : (s2.onCur (fun c => { c with issued := c.issued - 1 })).isLead = true :=
    ((s2.onCur_becomes _).isLead rfl rfl).trans hlead2
  refine ⟨x, ?_⟩
  show ((s2.onCur (fun c => { c with issued := c.issued - 1 })).jump ((s1.loopStep s.latch.n).2.getD s.latch.next) 1).cur = _
  rw [State.jump, if_pos hlead3, State.cur_onCur, State.cur_onCur, h2, hgo]
  rfl

theorem exec_next_leaves {h : Hdr} {s : State} {o : CIOp} {l : Level} {rest : List Level} (hp : s.Passes h)
    (hlead : s.isLead = true) (hk : 1 ≤ o.val h % 8) (hdrop : s.cur.loops.drop (o.val h % 8 - 1) = l :: rest) :
    ∃ t, exec (.next h o) s = .next t ∧ t.mem = s.mem ∧ t.cur.sa = s.cur.sa ∧ t.cur.v = s.cur.v ∧ t.cur.took = true ∧
      t.cur.sticky = [] ∧
      (l.index + 1 < l.count → t.cur.go = some l.start ∧ ∃ l', t.cur.loops = l' :: rest ∧ l'.index = l.index + 1 ∧
        l'.count = l.count ∧ l'.start = l.start ∧ l'.stop = l.stop) ∧
      (¬ l.index + 1 < l.count → (∀ m, rest.head? = some m → m.stop ≠ l.stop) →
        t.cur.go = some l.stop ∧ t.cur.loops = rest) := by
  have hlen : o.val h % 8 ≤ s.cur.loops.length := by
    have := congrArg List.length hdrop
    rw [List.length_drop, List.length_cons] at this
    omega
  obtain ⟨x, hx⟩ := State.nextStep_cur hlead (o.val h % 8)
  rw [hdrop] at hx
  refine ⟨_, exec_next_steps hp hlead hlen, by simp [State.nextStep], by rw [hx], by rw [hx], by rw [hx], by rw [hx],
    fun hagain => ?_, fun hlast hrest => ?_⟩
  · rw [hx, loopEnd_again _ _ hagain]
    exact ⟨rfl, _, rfl, rfl, rfl, rfl, rfl⟩
  · rw [hx, loopEnd_leaves _ hlast hrest]
    exact ⟨rfl, rfl⟩

theorem loopsLeft : LoopsLeft := fun _ s _ hp hlead hk =>
  ⟨fun hlen => ⟨s.depthTrap, rfl, rfl, exec_brk_shallow hp hlead hk hlen, exec_next_shallow hp hlead hlen⟩,
    fun _ _ hdrop => ⟨exec_brk_leaves hp hlead hk hdrop, exec_next_leaves hp hlead hk hdrop⟩⟩

/-- Settles O6: the levels that loop operations push, and those that `brk` and `next` leave. -/
theorem loopsPushedAndLeft : Obligations.LoopsPushedAndLeft := ⟨loopsPushed, loopsLeft⟩

/-! ### A level read (R96) -/

theorem State.loopIndex_delivers {s : State} {h : Hdr} (hf : s.Fires h) {o : CIOp} {l : Level}
    (hl : s.seqC.loops[o.val h % 8]? = some l) (f : Level → Word) :
    s.Becomes (s.loopIndex h o f) (given s o.d.toNat 1 (clean (f l))) := by
  rw [State.loopIndex, hf.guarded]
  simp only [List.head?_drop, hl]
  exact s.deliverS_becomes _ _ _

theorem State.loopIndex_deep {s : State} {h : Hdr} (hf : s.Fires h) {o : CIOp}
    (hl : s.seqC.loops.length ≤ o.val h % 8) (f : Level → Word) : s.loopIndex h o f = s.stat (.trap s.depthTrap) := by
  rw [State.loopIndex, hf.guarded]
  simp only [List.head?_drop, List.getElem?_eq_none hl]
  rfl

/-- Settles O7: a level that the stack holds is delivered, any other traps. -/
theorem loopIndexResults : Obligations.LoopIndexResults := fun _ s _ hf =>
  ⟨fun _ hl => ⟨⟨_, rfl, State.loopIndex_delivers hf hl Level.index⟩, ⟨_, rfl, State.loopIndex_delivers hf hl Level.count⟩⟩,
    fun hl => ⟨s.depthTrap, rfl, rfl, rfl, congrArg Host.Outcome.next (State.loopIndex_deep hf hl Level.index),
      congrArg Host.Outcome.next (State.loopIndex_deep hf hl Level.count)⟩⟩

end Sys2Proof.Machine
end

section
/-! PROOFS. Restart marks, ends and pre-emption points (R104, R106, R110, R357). -/

namespace Sys2Proof.Machine

open Sys2Proof.Claims

/-! ### Stores that leave the larder (R104) -/

/-- A context that has sent held stores: it differs in what is under way alone. -/
def Ctx.Sends (c d : Ctx) : Prop := d = { c with freed := d.freed, outs := d.outs }

theorem Ctx.Sends.refl (c : Ctx) : c.Sends c := rfl

theorem Ctx.Sends.trans {c d e : Ctx} (h : c.Sends d) (k : d.Sends e) : c.Sends e := by
  unfold Ctx.Sends at *
  rw [k, h]

theorem Ctx.Sends.toRegs {c d : Ctx} (h : c.Sends d) : d.toRegs = c.toRegs := by
  unfold Ctx.Sends at h; rw [h]
theorem Ctx.Sends.larder {c d : Ctx} (h : c.Sends d) : d.larder = c.larder := by
  unfold Ctx.Sends at h; rw [h]
theorem Ctx.Sends.mode {c d : Ctx} (h : c.Sends d) : d.mode = c.mode := by
  unfold Ctx.Sends at h; rw [h]

/-- A change of one context that only sends, seen from every context. -/
theorem State.onCtx_sends {s : State} {n : Nat} {f : Ctx → Ctx} (hf : ∀ c : Ctx, c.Sends (f c)) (m : Nat) :
    (s.ctx m).Sends ((s.onCtx n f).ctx m) := by
  rw [State.ctx_onCtx]
  split
  · next h => rw [h]; exact hf _
  · exact .refl _

/-- A context with one operation more that has not performed or landed. -/
def Ctx.listed (x : OutOp) (c : Ctx) : Ctx := { c with outs := c.outs ++ [x] }

theorem Ctx.listed_sends (x : OutOp) (c : Ctx) : c.Sends (c.listed x) := rfl

theorem State.launchAcc_sends (s : State) (a : Acc) (release : Bool) (m : Nat) :
    (s.ctx m).Sends ((s.launchAcc a release).ctx m) := by
  have hlisted : ∀ x, (s.ctx m).Sends ((s.onCtx a.n (Ctx.listed x)).ctx m) := fun x =>
    State.onCtx_sends (Ctx.listed_sends x) m
  unfold State.launchAcc
  split
  · split
    · exact hlisted _
    · exact .refl _
  · exact hlisted _

theorem State.performStore_sends (s : State) (n : Nat) (a : Acc) (m : Nat) :
    (s.ctx m).Sends ((s.performStore n a).ctx m) :=
  (s.onCtx_sends (n := n) (f := fun c => { c with freed := c.freed ++ [a] }) (fun _ => rfl) m).trans
    (State.launchAcc_sends _ _ _ m)

theorem State.performStores_sends (s : State) (n : Nat) (l : List Held) (m : Nat) :
    (s.ctx m).Sends ((s.performStores n l).ctx m) := by
  induction l generalizing s with
  | nil => exact .refl _
  | cons e l ih =>
    unfold State.performStores
    split
    · next a _ =>
      split
      · exact ih s
      · exact (s.performStore_sends n a m).trans (ih _)
    · exact ih s

theorem State.launchAcc_latch (s : State) (a : Acc) (release : Bool) : (s.launchAcc a release).latch = s.latch := by
  unfold State.launchAcc
  split
  · split <;> rfl
  · rfl

theorem State.performStores_latch (s : State) (n : Nat) (l : List Held) : (s.performStores n l).latch = s.latch := by
  induction l generalizing s with
  | nil => rfl
  | cons e l ih =>
    unfold State.performStores
    split
    · split
      · exact ih s
      · exact (ih _).trans (State.launchAcc_latch _ _ _)
    · exact ih s

theorem State.emptyStores_latch (s : State) (n : Nat) : (s.emptyStores n).latch = s.latch := by
  unfold State.emptyStores
  extract_lets l
  split
  · rfl
  · exact State.performStores_latch _ _ _

/-- A larder that a deferred trap does not hold back loses its stores and its dead entries, and keeps the others. -/
theorem State.emptyStores_ctx {s : State} {n : Nat} (h : (s.ctx n).larderOff = false) :
    ({ s.ctx n with larder := (s.ctx n).larder.filter (fun e => !e.isStore && !e.dead) } : Ctx).Sends
      ((s.emptyStores n).ctx n) := by
  have hs := State.performStores_sends
    (s.onCtx n (fun c => { c with larder := c.larder.filter (fun e => !e.isStore && !e.dead) })) n (s.ctx n).larder n
  rw [State.ctx_onCtx_same] at hs
  rw [State.emptyStores, h]
  exact hs

theorem State.emptyStores_ctx_other (s : State) {n m : Nat} (hm : m ≠ n) : (s.ctx m).Sends ((s.emptyStores n).ctx m) := by
  unfold State.emptyStores
  extract_lets l
  split
  · exact .refl _
  · have hs := State.performStores_sends
      (s.onCtx n (fun c => { c with larder := c.larder.filter (fun e => !e.isStore && !e.dead) })) n l m
    rwa [State.ctx_onCtx, if_neg hm] at hs

/-! ### `mark` (R104) -/

theorem State.takeMark_latch (s : State) (n addr : Nat) : (s.takeMark n addr).latch = s.latch := s.emptyStores_latch n

/-- A mark holds the registers as they stand and the address given; besides it the larder alone changes. -/
theorem State.takeMark_ctx {s : State} {n : Nat} (h : (s.ctx n).larderOff = false) (addr : Nat) :
    ∃ z, (s.takeMark n addr).ctx n = { (s.emptyStores n).ctx n with shadow := some z } ∧
      z.regs = (s.ctx n).toRegs ∧ z.addr = addr :=
  ⟨_, State.ctx_onCtx_same _ _ _, (State.emptyStores_ctx h).toRegs, rfl⟩

theorem exec_mark_takes {h : Hdr} {s : State} (o : CROp) (hp : s.Passes h) (hq : s.cur.quiet s.latch.ic = true)
    (hs : s.cur.spills = false) : exec (.mark h o) s =
      .next ((s.takeMark s.latch.n s.latch.next).onCur (fun c => { c with marking := true })) := by
  refine congrArg Host.Outcome.next ((hp.branching [] _ rfl).trans ?_)
  rw [hq, hs]
  rfl

theorem mark_snapshots {h : Hdr} {s : State} (o : CROp) (hp : s.Passes h) (hq : s.cur.quiet s.latch.ic = true)
    (hs : s.cur.spills = false) (hoff : s.cur.larderOff = false) :
    ∃ t z, exec (.mark h o) s = .next t ∧ t.cur.shadow = some z ∧
      z.regs = s.cur.toRegs ∧ z.addr = s.latch.next ∧ t.cur.toRegs = s.cur.toRegs ∧
      (∀ e ∈ t.cur.larder, e.isStore = false) ∧ ∀ e ∈ s.cur.larder, e.isStore = false → e.dead = false → e ∈ t.cur.larder := by
  have hlarder : ((s.emptyStores s.latch.n).ctx s.latch.n).larder = s.cur.larder.filter (fun e => !e.isStore && !e.dead) :=
    (State.emptyStores_ctx hoff).larder
  obtain ⟨z, hz, hregs, haddr⟩ := State.takeMark_ctx hoff s.latch.next
  have hcur : (s.takeMark s.latch.n s.latch.next).cur = { (s.emptyStores s.latch.n).ctx s.latch.n with shadow := some z } := by
    rw [State.cur, State.takeMark_latch, hz]
  refine ⟨_, z, exec_mark_takes o hp hq hs, ?_⟩
  rw [State.cur_onCur, hcur]
  refine ⟨rfl, hregs, haddr, (State.emptyStores_ctx hoff).toRegs, fun e he => ?_, fun e he hst hdead => ?_⟩
  · have hkept := (List.mem_filter.1 (hlarder ▸ he)).2
    simp only [Bool.and_eq_true, Bool.not_eq_true'] at hkept
    exact hkept.1
  · exact hlarder ▸ List.mem_filter.2 ⟨he, by simp [hst, hdead]⟩

/-! ### `halt` (R110) -/

/-- A halt whose members have no guard open and nothing but stores in their larders asks for the retirement. -/
theorem exec_halt_quits {h : Hdr} {s : State} (o : CROp) (hp : s.Passes h)
    (hm : ∀ m ∈ s.members, (s.ctx m).opens = [] ∧ (s.ctx m).spills = false ∧ (s.ctx m).larderOff = false ∧
      ∀ e ∈ (s.ctx m).larder, e.dead = true ∨ e.isStore = true) :
    exec (.halt h o) s = .next (s.onCtx s.seqN (fun c => { c with quits := true })) := by
  refine congrArg Host.Outcome.next ((hp.branching [] _ rfl).trans ?_)
  rw [if_neg, if_neg, if_neg]
  · intro hc
    obtain ⟨m, hmem, hspill⟩ := List.any_eq_true.1 hc
    obtain ⟨-, hs, -, -⟩ := hm m hmem
    exact Bool.false_ne_true (hs.symm.trans hspill)
  · intro hc
    obtain ⟨m, hmem, hl⟩ := List.any_eq_true.1 hc
    obtain ⟨-, -, hoff, hst⟩ := hm m hmem
    obtain ⟨e, he, hheld⟩ := List.any_eq_true.1 hl
    rcases hst e he with hd | hd <;> simp [hd, hoff] at hheld
  · intro hc
    obtain ⟨m, hmem, hopen⟩ := List.any_eq_true.1 hc
    obtain ⟨ho, -, -, -⟩ := hm m hmem
    simp [ho] at hopen

/-- A context that has retired: its results still due and its larder are gone. -/
def Ctx.retired (c : Ctx) : Prop := c.mode = .halted ∧ c.sa.pend = [] ∧ c.larder = []

theorem Ctx.Sends.retired {c d : Ctx} (h : c.Sends d) (hc : c.retired) : d.retired := by
  obtain ⟨hmode, hpend, hlarder⟩ := hc
  exact ⟨h.mode.trans hmode, (congrArg (fun r : Regs => r.sa.pend) h.toRegs).trans hpend, h.larder.trans hlarder⟩

/-- The retirement of one context leaves it retired, and others that have retired as they are. -/
theorem State.retireAll_cons (s : State) (n : Nat) (ns : List Nat) : ∃ t : State, s.retireAll (n :: ns) = t.retireAll ns ∧
    (t.ctx n).retired ∧ ∀ m, (s.ctx m).retired → (t.ctx m).retired := by
  obtain ⟨o, ho⟩ := State.dropPorch_ctx ((s.emptyStores n).onCtx n Ctx.retire) n [] s.uid
  have hself : ((((s.emptyStores n).onCtx n Ctx.retire).dropPorch n [] s.uid).ctx n).retired := by
    rw [ho, if_pos rfl, State.ctx_onCtx_same]
    exact ⟨rfl, rfl, rfl⟩
  refine ⟨_, rfl, hself, fun m hm => ?_⟩
  by_cases he : m = n
  · rw [he]; exact hself
  · rw [ho, if_neg he, State.ctx_onCtx, if_neg he]
    exact (s.emptyStores_ctx_other he).retired hm

theorem State.retireAll_keeps {s : State} {m : Nat} (ns : List Nat) (h : (s.ctx m).retired) : ((s.retireAll ns).ctx m).retired := by
  induction ns generalizing s with
  | nil => exact h
  | cons n ns ih =>
    obtain ⟨t, he, -, hkeeps⟩ := s.retireAll_cons n ns
    rw [he]
    exact ih (hkeeps m h)

theorem State.retireAll_retires {s : State} {m : Nat} {ns : List Nat} (h : m ∈ ns) : ((s.retireAll ns).ctx m).retired := by
  induction ns generalizing s with
  | nil => exact absurd h List.not_mem_nil
  | cons n ns ih =>
    obtain ⟨t, he, hself, -⟩ := s.retireAll_cons n ns
    rw [he]
    rcases List.mem_cons.1 h with rfl | h
    · exact State.retireAll_keeps ns hself
    · exact ih h

theorem markAndHalt : MarkAndHalt := fun _ _ o hp =>
  ⟨fun hq hs hoff => mark_snapshots o hp hq hs hoff, fun hm => exec_halt_quits o hp hm, fun _ hm => State.retireAll_retires hm⟩

/-! ### Pre-emption points (R106, R357) -/

theorem State.membersOf_alone {s : State} {n : Nat} (h : (s.ctx n).fuseW ≤ 1) : s.membersOf n = [n] := if_pos h

theorem State.isLead_alone {s : State} (h : s.cur.fuseW ≤ 1) : s.isLead = true := by
  rw [State.isLead, State.seqN, if_pos h]
  exact beq_self_eq_true _

theorem State.groupAtPoint_single (s : State) (n : Nat) :
    s.groupAtPoint [n] = ((s.ctx n).atPoint && (s.short n).isEmpty) := by
  rw [State.groupAtPoint, List.all_cons, List.all_nil, Bool.and_true]

section
variable {h : Hdr} {s : State} (o : CROp) (hp : s.Passes h) (hw : s.cur.fuseW ≤ 1)
include hp hw

/-- A `ppt` of a context by itself. -/
theorem exec_ppt_alone : exec (.ppt h o) s = .next (
    if s.cur.pend && !s.cur.carry.active && !(s.cur.atPoint && (s.short s.latch.n).isEmpty) then s.stat (.stall [])
    else s.onCur (fun c => { c with pointed := true })) := by
  refine congrArg Host.Outcome.next ((hp.branching [] _ rfl).trans ?_)
  have hg : s.groupAtPoint s.members = (s.cur.atPoint && (s.short s.latch.n).isEmpty) := by
    rw [State.members, State.membersOf_alone hw]
    exact s.groupAtPoint_single _
  rw [State.isLead_alone hw, hg]
  rfl

theorem ppt_issues (hc : s.cur.pend = false ∨ (s.cur.atPoint = true ∧ s.short s.latch.n = [])) :
    ∃ t, exec (.ppt h o) s = .next t ∧ s.Becomes t { s.cur with pointed := true } := by
  refine ⟨_, exec_ppt_alone o hp hw, ?_⟩
  rw [if_neg]
  · exact s.onCur_becomes _
  · rcases hc with hn | ⟨ha, hsh⟩
    · simp [hn]
    · simp [ha, hsh]

theorem ppt_stalls (ha : s.cur.atPoint = false) (hpend : s.cur.pend = true) (hc : s.cur.carry.active = false) :
    exec (.ppt h o) s = .next (s.stat (.stall [])) := by
  rw [exec_ppt_alone o hp hw, hpend, hc, ha]
  rfl

end

section
variable {s : State} {n : Nat} (hpt : (s.ctx n).pointed = true) (hw : (s.ctx n).fuseW ≤ 1)
include hpt hw

/-- The point of a context by itself, judged as its bundle ends. -/
theorem State.passPoint_alone : s.passPoint n =
    if (s.ctx n).atPoint && (s.short n).isEmpty then (s.onCtx n (fun c => { c with pointed := false })).onCtx n
      (fun c => { c with wdogC := 0, swOut := (s.ctx n).pend })
    else s.onCtx n (fun c => { c with pointed := false }) := by
  let s1 := s.onCtx n (fun c => { c with pointed := false })
  have h1 : s1.ctx n = { s.ctx n with pointed := false } := State.ctx_onCtx_same _ _ _
  have hm : s1.membersOf n = [n] := State.membersOf_alone (by rw [h1]; exact hw)
  have hshort : s1.short n = s.short n := rfl
  rw [State.passPoint, if_pos hpt]
  show s1.pointOf n = _
  simp only [State.pointOf, hm, State.groupAtPoint_single, hshort, State.onCtxs, h1]
  rfl

theorem State.passPoint_passes (ha : (s.ctx n).atPoint = true) (hsh : s.short n = []) :
    (s.passPoint n).ctx n = { s.ctx n with pointed := false, wdogC := 0, swOut := (s.ctx n).pend } := by
  rw [State.passPoint_alone hpt hw, if_pos (by rw [ha, hsh]; rfl), State.ctx_onCtx_same, State.ctx_onCtx_same]

theorem State.passPoint_barred (ha : (s.ctx n).atPoint = false) :
    (s.passPoint n).ctx n = { s.ctx n with pointed := false } := by
  rw [State.passPoint_alone hpt hw, if_neg (by rw [ha]; exact Bool.false_ne_true), State.ctx_onCtx_same]

theorem State.passPoint_other {m : Nat} (hm : m ≠ n) : (s.passPoint n).ctx m = s.ctx m := by
  rw [State.passPoint_alone hpt hw]
  split
  · rw [State.ctx_onCtx, if_neg hm, State.ctx_onCtx, if_neg hm]
  · rw [State.ctx_onCtx, if_neg hm]

end

theorem preemptionPoint : PreemptionPoint :=
  ⟨fun _ _ o hp hw => ⟨ppt_issues o hp hw, ppt_stalls o hp hw⟩,
    fun _ _ hpt hw => ⟨State.passPoint_passes hpt hw, State.passPoint_barred hpt hw, fun _ => State.passPoint_other hpt hw⟩⟩

/-- Settles O8: the mark and the end of a context, and its pre-emption points. -/
theorem marksAndEnds : Obligations.MarksAndEnds := ⟨markAndHalt, preemptionPoint⟩

end Sys2Proof.Machine
end

section
/-! PROOFS. Fusion (R100 to R103, R200). -/

namespace Sys2Proof.Machine

open Sys2Proof.Claims

/-- The trap of R101. -/
def State.fuseTrap (s : State) : TrapRec := s.trapRec .fuseState 0 0

/-! ### `fuse` (R100, R101) -/

/-- Fused to width `w`: the context stands under its member 0, and its array's goal is the mode of FEN (R200). -/
def State.fusedTo (s : State) (w : Nat) : State :=
  (s.setArr (arrayOf (coreOf s.latch.n)) { s.arr (arrayOf (coreOf s.latch.n)) with
    goal := (s.arr (arrayOf (coreOf s.latch.n))).fen }).onCur (fun c =>
      { c with fuseW := w, fuse0 := leadOf s.latch.n w, pass := false })

theorem State.fuse_traps {s : State} (h : s.latch.n % 2 = 1 ∨ 1 < s.cur.fuseW) (k : Cond2) (w : Nat) :
    s.fuse k w = s.branchTrap k s.fuseTrap := by
  rw [State.fuse, if_pos (by simpa using h)]
  rfl

/-- In a context A outside fusion, `fuse` goes on or waits. -/
theorem State.fuse_legal {s : State} (ha : s.latch.n % 2 = 0) (hw : s.cur.fuseW ≤ 1) (k : Cond2) (w : Nat) :
    s.fuse k w = if s.cur.pass then s.fusedTo w else s.stat (.waitAt (.fuse w)) := by
  have hno : ¬ (decide (s.latch.n % 2 = 1) || decide (1 < s.cur.fuseW)) = true := by
    simp only [Bool.or_eq_true, decide_eq_true_eq]
    omega
  rw [State.fuse, if_neg hno]
  rfl

theorem State.fusedTo_changes (s : State) (w : Nat) :
    s.fusedTo w = { s with ctxs := (s.fusedTo w).ctxs, arrays := (s.fusedTo w).arrays } ∧
      (s.fusedTo w).cur = { s.cur with fuseW := w, fuse0 := 2 * (coreOf s.latch.n - coreOf s.latch.n % w), pass := false } ∧
      (∀ m, m ≠ s.latch.n → (s.fusedTo w).ctx m = s.ctx m) ∧
      let ar := arrayOf (coreOf s.latch.n)
      (s.fusedTo w).arr ar = { s.arr ar with goal := (s.arr ar).fen } ∧ ∀ a, a ≠ ar → (s.fusedTo w).arr a = s.arr a := by
  refine ⟨rfl, State.cur_onCur _ _, fun m hm => ?_, ?_, fun a ha => ?_⟩
  · exact (State.ctx_onCur _ _ _).trans (if_neg hm)
  · exact (State.arr_setArr _ _ _ _).trans (if_pos rfl)
  · exact (State.arr_setArr _ _ _ _).trans (if_neg ha)

section
variable {h : Hdr} {s : State} (hp : s.Passes h) {w : Nat} {i : Instr}
include hp

theorem exec_fuse {o : CIOp} (hi : (i = .fuse2 h o ∧ w = 2) ∨ (i = .fuse4 h o ∧ w = 4)) :
    ∃ k, s.guard h = some k ∧ exec i s = .next (s.fuse k w) := by
  obtain ⟨k, hk⟩ := hp.1
  rcases hi with ⟨rfl, rfl⟩ | ⟨rfl, rfl⟩ <;> exact ⟨k, hk, congrArg Host.Outcome.next (hp.branchingK hk [] _ rfl)⟩

/-- R100, R101: `fuse` traps, goes on fused, or waits. -/
theorem fuse_outcomes {o : CIOp} (hi : (i = .fuse2 h o ∧ w = 2) ∨ (i = .fuse4 h o ∧ w = 4)) :
    (s.latch.n % 2 = 1 ∨ 1 < s.cur.fuseW → ∃ r : TrapRec, r.code = .fuseState ∧ s.Raises h (exec i s) r) ∧
    (s.latch.n % 2 = 0 → s.cur.fuseW ≤ 1 →
      (s.cur.pass = true → ∃ t, exec i s = .next t ∧ t = { s with ctxs := t.ctxs, arrays := t.arrays } ∧
        t.cur = { s.cur with fuseW := w, fuse0 := 2 * (coreOf s.latch.n - coreOf s.latch.n % w), pass := false } ∧
        (∀ m, m ≠ s.latch.n → t.ctx m = s.ctx m) ∧
        let ar := arrayOf (coreOf s.latch.n)
        t.arr ar = { s.arr ar with goal := (s.arr ar).fen } ∧ ∀ a, a ≠ ar → t.arr a = s.arr a) ∧
      (s.cur.pass = false → exec i s = .next (s.stat (.waitAt (.fuse w))))) := by
  obtain ⟨k, hk, he⟩ := exec_fuse hp hi
  rw [he]
  refine ⟨fun hbad => ⟨s.fuseTrap, rfl, ?_⟩, fun ha hw => ⟨fun hpass => ⟨s.fusedTo w, ?_, s.fusedTo_changes w⟩, fun hpass => ?_⟩⟩
  · rw [State.fuse_traps hbad]
    exact State.branchTrap_raises hk _
  · rw [State.fuse_legal ha hw, if_pos hpass]
  · rw [State.fuse_legal ha hw, hpass]; rfl

/-! ### `decouple` (R101, R102) -/

theorem exec_decouple_traps (o : CROp) (hw : s.cur.fuseW ≤ 1) : s.Raises h (exec (.decouple h o) s) s.fuseTrap :=
  hp.branchingK_raises rfl fun _ => if_pos hw

theorem exec_decouple_parts (o : CROp) (hw : 1 < s.cur.fuseW) :
    ∃ t, exec (.decouple h o) s = .next t ∧ (t.ctx s.cur.fuse0).parting = true ∧
      (∀ m, m ≠ s.cur.fuse0 → t.ctx m = s.ctx m) ∧ t = { s with ctxs := t.ctxs } := by
  obtain ⟨k, hk⟩ := hp.1
  have hseq : s.seqN = s.cur.fuse0 := if_neg (by omega)
  refine ⟨s.onCtx s.seqN (fun c => { c with parting := true }), ?_, ?_, fun m hm => ?_, rfl⟩
  · exact congrArg Host.Outcome.next ((hp.branchingK hk [] _ rfl).trans (if_neg (by omega)))
  · rw [hseq, State.ctx_onCtx_same]
  · rw [hseq, State.ctx_onCtx, if_neg hm]

/-! ### `rejoin` (R101, R103) -/

theorem exec_rejoin {o : CROp} (hi : (i = .rejoin2 h o ∧ w = 2) ∨ (i = .rejoin4 h o ∧ w = 4)) :
    ∃ k, s.guard h = some k ∧ exec i s = .next (s.rejoin k w) := by
  obtain ⟨k, hk⟩ := hp.1
  rcases hi with ⟨rfl, rfl⟩ | ⟨rfl, rfl⟩ <;> exact ⟨k, hk, congrArg Host.Outcome.next (hp.branchingK hk [] _ rfl)⟩

/-- R101, R103: `rejoin` traps inside fusion, goes on once let pass, and waits before. -/
theorem rejoin_outcomes {o : CROp} (hi : (i = .rejoin2 h o ∧ w = 2) ∨ (i = .rejoin4 h o ∧ w = 4)) :
    (1 < s.cur.fuseW → ∃ r : TrapRec, r.code = .fuseState ∧ s.Raises h (exec i s) r) ∧
    (s.cur.fuseW ≤ 1 →
      (s.cur.pass = true → ∃ t, exec i s = .next t ∧ s.Becomes t { s.cur with pass := false }) ∧
      (s.cur.pass = false → exec i s = .next (s.stat (.waitAt (.rejoin w))))) := by
  obtain ⟨k, hk, he⟩ := exec_rejoin hp hi
  rw [he, State.rejoin]
  refine ⟨fun hw => ⟨s.fuseTrap, rfl, ?_⟩, fun hw => ?_⟩
  · rw [if_pos hw]
    exact State.branchTrap_raises hk _
  · rw [if_neg (by omega)]
    refine ⟨fun hpass => ⟨_, rfl, ?_⟩, fun hpass => ?_⟩
    · rw [if_pos hpass]
      exact s.onCur_becomes _
    · rw [if_neg (by rw [hpass]; exact Bool.false_ne_true)]

end

/-- Settles O9: `fuse`, `decouple` and `rejoin`, each with its trap, its wait and its way on. -/
theorem fusion : Obligations.Fusion := fun _ _ hp =>
  ⟨fun _ _ _ hi => fuse_outcomes hp hi,
    fun o => ⟨fun hw => ⟨_, rfl, exec_decouple_traps hp o hw⟩, exec_decouple_parts hp o⟩,
    fun _ _ _ hi => rejoin_outcomes hp hi⟩

end Sys2Proof.Machine
end

section
/-! PROOFS. The instruction cache (R107 to R109): locks, unlocks and prefetches. -/

namespace Sys2Proof.Machine

open Sys2Proof.Claims

/-! ### What `ilock` delivers (R107) -/

/-- The end of an `ilock`: the count of bytes, and the status guard where the operation names one. -/
def State.ilockAnswer (s : State) (h : Hdr) (o : CROp) (v : SVal) (all : Bool) : State :=
  if h.ext then (s.deliverS {} o.d.toNat 2 [([], v)]).deliverG (o.imm32.toNat % 16) 2 all
  else s.deliverS {} o.d.toNat 2 [([], v)]

theorem State.deliverG_becomes (s : State) {r : Nat} (hr : r ≠ 0) (lat : Nat) (b : Bool) : s.Becomes (s.deliverG r lat b)
    { s.cur with gpend := laterIns ⟨r, s.latch.ic + lat, .res b, s.readyAt lat⟩ s.cur.gpend } := by
  rw [State.deliverG, if_neg hr]
  exact s.onCur_becomes _

theorem State.ilockAnswer_becomes (s : State) (h : Hdr) (o : CROp) (v : SVal) (all : Bool) :
    s.Becomes (s.ilockAnswer h o v all) { given s o.d.toNat 2 v with
      gpend := if h.ext = true ∧ o.imm32.toNat % 16 ≠ 0
        then laterIns ⟨o.imm32.toNat % 16, s.latch.ic + 2, .res all, s.readyAt 2⟩ s.cur.gpend else s.cur.gpend } := by
  have hb := s.deliverS_becomes o.d.toNat 2 v
  have hready : (s.deliverS {} o.d.toNat 2 [([], v)]).readyAt 2 = s.readyAt 2 := by
    rw [State.readyAt, State.readyAt, hb.latch, hb.core]
  unfold State.ilockAnswer
  by_cases hx : h.ext = true
  · rw [if_pos hx]
    by_cases hr : o.imm32.toNat % 16 = 0
    · rw [State.deliverG, if_pos hr, if_neg (fun hc => hc.2 hr)]
      exact hb
    · have hg := State.deliverG_becomes (s.deliverS {} o.d.toNat 2 [([], v)]) hr 2 all
      rw [hb.cur, hb.latch, hready] at hg
      rw [if_pos ⟨hx, hr⟩]
      exact hb.trans hg
  · rw [if_neg hx, if_neg (fun hc => hx hc.1)]
    exact hb

theorem manyAlts_pair (x y : SVal) : manyAlts [[([], x)], [([], y)]] = none := rfl

/-- A value made of clean ones is clean. -/
theorem val_of_clean (v a b : Word) :
    (⟨v, (clean a : SVal).p ||| (clean b : SVal).p, orF (clean a : SVal).f (clean b : SVal).f⟩ : SVal) = clean v := by simp [clean, orF]

/-- `ilock` of a range that is known: its lines are locked as far as they can be, and their bytes counted. -/
theorem exec_ilock {h : Hdr} {s : State} {o : CROp} {a b : Word} (hs : s.Settled h) (ha : s.SIs o.a.toNat (clean a))
    (hb : s.SIs o.b.toNat (clean b)) : exec (.ilock h o) s =
      let z := s.lockGo s.latch.n (linesOf a.toNat (min b.toNat (2 ^ 48)))
      .next (z.1.ilockAnswer h o (clean (BitVec.ofNat 64 (bytesIn a.toNat b.toNat z.2.2))) z.2.1) := by
  refine congrArg Host.Outcome.next ?_
  rw [ha, hb]
  refine (hs.waiting _ _ (manyAlts_pair _ _)).trans ?_
  dsimp only [one]
  rw [val_of_clean]
  rfl

theorem ilock_nothing {h : Hdr} {s : State} {o : CROp} {a b : Word} (hs : s.Settled h) (ha : s.SIs o.a.toNat (clean a))
    (hb : s.SIs o.b.toNat (clean b)) (hz : b = 0) :
    ∃ t, exec (.ilock h o) s = .next t ∧ s.Becomes t { given s o.d.toNat 2 (clean 0) with
      gpend := if h.ext = true ∧ o.imm32.toNat % 16 ≠ 0
        then laterIns ⟨o.imm32.toNat % 16, s.latch.ic + 2, .res true, s.readyAt 2⟩ s.cur.gpend else s.cur.gpend } := by
  subst hz
  exact ⟨_, exec_ilock hs ha hb, s.ilockAnswer_becomes h o (clean 0) true⟩

/-! ### One line locked -/

/-- The lines of bytes within one line. -/
theorem linesOf_one {a n : Nat} (hn : 0 < n) (h : a % 64 + n ≤ 64) : linesOf a n = [a - a % 64] := by
  have hone : (a + n - 1) / 64 - a / 64 + 1 = 1 := by omega
  rw [linesOf, if_neg (by omega), hone]
  simp [upTo]

theorem bytesIn_one {a n : Nat} (h : a % 64 + n ≤ 64) : bytesIn a n [a - a % 64] = n := by
  simp only [bytesIn, List.map_cons, List.map_nil, List.foldl_cons, List.foldl_nil]
  omega

/-- A core with a lock among its locks. -/
def Core.locking (l : Nat × Nat) (d : Core) : Core := if d.locks.contains l then d else { d with locks := d.locks ++ [l] }

theorem Core.mem_locking (l : Nat × Nat) (d : Core) : l ∈ (d.locking l).locks := by
  unfold Core.locking
  split
  · next h => exact List.contains_iff_mem.1 h
  · exact List.mem_append_right _ (List.mem_singleton.2 rfl)

theorem Core.locking_act (l : Nat × Nat) (d : Core) : (d.locking l).act = d.act := by
  unfold Core.locking
  split <;> rfl

/-- The line at `va` brought in and locked by context `n`. -/
def State.lockLine (s : State) (n va : Nat) : State :=
  (s.fillLine n va).onCore (coreOf n) (Core.locking (n, lineKey (s.ctx n).asid va))

theorem State.lockGo_one {s : State} {n va : Nat} (hf : (s.fetchHome n va).isSome = true)
    (hroom : (s.core (coreOf n)).lockedLines < 2048) : s.lockGo n [va] = (s.lockLine n va, true, [va]) := by
  have hfetch : ¬ (s.fetchHome n va).isNone = true := by
    rw [Option.isNone_iff_eq_none]; intro hn; rw [hn] at hf; cases hf
  have hfull : ¬ (!(s.core (coreOf n)).locks.any (fun x => x.2 == lineKey (s.ctx n).asid va) &&
      decide (2048 ≤ (s.core (coreOf n)).lockedLines)) = true := by
    rw [decide_eq_false (by omega), Bool.and_false]; exact Bool.false_ne_true
  simp only [State.lockGo, if_neg hfetch, if_neg hfull]
  rfl

/-- A lock changes caches and locks of its core alone. -/
theorem State.lockLine_keeps (s : State) (n va : Nat) :
    let t := s.lockLine n va
    t.mem = s.mem ∧ t.latch = s.latch ∧ t.uid = s.uid ∧ t.cur = s.cur ∧ (∀ lat, t.readyAt lat = s.readyAt lat) ∧
      (n, lineKey (s.ctx n).asid va) ∈ (t.core (coreOf n)).locks := by
  have ho := s.fillLine_cachesOnly n va
  have hact : ∀ k, ((s.lockLine n va).core k).act = (s.core k).act := fun k => by
    rw [State.lockLine, State.core_onCore]
    split
    · next hk => rw [Core.locking_act, ho.act, hk]
    · exact ho.act k
  refine ⟨ho.mem, ho.latch, ho.uid, ho.cur, fun lat => ?_, ?_⟩
  · rw [State.readyAt, hact, show (s.lockLine n va).latch = s.latch from ho.latch]
    rfl
  · rw [State.lockLine, State.core_onCore_same]
    exact Core.mem_locking _ _

theorem ilock_line {h : Hdr} {s : State} {o : CROp} {a b : Word} (hs : s.Settled h) (ha : s.SIs o.a.toNat (clean a))
    (hb : s.SIs o.b.toNat (clean b)) (hpos : 0 < b.toNat) (hline : a.toNat % 64 + b.toNat ≤ 64)
    (hf : (s.fetchHome s.latch.n (a.toNat - a.toNat % 64)).isSome = true)
    (hroom : (s.core (coreOf s.latch.n)).lockedLines < 2048) :
    ∃ t, exec (.ilock h o) s = .next t ∧ t.mem = s.mem ∧
      (s.latch.n, lineKey s.cur.asid (a.toNat - a.toNat % 64)) ∈ (t.core (coreOf s.latch.n)).locks ∧
      t.cur.sa = (given s o.d.toNat 2 (clean b)).sa := by
  obtain ⟨hmem, hlatch, huid, hcur, hready, hlock⟩ := s.lockLine_keeps s.latch.n (a.toNat - a.toNat % 64)
  have hexec := exec_ilock hs ha hb
  rw [Nat.min_eq_left (by omega), linesOf_one hpos hline, State.lockGo_one hf hroom] at hexec
  dsimp only at hexec
  rw [bytesIn_one hline, BitVec.ofNat_toNat, BitVec.setWidth_eq] at hexec
  have hans := State.ilockAnswer_becomes (s.lockLine s.latch.n (a.toNat - a.toNat % 64)) h o (clean b) true
  refine ⟨_, hexec, ?_, ?_, ?_⟩
  · rw [hans.1]; exact hmem
  · rw [hans.core]; exact hlock
  · rw [hans.cur]
    simp only [given, State.result, hlatch, huid, hcur, hready]

/-! ### `iunlock` and `pfn` (R108, R109) -/

/-- A core without the locks of a context on the lines of an address space that meet `len` bytes at `lo`. -/
def Core.unlocking (n : Nat) (asid : BitVec 16) (lo len : Nat) (d : Core) : Core :=
  { d with locks := d.locks.filter (fun l =>
      !(l.1 == n && l.2 / 2 ^ 48 == asid.toNat && decide (len ≠ 0 ∧ l.2 % 2 ^ 48 < lo + len ∧ lo < l.2 % 2 ^ 48 + 64))) }

theorem Core.mem_unlocking {n : Nat} {asid : BitVec 16} {lo len : Nat} {d : Core} {l : Nat × Nat} :
    l ∈ (d.unlocking n asid lo len).locks ↔ l ∈ d.locks ∧ ¬ (l.1 = n ∧ l.2 / 2 ^ 48 = asid.toNat ∧ len ≠ 0 ∧
      l.2 % 2 ^ 48 < lo + len ∧ lo < l.2 % 2 ^ 48 + 64) := by
  refine List.mem_filter.trans (and_congr_right fun _ => ?_)
  simp only [Bool.not_eq_true', ← Bool.not_eq_true, Bool.and_eq_true, beq_iff_eq, decide_eq_true_eq, and_assoc]

theorem exec_iunlock {h : Hdr} {s : State} {o : CROp} {a b : Word} (hs : s.Settled h) (ha : s.SIs o.a.toNat (clean a))
    (hb : s.SIs o.b.toNat (clean b)) : exec (.iunlock h o) s =
      .next (s.onCore (coreOf s.latch.n) (Core.unlocking s.latch.n s.cur.asid a.toNat b.toNat)) := by
  refine congrArg Host.Outcome.next ?_
  rw [ha, hb]
  exact hs.waiting _ _ (manyAlts_pair _ _)

theorem iunlock_removes {h : Hdr} {s : State} {o : CROp} {a b : Word} (hs : s.Settled h) (ha : s.SIs o.a.toNat (clean a))
    (hb : s.SIs o.b.toNat (clean b)) :
    ∃ t, exec (.iunlock h o) s = .next t ∧ (∀ m, t.ctx m = s.ctx m) ∧ t.mem = s.mem ∧
      ∀ l, l ∈ (t.core (coreOf s.latch.n)).locks ↔ l ∈ (s.core (coreOf s.latch.n)).locks ∧
        ¬ (l.1 = s.latch.n ∧ l.2 / 2 ^ 48 = s.cur.asid.toNat ∧ b ≠ 0 ∧ l.2 % 2 ^ 48 < a.toNat + b.toNat ∧
          a.toNat < l.2 % 2 ^ 48 + 64) := by
  refine ⟨_, exec_iunlock hs ha hb, fun _ => rfl, rfl, fun l => ?_⟩
  rw [State.core_onCore_same, Core.mem_unlocking, Ne, toNat_eq_zero_iff]

/-- A prefetch fills the two lines at its target. -/
theorem pfn_fills {h : Hdr} {s : State} (hf : s.Fires h) (o : CBOp) : ∃ t, exec (.pfn h o) s = .next t ∧ s.CachesOnly t :=
  ⟨_, congrArg Host.Outcome.next (hf.guarded _), (s.fillLine_cachesOnly _ _).trans (State.fillLine_cachesOnly _ _ _)⟩

/-- Settles O11: `ilock` of no bytes and of bytes within one line, `iunlock` and `pfn`. -/
theorem instructionCache : Obligations.InstructionCache := fun _ _ =>
  ⟨fun _ _ _ hs ha hb => ⟨ilock_nothing hs ha hb, ilock_line hs ha hb, iunlock_removes hs ha hb⟩, fun o hf => pfn_fills hf o⟩

end Sys2Proof.Machine
end

section
/-! PROOFS. Kernels that stop, and contexts that return to their mark (R105, R294, R348, R354, R357). -/

namespace Sys2Proof.Machine

open Sys2Proof.Claims

/-! ### What a kill leaves of the module (R348) -/

theorem find?_mput {α : Type} (m : TMap α) (k : Nat) (v : α) : (mput m k v).find? (fun e => e.1 == k) = some (k, v) := by
  induction m with
  | nil => simp [mput]
  | cons x m ih =>
    obtain ⟨j, w⟩ := x
    rw [mput]
    split
    · simp
    · split
      · simp
      · next hne => rw [List.find?_cons_of_neg (by simpa using Ne.symm hne), ih]

theorem State.onCtxs_mod (s : State) (f : Ctx → Ctx) (ns : List Nat) : (s.onCtxs f ns).mod = s.mod := by
  induction ns generalizing s with
  | nil => rfl
  | cons n ns ih => exact ih _

theorem State.stopAll_mod (s : State) (ns : List Nat) : (s.stopAll ns).mod = s.mod := by
  induction ns generalizing s with
  | nil => rfl
  | cons n ns ih => exact ih _

theorem State.stopAt_mod (s : State) (ns : List Nat) : (s.stopAt ns).mod = s.mod :=
  (State.stopAll_mod _ _).trans (s.onCtxs_mod _ _)

/-- A kernel that has not been killed yet keeps the outcome and the frame of its kill. -/
theorem State.killKernel_records {s : State} {k : Nat} {e : Nat × Kernel}
    (he : s.mod.kernels.find? (fun e => e.1 == k) = some e) (hd : e.2.dying = none) (out : Nat) (f : List Byte) :
    (s.killKernel k out f).mod.kernels.find? (fun e => e.1 == k) = some (k, { e.2 with dying := some out, frame := f }) := by
  have hmod : ((s.dropCommands (s.ctxsOf k)).stopAt (s.ctxsOf k)).mod = s.mod := State.stopAt_mod _ _
  simp only [State.killKernel, hmod, he, hd, find?_mput]
  rfl

/-! ### A fatal trap (R348) -/

theorem State.traceRec_keeps (s : State) (k n ty : Nat) (body : List Byte) :
    (s.traceRec k n ty body).ctxs = s.ctxs ∧ (s.traceRec k n ty body).mod = s.mod := by
  unfold State.traceRec
  extract_lets w units tail pad padded
  have hpad : padded.ctxs = s.ctxs ∧ padded.mod = s.mod := by
    unfold padded
    split <;> exact ⟨rfl, rfl⟩
  split
  · exact ⟨rfl, rfl⟩
  · split
    · exact ⟨rfl, rfl⟩
    · exact hpad

theorem State.traceTrap_keeps (s : State) (n : Nat) (t : TrapRec) (f : List Byte) :
    (s.traceTrap n t f).ctxs = s.ctxs ∧ (s.traceTrap n t f).mod = s.mod := by
  unfold State.traceTrap
  split
  · exact s.traceRec_keeps _ _ _ _
  · exact ⟨rfl, rfl⟩

/-- Which contexts a kernel has, and where they stand, is read from the contexts alone. -/
theorem stopped_congr {s t u : State} {k : Nat} (h : t.ctxs = s.ctxs) (hs : stopped t u k) : stopped s u k := by
  have hctx : t.ctx = s.ctx := by funext m; rw [State.ctx, h]; rfl
  have hof : t.ctxsOf k = s.ctxsOf k := by rw [State.ctxsOf, h]; rfl
  have hmid : t.midRep = s.midRep := by
    funext m; rw [State.midRep, State.midRep, State.leadC, State.leadC, State.leadN, State.leadN, hctx]
  intro m hm
  rw [← hmid]
  exact hs m (hof ▸ hm)

theorem State.fatal_stopped (s : State) (n : Nat) (t : TrapRec) : stopped s (s.fatal n t) (s.ctx n).kernel :=
  stopped_congr (s.traceTrap_keeps n t _).1 (State.killKernel_stopped _ _ _ _)

theorem State.fatal_records {s : State} {n : Nat} {t : TrapRec} {e : Nat × Kernel}
    (he : s.mod.kernels.find? (fun e => e.1 == (s.ctx n).kernel) = some e) (hd : e.2.dying = none) :
    (s.fatal n t).mod.kernels.find? (fun e => e.1 == (s.ctx n).kernel) = some ((s.ctx n).kernel,
      { e.2 with dying := some 1, frame := s.frame n t (t.code.handled && !t.forceFatal && (s.ctx n).inh) }) :=
  State.killKernel_records (by rw [(s.traceTrap_keeps n t _).2]; exact he) hd 1 _

/-- With no handled trap waiting, the trap reported as fatal is the one that ends the kernel. -/
theorem State.firstFatal_reported {s : State} {n : Nat} {t : TrapRec} (hf : (s.ctx n).fatalP = some t)
    (hp : (s.ctx n).trapP = none) (hq : (s.ctx n).trapQ = []) : s.firstFatal n = some t := by
  simp [State.firstFatal, hf, hp, hq]

theorem exec_fatalTrap_dies {s : State} (hd : (s.ctx s.ev.n).dies = true) : ∃ u, exec .fatalTrap s = .next u ∧
    (u.ctx s.ev.n).mode = .halted ∧ (u.ctx s.ev.n).larder = [] ∧ othersStay s u s.ev.n := by
  obtain ⟨hmode, hlarder⟩ := State.stopAll_stands (s := s.dropCommands [s.ev.n]) (List.mem_singleton.2 (rfl : s.ev.n = s.ev.n))
  refine ⟨_, congrArg Host.Outcome.next (if_pos hd), hmode, hlarder, fun m hm => ?_⟩
  exact State.stopAll_ctx_other (by simpa using hm)

theorem exec_fatalTrap_ends {s : State} {t : TrapRec} (hd : (s.ctx s.ev.n).dies = false) (hf : s.firstFatal s.ev.n = some t) :
    exec .fatalTrap s = .next (s.fatal s.ev.n t) := by
  refine congrArg Host.Outcome.next ?_
  rw [if_neg (by rw [hd]; exact Bool.false_ne_true), hf]

/-! ### Faults of a context (R105, R294, R354) -/

theorem State.coreFault_fatal {s : State} {n : Nat} {t : TrapRec} (hf : (s.ctx n).faultP = some t)
    (hs : (s.ctx n).shadow = none) (kind : Nat) : s.coreFault n kind = s.fatal n { t with code := .noMark } := by
  rw [State.coreFault, hf]
  exact if_neg (by rw [Ctx.keepsMarks, hs]; exact Bool.false_ne_true)

theorem exec_markChain_fatal {s : State} {m : Nat} {t : TrapRec} (hw : s.ev.who = .core m) (hf : (s.ctx m).faultP = some t)
    (hs : (s.ctx m).shadow = none) : ∃ u, exec .markChain s = .next u ∧ stopped s u (s.ctx m).kernel := by
  refine ⟨s.fatal m { t with code := .noMark }, ?_, s.fatal_stopped m _⟩
  rw [← State.coreFault_fatal hf hs 0x31]
  show execMarkChain s = _
  rw [execMarkChain, hw]

/-- A context returned to its mark stands as the mark has it, with an empty larder. -/
theorem State.rollback_ctx {s : State} {n : Nat} {z : Shadow} (hz : (s.ctx n).shadow = some z) :
    ((s.rollback n).ctx n).toRegs = z.regs ∧ ((s.rollback n).ctx n).pc = z.addr ∧ ((s.rollback n).ctx n).larder = [] ∧
      ((s.rollback n).ctx n).cloop = z.cloop := by
  unfold State.rollback
  rw [hz]
  dsimp only
  rw [State.ctx_onCore, State.ctx_onCtx_same]
  exact ⟨rfl, rfl, rfl, rfl⟩

theorem State.rollback_other (s : State) {n m : Nat} (hm : m ≠ n) : (s.rollback n).ctx m = s.ctx m := by
  unfold State.rollback
  split
  · rfl
  · dsimp only
    rw [State.ctx_onCore, State.ctx_onCtx, if_neg hm, State.dropPorch_other _ hm]

theorem State.rollback_mod (s : State) (n : Nat) : (s.rollback n).mod = s.mod := by
  unfold State.rollback
  split <;> rfl

/-- A context by itself rolls back alone, where its mark stands in no carry loop. -/
theorem State.rollGroup_alone {s : State} {n : Nat} {z : Shadow} (hw : (s.ctx n).fuseW ≤ 1)
    (hz : (s.ctx n).shadow = some z) (hon : z.cloop.on = false) : s.rollGroup n = s.rollback n := by
  obtain ⟨-, -, -, hcloop⟩ := State.rollback_ctx hz
  have hlead : s.leadN n = n := if_pos hw
  have hon' : ¬ ((s.rollback n).ctx n).cloop.on = true := by rw [hcloop, hon]; exact Bool.false_ne_true
  simp only [State.rollGroup, State.membersOf_alone hw, hlead, State.rollAll, if_neg hon']

/-- A fault of a context with a mark returns it to the mark, and it waits for its fault (R354, R105). -/
theorem exec_pageFault_returns {s : State} {t : TrapRec} {z : Shadow} (hf : (s.ctx s.ev.n).faultP = some t)
    (hz : (s.ctx s.ev.n).shadow = some z) (hon : z.cloop.on = false) (ha : alone s s.ev.n) :
    ∃ u f, exec .pageFault s = .next u ∧ (u.ctx s.ev.n).toRegs = z.regs ∧ (u.ctx s.ev.n).pc = z.addr ∧
      (u.ctx s.ev.n).larder = [] ∧ (u.ctx s.ev.n).hold = .data f ∧ u.faultOpen f = true ∧
      (u.ctx s.ev.n).faultP = none ∧ othersStay s u s.ev.n := by
  let p := Post.mk s.uid (fbWord 0x30 (s.ctx s.ev.n).asid s.ev.n 0 0 t.wr) (BitVec.ofNat 64 t.info0.toNat)
    (BitVec.ofNat 64 t.ba) (BitVec.ofNat 64 0)
  let s1 := { s with uid := s.uid + 1 }.post p
  obtain ⟨hopen, hctx⟩ := State.post_opens { s with uid := s.uid + 1 } p
  have hctx1 : s1.ctx s.ev.n = s.ctx s.ev.n := hctx s.ev.n
  have hroll : s1.rollGroup s.ev.n = s1.rollback s.ev.n :=
    State.rollGroup_alone (by rw [hctx1]; exact ha.1) (by rw [hctx1]; exact hz) hon
  obtain ⟨hregs, hpc, hlarder, -⟩ := State.rollback_ctx (s := s1) (n := s.ev.n) (by rw [hctx1]; exact hz)
  refine ⟨(s1.rollback s.ev.n).onCtx s.ev.n (fun c => { c with hold := .data s.uid, faultP := none }), s.uid, ?_, ?_⟩
  · refine congrArg Host.Outcome.next ?_
    rw [← hroll, State.coreFault, hf]
    exact if_pos (by rw [Ctx.keepsMarks, hz]; rfl)
  · rw [State.ctx_onCtx_same]
    refine ⟨hregs, hpc, hlarder, rfl, ?_, rfl, fun m hm => ?_⟩
    · rw [State.faultOpen, State.onCtx_mod, State.rollback_mod]
      exact hopen
    · rw [State.ctx_onCtx, if_neg hm, s1.rollback_other hm]
      exact hctx m

/-- Settles O42: fatal traps, the watchdog and faults without a mark by `State.fatal_stopped`; a fault with a mark by the rollback. -/
theorem kernelStops : Obligations.KernelStops := fun s t =>
  ⟨State.firstFatal_reported, exec_fatalTrap_dies,
    fun hd hf => ⟨_, exec_fatalTrap_ends hd hf, s.fatal_stopped _ t, fun _ he hdying => State.fatal_records he hdying⟩,
    ⟨_, rfl, s.fatal_stopped _ _⟩,
    fun hf hs => ⟨_, congrArg Host.Outcome.next (State.coreFault_fatal hf hs 0x30), s.fatal_stopped _ _⟩,
    fun _ hw hf hs => exec_markChain_fatal hw hf hs, fun _ hf hz hon ha => exec_pageFault_returns hf hz hon ha⟩

end Sys2Proof.Machine
end

section
/-! PROOFS. Guard operations on known sources (R114, R115), and the operations that wait for guards and collapse them (R122, R124). -/

namespace Sys2Proof.Machine

/-! ### A guard written known (R115) -/

/-- Whatever the guard, an operation that it lets pass runs under the open acceptance literal of its member (R310). -/
theorem Ctx.carryTag_prefix_held {c : Ctx} {h : Hdr} {t : Nat} {k : Cond2} (hk : c.guard h t = some k) :
    c.carryTag <+: k.held := by
  unfold Ctx.guard at hk
  cases hg : c.gAt h.g.toNat t with
  | res b =>
    simp only [hg, Option.ite_none_right_eq_some, Option.some.injEq] at hk
    obtain ⟨-, rfl⟩ := hk
    exact List.prefix_rfl
  | opn id =>
    simp only [hg] at hk
    split at hk
    · simp only [Option.ite_none_right_eq_some, Option.some.injEq] at hk
      obtain ⟨-, rfl⟩ := hk
      exact List.prefix_append _ _
    · obtain rfl := Option.some.inj hk
      exact List.prefix_append _ _

theorem State.Fires.carryTag {s : State} {h : Hdr} (hf : s.Fires h) : s.cur.carryTag = [] :=
  List.prefix_nil.1 (Ctx.carryTag_prefix_held hf)

theorem Ctx.gSrc_res {c : Ctx} {r t : Nat} {b : Bool} (hg : c.gAt r t = .res b) (neg : Bool) :
    c.gSrc r neg t = [([], b != neg)] := by
  rw [Ctx.gSrc, hg]

section
variable {s : State} {h : Hdr} {gd : Nat} {old : Bool} (hf : s.Fires h) (hg : s.cur.gAt gd s.latch.ic = .res old)
include hf hg

/-- A single case of known value writes a resolved guard known. -/
theorem State.guardWrite_known {l : GLeaf} {b : Bool} (hl : l.val = some b) (hint : Nat) :
    s.guardWrite gd hint [] [([], l)] =
      s.onCur (fun c => { c with gpend := laterIns ⟨gd, s.latch.ic + 2, .res b, s.readyAt 2⟩ c.gpend }) := by
  simp [State.guardWrite, hg, hf.carryTag, underCases, allKnown, hl]

theorem State.guardWrite_writes {l : GLeaf} {b : Bool} (hl : l.val = some b) (hint : Nat) :
    s.WritesG (s.guardWrite gd hint [] [([], l)]) gd b := by
  rw [State.guardWrite_known hf hg hl]
  exact s.onCur_becomes _

end

/-! ### The guard operations (R114) -/

theorem condOf_eval (sub : BitVec 2) (x y : Word) : (condOf sub).eval x y =
    (if sub = 0 then x = y else if sub = 1 then x ≠ y else if sub = 2 then x.toInt < y.toInt else x < y : Bool) := by
  obtain rfl | rfl | rfl | rfl : sub = 0 ∨ sub = 1 ∨ sub = 2 ∨ sub = 3 := by bv_omega
  · rfl
  · exact (decide_not).symm
  · rfl
  · rfl

theorem condOfLe_eval (sub : BitVec 2) (x y : Word) : (condOfLe sub).eval x y =
    (if sub = 0 then x.toInt ≤ y.toInt else x ≤ y : Bool) := by
  by_cases hs : sub = 0
  · rw [if_pos hs, hs]; rfl
  · rw [if_neg hs, condOfLe, if_neg (by simpa using hs)]; rfl

theorem Alt.src_clean (x : Word) (g : Nat) : ({ val := clean x, gen := g } : Alt 64 1).src = .known x := rfl

theorem State.gcmpTrap_clean (s : State) (x : Word) (g : Nat) : s.gcmpTrap { val := clean x, gen := g } = none :=
  s.useTrap_clean x 0 3 false

section
variable {s : State} {h : Hdr} {o : TOp} {old : Bool} (hf : s.Fires h) (hg : s.cur.gAt o.gd s.latch.ic = .res old)
include hf hg

/-- Two clean values whose data is there: `gcmp` raises and watches for nothing, and writes its guard known. -/
theorem State.gcmp_writes (hgo : s.latch.stat = .go) {x y : Word} (hx : s.GcmpReads o.a.toNat x)
    (hy : s.GcmpReads o.b.toNat y) (cd : Cond) : s.WritesG (s.gcmp h o cd) o.gd (cd.eval x y) := by
  let s1 := s.guardWrite o.gd o.hn [] [([], .cmp cd (.known x) (.known y))]
  have hw : s.WritesG s1 o.gd (cd.eval x y) := State.guardWrite_writes hf hg rfl o.hn
  have hwatch : s.WritesG (s1.onCur (fun c => { c with gwatch := c.gwatch ++ [] })) o.gd (cd.eval x y) := by
    have hb := hw.trans (s1.onCur_becomes (fun c => { c with gwatch := c.gwatch ++ [] }))
    rwa [List.append_nil, hw.cur] at hb
  have hgo1 : s1.latch.stat = .go := by rw [hw.latch, hgo]
  have hgcmp : s.gcmp h o cd =
      if s1.latch.stat = .go then s1.onCur (fun c => { c with gwatch := c.gwatch ++ [] }) else s1 := by
    obtain ⟨i, hx⟩ := hx
    obtain ⟨j, hy⟩ := hy
    rw [State.gcmp, hf.guarded, hx, hy]
    simp [s.gcmpTrap_clean, Alt.src_clean, tagPair_one, State.withRoom, State.raiseAll, s1]
  rwa [hgcmp, if_pos hgo1]

theorem State.gbin_writes {a b : Bool} (ha : s.cur.gAt (o.a.toNat % 16) s.latch.ic = .res a)
    (hb : s.cur.gAt (o.b.toNat % 16) s.latch.ic = .res b) (f : Bool → Bool → Bool) :
    s.WritesG (s.gbin h o f) o.gd (f (a != o.a.getLsbD 4) (b != o.b.getLsbD 4)) := by
  rw [State.gbin, hf.guarded]
  simp only [Ctx.gSrc_res ha, Ctx.gSrc_res hb, tagPair_one]
  exact State.guardWrite_writes hf hg rfl o.hn

theorem exec_gnot_writes {a : Bool} (ha : s.cur.gAt (o.a.toNat % 16) s.latch.ic = .res a) :
    ∃ t, exec (.gnot h o) s = .next t ∧ s.WritesG t o.gd !(a != o.a.getLsbD 4) := by
  refine ⟨_, rfl, ?_⟩
  rw [hf.guarded, Ctx.gSrc_res ha]
  exact State.guardWrite_writes hf hg rfl o.hn

end

/-- Settles O4: each operation writes its guard from one case of known value. -/
theorem guardResults : Obligations.GuardResults := fun _ o _ _ hf hgo hg =>
  ⟨fun x y hx hy => ⟨⟨_, rfl, condOf_eval o.sub x y ▸ State.gcmp_writes hf hg hgo hx hy (condOf o.sub)⟩,
      ⟨_, rfl, condOfLe_eval o.sub x y ▸ State.gcmp_writes hf hg hgo hx hy (condOfLe o.sub)⟩⟩,
    fun _ _ ha hb => ⟨⟨_, rfl, State.gbin_writes hf hg ha hb and⟩, ⟨_, rfl, State.gbin_writes hf hg ha hb or⟩⟩,
    fun _ ha => exec_gnot_writes hf hg ha⟩

/-! ### Waits for guards, and their collapse (R122, R124) -/

theorem Ctx.isOpen_res {c : Ctx} {r t : Nat} {b : Bool} (hg : c.gAt r t = .res b) : c.isOpen r t = false := by
  rw [Ctx.isOpen, hg]

theorem Ctx.isOpen_opn {c : Ctx} {r t id : Nat} (hg : c.gAt r t = .opn id) : c.isOpen r t = true := by
  rw [Ctx.isOpen, hg]

theorem State.gres_res {s : State} {r : Nat} {b : Bool} (hg : s.cur.gAt r s.latch.ic = .res b) : s.gres r = s := by
  rw [State.gres, Ctx.isOpen_res hg, if_neg Bool.false_ne_true]

theorem State.gres_opn {s : State} {r id : Nat} (hg : s.cur.gAt r s.latch.ic = .opn id) : s.gres r = s.stat (.stall []) := by
  rw [State.gres, Ctx.isOpen_opn hg, if_pos rfl]

theorem State.gcol_res {s : State} {r : Nat} {b : Bool} (hg : s.cur.gAt r s.latch.ic = .res b) (sense : Option Bool) :
    s.gcol r sense = s := by
  rw [State.gcol, State.gres_res hg, hg, ite_self]

/-- In a context that keeps marks, an open guard without a prediction collapses to the sense named, or to its hint. -/
theorem State.gcol_collapses {s : State} {r id : Nat} {g : OpenG} (hg : s.cur.gAt r s.latch.ic = .opn id)
    (ho : s.cur.open? id = some g) (hm : s.cur.keepsMarks = true) (hp : g.pred = none) (sense : Option Bool) :
    s.Becomes (s.gcol r sense) (s.cur.collapse id (sense.getD (s.cur.hinted g))) := by
  have he : s.gcol r sense = s.onCur (fun c => c.collapse id (sense.getD (c.hinted g))) := by
    simp [State.gcol, hm, hg, ho, hp]
  rw [he]
  exact s.onCur_becomes _

section
variable {h : Hdr} {s : State} (hp : s.Passes h) (o : CROp)
include hp

theorem exec_gres : exec (.gres h o) s = .next (s.gres (o.a.toNat % 16)) :=
  congrArg Host.Outcome.next (hp.branching [] _ rfl)

theorem exec_gresAll : exec (.gresAll h o) s =
    .next (if (upTo 1 15).any (fun r => s.cur.isOpen r s.latch.ic) then s.stat (.stall []) else s) :=
  congrArg Host.Outcome.next (hp.branching [] _ rfl)

theorem exec_gcol {i : Instr} {sense : Option Bool} (hi : (i = .gcol h o ∧ sense = none) ∨
    (i = .gcolT h o ∧ sense = some true) ∨ (i = .gcolF h o ∧ sense = some false)) :
    exec i s = .next (s.gcol (o.a.toNat % 16) sense) := by
  rcases hi with ⟨rfl, rfl⟩ | ⟨rfl, rfl⟩ | ⟨rfl, rfl⟩ <;> exact congrArg Host.Outcome.next (hp.branching [] _ rfl)

theorem gresAll_passes (hr : ∀ q, 1 ≤ q → q ≤ 15 → ∃ b, s.cur.gAt q s.latch.ic = .res b) :
    exec (.gresAll h o) s = .next s := by
  rw [exec_gresAll hp, if_neg]
  intro hopen
  obtain ⟨q, hq, hqo⟩ := List.any_eq_true.1 hopen
  have hrange := mem_upTo.1 hq
  obtain ⟨b, hb⟩ := hr q (by omega) (by omega)
  exact Bool.false_ne_true ((Ctx.isOpen_res hb).symm.trans hqo)

theorem gresAll_stalls {q id : Nat} (h1 : 1 ≤ q) (h15 : q ≤ 15) (hg : s.cur.gAt q s.latch.ic = .opn id) :
    exec (.gresAll h o) s = .next (s.stat (.stall [])) := by
  have hany : (upTo 1 15).any (fun r => s.cur.isOpen r s.latch.ic) = true :=
    List.any_eq_true.2 ⟨q, mem_upTo.2 (by omega), Ctx.isOpen_opn hg⟩
  rw [exec_gresAll hp, if_pos hany]

end

/-- Settles O10: `gres`, `gres all` and `gcol`, each on resolved and on open guards. -/
theorem guardWaits : Obligations.GuardWaits := fun h s o hp =>
  ⟨fun b hg => by
      rw [exec_gres hp, exec_gcol hp o (.inl ⟨rfl, rfl⟩), exec_gcol hp o (.inr (.inl ⟨rfl, rfl⟩)),
        exec_gcol hp o (.inr (.inr ⟨rfl, rfl⟩)), State.gres_res hg]
      simp only [State.gcol_res hg, and_self],
    gresAll_passes hp o, fun _ _ => gresAll_stalls hp o,
    fun id g hg ho => ⟨(exec_gres hp o).trans (congrArg _ (State.gres_opn hg)), fun hm hpred =>
      have hcol := State.gcol_collapses hg ho hm hpred
      ⟨⟨_, exec_gcol hp o (.inl ⟨rfl, rfl⟩), hcol none⟩, ⟨_, exec_gcol hp o (.inr (.inl ⟨rfl, rfl⟩)), hcol (some true)⟩,
        ⟨_, exec_gcol hp o (.inr (.inr ⟨rfl, rfl⟩)), hcol (some false)⟩⟩⟩⟩

end Sys2Proof.Machine
end

section
/-! PROOFS. Operations that wait for others: `sstep` (R125, R169, R259) and `invq` (R356). -/

namespace Sys2Proof.Machine

/-! ### Waits of operations of R125 -/

/-- An operation of R125 stalls on its own guard while a collapse may take it (R122). -/
theorem State.branching_ownOpen {s : State} {h : Hdr} {id : Nat} (ho : id ∈ s.cur.ownOpen h s.latch.ic)
    (hc : id ∈ s.cur.collapsible) (srcs : List (List (Tag × SVal))) (f : State) :
    s.branching h srcs f = s.stat (.stall [id]) := by
  have hown : s.cur.ownOpen h s.latch.ic = [id] := by
    unfold Ctx.ownOpen at ho ⊢
    split at ho
    · exact absurd ho List.not_mem_nil
    · rw [List.mem_singleton.1 ho]
  have hany : s.cur.collapsible.any (fun id => (s.cur.ownOpen h s.latch.ic).contains id) = true :=
    List.any_eq_true.2 ⟨id, hc, by simpa using ho⟩
  rw [State.branching, State.branchingK, if_pos hany, hown]

/-- With an empty larder and no marks to take, nothing of the larder comes first (R162). -/
theorem State.larderFirst_empty {s : State} (hc : s.cur.carry.active = false) (hm : s.cur.keepsMarks = false)
    (hl : s.cur.larder = []) (f : State) : s.larderFirst f = f := by
  simp [State.larderFirst, hc, hm, hl]

/-- A fence point of the bundle joins those of its context (R161). -/
theorem State.addFence_becomes (s : State) (h : Hdr) (members heldB : List Nat) (ak : BitVec 5) :
    s.Becomes (s.addFence h members heldB ak) { s.cur with fences := s.cur.fences ++
      [⟨s.uid, members, ak, if h.arr then some h.bn.toNat else none, s.latch.slot, s.latch.ba, heldB⟩] } :=
  (s.onCur_becomes (fun c => { c with fences := c.fences ++ [_] })).named (s.uid + 1)

/-! ### `sstep` (R169, R259) -/

theorem Ctx.fenceOpen_false {c : Ctx} : c.fenceOpen = false ↔ c.outsOf 0x1F 2 = [] ∧ c.heldOf 0x1F 2 = [] := by
  simp [Ctx.fenceOpen]

theorem Ctx.fenceOpen_true {c : Ctx} : c.fenceOpen = true ↔ c.outsOf 0x1F 2 ++ c.heldOf 0x1F 2 ≠ [] := by
  rw [← Bool.not_eq_false, Ctx.fenceOpen_false, ne_eq, List.append_eq_nil_iff]

/-- The state of an operation that its wait has let pass. -/
def State.letPass (s : State) : State := s.onCur (fun c => { c with pass := false })

theorem State.letPass_becomes (s : State) : s.Becomes s.letPass { s.cur with pass := false } := s.onCur_becomes _

section
variable {h : Hdr} {s : State} (o : CROp) (hp : s.Passes h)
include hp

theorem exec_sstep_passes (hpass : s.cur.pass = true) : exec (.sstep h o) s =
    .next (if s.cur.fenceOpen then s.letPass.fencePoint {} 0x1F 0x1F 2 else s.letPass) := by
  refine congrArg Host.Outcome.next ((hp.branching [] _ rfl).trans ((if_pos hpass).trans ?_))
  have hcur : s.letPass.cur.fenceOpen = s.cur.fenceOpen := by rw [s.letPass_becomes.cur]; rfl
  rw [← hcur]
  rfl

theorem sstep_goesOn (hpass : s.cur.pass = true) (ho : s.cur.outsOf 0x1F 2 = []) (hh : s.cur.heldOf 0x1F 2 = []) :
    ∃ t, exec (.sstep h o) s = .next t ∧ s.Becomes t { s.cur with pass := false } := by
  refine ⟨_, exec_sstep_passes o hp hpass, ?_⟩
  rw [Ctx.fenceOpen_false.2 ⟨ho, hh⟩]
  exact s.letPass_becomes

theorem sstep_fences (hpass : s.cur.pass = true) (hc : s.cur.carry.active = false)
    (hopen : s.cur.outsOf 0x1F 2 ++ s.cur.heldOf 0x1F 2 ≠ []) :
    ∃ t, exec (.sstep h o) s = .next t ∧ s.Becomes t { s.cur with
      pass := false, fences := s.cur.fences ++ [{ seq := s.uid, members := s.cur.outsOf 0x1F 2 ++ s.cur.heldOf 0x1F 2,
                                                  ak := 0x1F, slot := s.latch.slot, ba := s.latch.ba }] } := by
  refine ⟨_, exec_sstep_passes o hp hpass, ?_⟩
  have hb := s.letPass_becomes
  rw [if_pos (Ctx.fenceOpen_true.2 hopen), State.fencePoint, hb.cur, if_neg (by rw [hc]; exact Bool.false_ne_true)]
  have ha := s.letPass.addFence_becomes {} (s.cur.outsOf 0x1F 2 ++ s.cur.heldOf 0x1F 2) [] 0x1F
  rw [hb.cur] at ha
  exact hb.trans ha

theorem sstep_waits (hpass : s.cur.pass = false) (hc : s.cur.carry.active = false) (hm : s.cur.keepsMarks = false)
    (hl : s.cur.larder = []) : exec (.sstep h o) s = .next (s.stat (.waitAt .sstep)) := by
  refine congrArg Host.Outcome.next ((hp.branching [] _ rfl).trans ?_)
  rw [hpass, if_neg Bool.false_ne_true, State.larderFirst_empty hc hm hl]

end

/-! ### `invq` (R356) -/

theorem manyAlts_triple (x y z : SVal) : manyAlts [[([], x)], [([], y)], [([], z)]] = none := rfl

section
variable {h : Hdr} {s : State} {o : CROp} {d a b : Word} (hs : s.Settled h) (hd : s.SIs o.d.toNat (clean d))
  (ha : s.SIs o.a.toNat (clean a)) (hb : s.SIs o.b.toNat (clean b)) {lvl : Nat}
include hs hd ha hb

/-- An `invq` of clean sources goes on or waits. -/
theorem State.invq_clean : s.invq h o lvl =
    if s.cur.pass then s.letPass
    else s.larderFirst (
      if !(s.cur.outsOf 0x0C 3).isEmpty || !(s.cur.heldOf 0x0C 3).isEmpty then s.stat .wait
      else s.stat (.waitAt (.invq (d.setWidth 16) a.toNat b.toNat lvl))) := by
  rw [State.invq, hd, ha, hb]
  refine (hs.waiting _ _ (manyAlts_triple _ _ _)).trans ?_
  rfl

theorem State.invq_goesOn (hpass : s.cur.pass = true) : s.Becomes (s.invq h o lvl) { s.cur with pass := false } := by
  rw [State.invq_clean hs hd ha hb, if_pos hpass]
  exact s.letPass_becomes

theorem State.invq_waits (hpass : s.cur.pass = false) (hc : s.cur.carry.active = false) (hm : s.cur.keepsMarks = false)
    (hl : s.cur.larder = []) (ho : s.cur.outs = []) :
    s.invq h o lvl = s.stat (.waitAt (.invq (d.setWidth 16) a.toNat b.toNat lvl)) := by
  have hout : s.cur.outsOf 0x0C 3 = [] := by rw [Ctx.outsOf, ho]; rfl
  have hheld : s.cur.heldOf 0x0C 3 = [] := by rw [Ctx.heldOf, hl]; rfl
  rw [State.invq_clean hs hd ha hb, hpass, if_neg Bool.false_ne_true, State.larderFirst_empty hc hm hl, hout, hheld]
  rfl

end

theorem exec_invq {h : Hdr} {o : CROp} {i : Instr} {lvl : Nat}
    (hi : (i = .invqC h o ∧ lvl = 0) ∨ (i = .invqE h o ∧ lvl = 1) ∨ (i = .invqN h o ∧ lvl = 2)) (s : State) :
    exec i s = .next (s.invq h o lvl) := by
  rcases hi with ⟨rfl, rfl⟩ | ⟨rfl, rfl⟩ | ⟨rfl, rfl⟩ <;> rfl

/-- Settles O16: `sstep` that stalls, goes on, fences and waits; `invq` that goes on and waits. -/
theorem groupWaits : Obligations.GroupWaits := fun _ s o =>
  ⟨fun _ ho hc => congrArg Host.Outcome.next (State.branching_ownOpen ho hc [] _),
    sstep_goesOn o, sstep_fences o, sstep_waits o,
    fun d a b hs hd ha hb i lvl hi => by
      rw [exec_invq hi]
      exact ⟨fun hpass => ⟨_, rfl, State.invq_goesOn hs hd ha hb hpass⟩,
        fun hpass hc hm hl ho => congrArg _ (State.invq_waits hs hd ha hb hpass hc hm hl ho)⟩⟩

end Sys2Proof.Machine
end

section
/-! PROOFS. The checks of an access in their order, and the traps of misaligned loads and stores (R137, R140). -/

namespace Sys2Proof.Machine

open Sys2Proof.Claims (addressOf AccessOrder MisalignedAccessTraps)

/-! ### The checks of R137 -/

theorem accessCheck_misaligned (tab : TMap TEntry) (core : Nat) {ea : Word} {n : Nat} (h : ea.toNat % n ≠ 0) (fixed wr : Bool) :
    accessCheck tab core ea n fixed wr = .inl .misaligned := if_pos h

theorem accessCheck_unmapped {tab : TMap TEntry} (core : Nat) {ea : Word} {n : Nat} (h : ea.toNat % n = 0)
    (he : tLookup tab ea.toNat = none) (fixed wr : Bool) : accessCheck tab core ea n fixed wr = .inl .untranslated := by
  rw [accessCheck, if_neg (not_not.2 h), he]

/-- The checks behind the translation: presence, place, permission. -/
theorem accessCheck_mapped {tab : TMap TEntry} (core : Nat) {ea : Word} {n : Nat} {e : TEntry} (h : ea.toNat % n = 0)
    (he : tLookup tab ea.toNat = some e) (fixed wr : Bool) : accessCheck tab core ea n fixed wr =
      if e.p = false then .inl .pageFault
      else if fixed = true ∧ 3 ≤ e.kind then .inl .untimedPlace
      else if wr = true ∧ e.w = false then .inl .noWrite
      else .inr (e.tgt core ea.toNat) := by
  rw [accessCheck, if_neg (not_not.2 h), he]
  simp

theorem tLookup_eq_none {tab : TMap TEntry} {ea : Nat} (h : 2 ^ 48 ≤ ea ∨ ∀ e ∈ tab, e.2.hits ea = false) :
    tLookup tab ea = none := by
  unfold tLookup
  split
  · rfl
  · next hlt =>
    rw [List.find?_eq_none.2 fun e he => by simp [h.resolve_left hlt e he]]
    rfl

theorem val_eq_clean {w p : Nat} {x : Val w p} (hp : x.p = 0) (hf : x.f = none) : x = clean x.v := by
  cases x
  simp_all [clean]

/-- The trap that an access of a clean base raises at its bundle. -/
def State.accessTrap (s : State) (c : TrapCode) (ea : Word) (wr : Bool) : TrapRec := { s.trapRec c ea 0 with wr := wr }

theorem State.access_fails {s : State} {ea : Word} {n : Nat} {fixed wr : Bool} {c : TrapCode} (a : Word)
    (h : accessCheck s.cur.table.core (coreOf s.latch.n) ea n fixed wr = .inl c) :
    s.access (clean a) ea n fixed wr = .inl (s.accessTrap c ea wr) := by
  simp only [State.access, State.useTrap_clean, h, State.accessTrap]

theorem accessOrder : AccessOrder := by
  intro s base ea n fixed wr fails hf
  have hclean : base.p = 0 → base = clean base.v := fun hp => val_eq_clean hp hf
  have hfails : ∀ c, base.p = 0 → accessCheck s.cur.table.core (coreOf s.latch.n) ea n fixed wr = .inl c → fails c :=
    fun c hp hc => ⟨s.accessTrap c ea wr, rfl, rfl, rfl, by rw [hclean hp]; exact State.access_fails _ hc⟩
  refine ⟨fun hp => ⟨_, rfl, rfl, rfl, by rw [State.access, State.useTrap_poison s hp hf]⟩,
    fun hp ha => hfails _ hp (accessCheck_misaligned _ _ ha _ _),
    fun hp ha ht => hfails _ hp (accessCheck_unmapped _ ha (tLookup_eq_none ht) _ _), fun e hp ha he => ?_⟩
  have hc := accessCheck_mapped (coreOf s.latch.n) ha he fixed wr
  refine ⟨fun h1 => hfails _ hp ?_, fun h1 h2 h3 => hfails _ hp ?_, fun h1 h2 h3 h4 => hfails _ hp ?_, fun h1 h2 h3 => ?_⟩
  · rw [hc, if_pos h1]
  · rw [hc, if_neg (by simp [h1]), if_pos ⟨h2, h3⟩]
  · rw [hc, if_neg (by simp [h1]), if_neg (fun h => by have := h2 h.1; omega), if_pos ⟨h3, h4⟩]
  · rw [hclean hp]
    refine State.access_clean ?_
    rw [hc, if_neg (by simp [h1]), if_neg (fun h => by have := h2 h.1; omega), if_neg (fun h => by simp [h3 h.1] at h)]

/-! ### An access that traps at its bundle -/

theorem State.withTraps_raises (s : State) (r : TrapRec) (l : List (Tag × TrapRec)) (more : Nat) (f : State → State) (st : Bool) :
    s.withTraps (([], r) :: l) more f st = s.stat (.trap r) := rfl

section
variable {s : State} {h : Hdr} {o : MOp} {a : Word} {n : Nat} {fixed wr : Bool} {c : TrapCode}

/-- A clean base of one alternative whose access fails a check makes one try, with the trap of that check. -/
theorem State.tries_fails {α : Type} (x : α) (hb : s.BaseIs o.base.toNat (clean a))
    (hc : accessCheck s.cur.table.core (coreOf s.latch.n) (addressOf o a) n fixed wr = .inl c) :
    ∃ z : Try α, z.tag = [] ∧ z.res = .inl (s.accessTrap c (addressOf o a) wr) ∧ s.tries o n fixed wr [([], x)] = [z] := by
  obtain ⟨hu, g, hbase⟩ := hb
  have hea : ∀ v : Word, o.ea v = addressOf o v := fun _ => rfl
  refine ⟨{ tag := [], raw := [], b := clean a, gen := g, x := x, ea := addressOf o a, res := _ }, rfl, rfl, ?_⟩
  simpa [State.tries, hu, hbase, restrict, tagPair, tagAnd, tagOk, hea, clean] using State.access_fails a hc

theorem triesTraps_fails {α : Type} {z : Try α} {r : TrapRec} (ht : z.tag = []) (hr : z.res = .inl r) :
    triesTraps {} [z] = [([], r)] := by
  simp [triesTraps, ht, hr, tagAnd]

theorem State.loadFixed_traps (hf : s.Fires h) (hb : s.BaseIs o.base.toNat (clean a))
    (hc : accessCheck s.cur.table.core (coreOf s.latch.n) (addressOf o a) o.bytes true false = .inl c)
    (put : State → Cond2 → Nat → List (Tag × Got) → State) :
    s.loadFixed h o put = s.stat (.trap (s.accessTrap c (addressOf o a) false)) := by
  obtain ⟨z, ht, hr, htries⟩ := State.tries_fails () hb hc
  rw [State.loadFixed, hf.guarded]
  dsimp only
  rw [htries, triesTraps_fails ht hr, State.withTraps_raises]

theorem State.loadTimed_traps (hf : s.Fires h) (hb : s.BaseIs o.base.toNat (clean a))
    (hc : accessCheck s.cur.table.core (coreOf s.latch.n) (addressOf o a) n false false = .inl c) (kind : AccKind) (dst : AccDst)
    (put : State → Cond2 → Nat → List (Tag × Part) → State) :
    s.loadTimed h o kind dst n put = s.stat (.trap (s.accessTrap c (addressOf o a) false)) := by
  obtain ⟨z, ht, hr, htries⟩ := State.tries_fails () hb hc
  rw [State.loadTimed, hf.guarded]
  dsimp only
  rw [htries, triesTraps_fails ht hr, State.withTraps_raises]

theorem State.storeOp_traps {w p : Nat} {x : Val w p} (hf : s.Fires h) (hb : s.BaseIs o.base.toNat (clean a))
    (hc : accessCheck s.cur.table.core (coreOf s.latch.n) (addressOf o a) o.bytes false true = .inl c)
    (use : Val w p → Word → Option TrapRec) :
    s.storeOp h o [([], x)] use = s.stat (.trap (s.accessTrap c (addressOf o a) true)) := by
  obtain ⟨z, ht, hr, htries⟩ := State.tries_fails x hb hc
  rw [State.storeOp, hf.guarded]
  dsimp only
  rw [htries]
  simp [ht, hr, tagAnd, State.withTraps_raises]

end

theorem misalignedAccessTraps : MisalignedAccessTraps := by
  intro h o s a hf hb hm
  have hc := fun fixed wr => accessCheck_misaligned s.cur.table.core (coreOf s.latch.n) hm fixed wr
  refine ⟨s.accessTrap .misaligned (addressOf o a) false, s.accessTrap .misaligned (addressOf o a) true, rfl, rfl, rfl, rfl, rfl, rfl,
    ?_, fun x hx => ?_, fun x hx => ?_⟩
  · simp only [List.forall_mem_cons, List.not_mem_nil, false_imp_iff, implies_true, and_true]
    exact ⟨congrArg _ (State.loadFixed_traps hf hb (hc ..) _), congrArg _ (State.loadFixed_traps hf hb (hc ..) _),
      congrArg _ (State.loadFixed_traps hf hb (hc ..) _), congrArg _ (State.loadTimed_traps hf hb (hc ..) _ _ _),
      congrArg _ (State.loadTimed_traps hf hb (hc ..) _ _ _)⟩
  · show execSt h o s = _
    rw [execSt, hx, State.storeOp_traps hf hb (hc ..)]
  · show execVst h o s = _
    rw [execVst, hx, State.storeOp_traps hf hb (hc ..)]

/-- Settles O24: the checks one by one, and each load and store by the trap of its one failing alternative. -/
theorem accessChecks : Obligations.AccessChecks := ⟨accessOrder, misalignedAccessTraps⟩

end Sys2Proof.Machine
end

section
/-! PROOFS. Timed requests (R138, R141, R142, R153). -/

namespace Sys2Proof.Machine

open Sys2Proof.Claims (addressOf stepped isAccess)

/-! ### The base of an access moves -/

theorem LandingOf.add {w p : Nat} {f : RegFile w p} {r due id : Nat} (h : LandingOf f r due id) (x : Pend w p) :
    LandingOf (f.add x) r due id := by
  obtain ⟨y, hy, hrest⟩ := h
  exact ⟨y, mem_pendIns.2 (Or.inr hy), hrest⟩

theorem LandingOf.ite_add {w p : Nat} {f : RegFile w p} {r due id : Nat} (h : LandingOf f r due id) (x : Pend w p)
    (q : Prop) [Decidable q] : LandingOf (if q then f else f.add x) r due id := by
  split
  · exact h
  · exact h.add x

/-- `t` is `u` with the base of an access of `s` moved; what leaves the core and every other register stay as in `u`. -/
structure State.MovesBase (s u t : State) (o : MOp) (a : Word) : Prop where
  stepped : stepped s t o a
  sa      : ∃ x : Pend 64 1, x.dst = aReg o.base.toNat ∧ t.cur.sa = if o.stepBytes = 0 then u.cur.sa else u.cur.sa.add x
  v       : t.cur.v = u.cur.v
  g       : t.cur.g = u.cur.g
  gpend   : t.cur.gpend = u.cur.gpend
  portW   : t.portW = u.portW
  outq    : t.outq = u.outq

theorem State.postStep_movesBase {s v t : State} {o : MOp} {a : Word} {g : Nat} (hl : v.latch = s.latch)
    (hb : v.cur.aAt o.base.toNat s.latch.ic = [{ val := clean a, gen := g }])
    (ht : (v.postStep {} o.base.toNat o.stepBytes).SameRegs t) : s.MovesBase v t o a := by
  rw [← hl] at hb
  have hw := State.postStep_becomes hb o.stepBytes
  have hregs : t.cur.toRegs = (v.postStep {} o.base.toNat o.stepBytes).cur.toRegs := ht.regs
  rw [hw.cur] at hregs
  have hsa : t.cur.sa = if o.stepBytes = 0 then v.cur.sa else v.cur.sa.add (v.stepResult o.base.toNat g (a + o.stepBytes)) := by
    rw [hregs]
  refine ⟨fun hs => ?_, ⟨_, rfl, hsa⟩, ?_, ?_, ?_, ?_, ?_⟩
  · have hdue : (v.stepResult o.base.toNat g (a + o.stepBytes)).due = s.latch.ic + 1 := congrArg (fun l => l.ic + 1) hl
    rw [hsa, if_neg (mt (stepBytes_eq_zero o).1 hs), ← hdue]
    exact coming_add_self _ rfl rfl
  · rw [hregs]
  · rw [hregs]
  · rw [hregs]
  · rw [ht.portW, hw.1]
  · rw [ht.outq, hw.1]

theorem State.MovesBase.at_other {s v t : State} {o : MOp} {a : Word} (h : s.MovesBase v t o a) {r : Nat}
    (hr : r ≠ aReg o.base.toNat) (k : Nat) : t.cur.sa.at r k = v.cur.sa.at r k := by
  obtain ⟨x, hx, hsa⟩ := h.sa
  rw [hsa]
  exact RegFile.at_ite_add _ (fun _ => by rw [hx]; exact hr.symm) k

/-! ### The porch of a core -/

/-- Every core has the porch entries that it had. -/
def State.SamePorch (s t : State) : Prop := ∀ k, (t.core k).porch = (s.core k).porch

theorem State.freezeEcc_samePorch (s : State) (core : Nat) : s.SamePorch (s.freezeEcc core) := fun k => by
  rw [State.freezeEcc, State.core_onCore]
  split
  · next h => rw [h]
  · rfl

theorem State.correct_samePorch (s : State) (home n : Nat) (issuer : Option Nat) : s.SamePorch (s.correct home n issuer) := fun k => by
  unfold State.correct
  dsimp only
  split
  · split
    · rw [State.freezeEcc_samePorch, State.freezeEcc_samePorch]; rfl
    · rw [State.freezeEcc_samePorch]; rfl
  · rfl

theorem State.touch_samePorch (s : State) (kindB : Nat) (ea : Word) (n : Nat) (t : Tgt) : s.SamePorch (s.touch kindB ea n t) := fun k => by
  unfold State.touch
  dsimp only
  split
  · split
    · exact State.correct_samePorch _ _ _ _ k
    · rfl
  · rfl

theorem State.recordOor_samePorch (s : State) (n : Nat) (wr : Bool) (place core off len ba : Nat) :
    s.SamePorch (s.recordOor n wr place core off len ba) := fun k => by
  unfold State.recordOor
  repeat' split
  all_goals rfl

/-! ### A request begins -/

/-- The one alternative of a request with a clean base. -/
def timedTry (o : MOp) (a : Word) (g : Nat) (tg : Tgt) : Try Unit :=
  { tag := [], raw := [], b := clean a, gen := g, x := (), ea := addressOf o a, res := .inr tg }

/-- The access of that alternative. -/
def State.timedAcc (s : State) (h : Hdr) (o : MOp) (kind : AccKind) (dst : AccDst) (a : Word) (g : Nat) (tg : Tgt) (n : Nat) : Acc :=
  { s.mkAcc h o {} kind (timedTry o a g tg) tg n (s.latch.ic + max 1 o.lof.toNat) 0 with dst := dst, tag := [] }

/-- The request has begun, and its name is taken. -/
def State.begun (s : State) (acc : Acc) : State := { s.beginTimed acc with uid := s.uid + 1 }

/-- The core of an access with its porch entry taken (R142). -/
def State.porchTaken (s : State) (acc : Acc) : State :=
  s.onCore (coreOf acc.n) (fun c => { c with porch := c.porch ++ [⟨acc.id, acc.n, acc.due, false, false, false, acc.tag⟩] })

/-- A request takes its porch entry and stands among the operations of its context; to a place beyond the ports it leaves its core. -/
theorem State.begun_eq (s : State) (acc : Acc) : ∃ x rs q,
    s.begun acc = { (s.porchTaken acc).onCtx acc.n (Ctx.listed x) with resps := rs, outq := q, uid := s.uid + 1 } ∧
      (2 ≤ acc.place → q = s.outq ++ [acc]) := by
  unfold State.begun State.beginTimed
  dsimp only
  split
  · next h => exact ⟨_, _, _, rfl, fun h2 => absurd h (by omega)⟩
  · exact ⟨_, _, _, rfl, fun _ => rfl⟩

theorem State.begun_latch (s : State) (acc : Acc) : (s.begun acc).latch = s.latch := by
  obtain ⟨x, rs, q, h, -⟩ := s.begun_eq acc
  rw [h]; rfl

theorem State.begun_portW (s : State) (acc : Acc) : (s.begun acc).portW = s.portW := by
  obtain ⟨x, rs, q, h, -⟩ := s.begun_eq acc
  rw [h]; rfl

theorem State.begun_outq (s : State) {acc : Acc} (h : 2 ≤ acc.place) : (s.begun acc).outq = s.outq ++ [acc] := by
  obtain ⟨x, rs, q, heq, hq⟩ := s.begun_eq acc
  rw [heq]
  exact hq h

theorem State.begun_regs (s : State) (acc : Acc) : (s.begun acc).cur.toRegs = s.cur.toRegs := by
  obtain ⟨x, rs, q, h, -⟩ := s.begun_eq acc
  rw [State.cur, State.begun_latch, h]
  exact (State.onCtx_sends (Ctx.listed_sends x) s.latch.n).toRegs

theorem State.begun_porch (s : State) (acc : Acc) :
    (⟨acc.id, acc.n, acc.due, false, false, false, acc.tag⟩ : PorchE) ∈ ((s.begun acc).core (coreOf acc.n)).porch := by
  obtain ⟨x, rs, q, h, -⟩ := s.begun_eq acc
  have hcore : (s.begun acc).core (coreOf acc.n) = (s.porchTaken acc).core (coreOf acc.n) := by rw [h]; rfl
  rw [hcore, State.porchTaken, State.core_onCore_same]
  exact List.mem_append_right _ (List.mem_singleton.2 rfl)

/-! ### What a request leaves -/

/-- What a request records besides its landing: a watchpoint, and of a load the line that it touches and an out-of-range offset. -/
def State.notes (u : State) (kind : AccKind) (ea : Word) (n : Nat) (tg : Tgt) : State :=
  if kind = .tchase then u.watch 62 ea n
  else (u.touch 62 ea n tg).recordOor u.latch.n false (if tg.place ≤ 1 then tg.place else 3) tg.core tg.off n u.latch.ba

theorem State.notes_sameRegs (u : State) (kind : AccKind) (ea : Word) (n : Nat) (tg : Tgt) : u.SameRegs (u.notes kind ea n tg) := by
  unfold State.notes
  split
  · exact u.watch_sameRegs _ _ _
  · exact (u.touch_sameRegs _ _ _ _).trans (State.recordOor_sameRegs _ _ _ _ _ _ _ _)

theorem State.notes_samePorch (u : State) (kind : AccKind) (ea : Word) (n : Nat) (tg : Tgt) : u.SamePorch (u.notes kind ea n tg) := fun k => by
  unfold State.notes
  split
  · rfl
  · rw [State.recordOor_samePorch, State.touch_samePorch]

theorem State.arriveAt_under_true (s : State) (h : Hdr) (due : Nat) (ids : List Nat) :
    s.SameRegs (s.arriveAt {} h due [([], ids)]) ∧ s.SamePorch (s.arriveAt {} h due [([], ids)]) := by
  unfold State.arriveAt arriveIn
  split
  · refine ⟨s.arriveOne_sameRegs h due ([], ids) rfl, fun k => ?_⟩
    rw [List.map_cons, List.map_nil, State.arriveAll, State.arriveAll, State.arriveOne]
    rfl
  · exact ⟨.refl s, fun _ => rfl⟩

/-- The state that a request leaves once its register waits for it in `u`. -/
def State.requested (s : State) (h : Hdr) (o : MOp) (kind : AccKind) (a : Word) (n : Nat) (tg : Tgt) (u : State) : State :=
  ((u.notes kind (addressOf o a) n tg).postStep {} o.base.toNat o.stepBytes).arriveAt {} h
    (s.latch.ic + max 1 o.lof.toNat) [([], [s.uid])]

theorem State.parts_one {s : State} {o : MOp} {tg : Tgt} {n : Nat} {fwd : Bool}
    (hserve : (if fwd = true then s.serve o.ac.toNat [] tg n else some [([], Served.mem)]) = some [([], .mem)]) (h : Hdr)
    (kind : AccKind) (dst : AccDst) (a : Word) (g : Nat) :
    s.parts h o {} kind dst n (s.latch.ic + max 1 o.lof.toNat) fwd [timedTry o a g tg] =
      some (s.begun (s.timedAcc h o kind dst a g tg n), [([], .wait s.uid)]) := by
  simp only [State.parts, timedTry, hserve]
  rfl

theorem State.loadTimed_one {s : State} {h : Hdr} {o : MOp} {a : Word} {g n : Nat} {tg : Tgt} (hf : s.Fires h) (hc : s.Calm)
    (hu : s.latch.under = []) (hb : s.cur.aAt o.base.toNat s.latch.ic = [{ val := clean a, gen := g }])
    (hok : accessCheck s.cur.table.core (coreOf s.latch.n) (addressOf o a) n false false = .inr tg) (hroom : s.porchRoom 1 = true)
    (kind : AccKind) (dst : AccDst) (put : State → Cond2 → Nat → List (Tag × Part) → State) :
    s.loadTimed h o kind dst n put = s.requested h o kind a n tg
      (put (s.begun (s.timedAcc h o kind dst a g tg n)) {} (max 1 o.lof.toNat) [([], .wait s.uid)]) := by
  obtain ⟨hlarder, hfreed, hfences, -, -⟩ := hc
  have hserve : (if (kind == .load) = true then s.serve o.ac.toNat [] tg n else some [([], Served.mem)]) = some [([], .mem)] := by
    rw [State.serve_memory hlarder hfreed, ite_self]
  have hfenced : s.cur.fenced 0 = [] := by simp [Ctx.fenced, hfences]
  have harr : arriveRoom {} h [([], [s.uid])] = 0 := by
    unfold arriveRoom arriveIn
    by_cases ha : h.arr <;> simp [ha, tagAnd]
  have htries : s.tries o n false false [([], ())] = [timedTry o a g tg] := State.tries_one () hu hb hok
  rw [State.loadTimed, hf.guarded]
  dsimp only
  rw [htries, State.parts_one hserve]
  simp [timedTry, triesTraps, madeIn, Part.refs, partIds, State.withTraps, harr, State.withRoom, hfenced, State.raiseAll, hroom,
    State.porchFill, State.forTries, State.requested, State.notes]

/-! ### The landing of a request -/

/-- The result that waits for the data of a request. -/
def State.landing {w p : Nat} (s : State) (r lat : Nat) (as : List (Alt w p)) : Pend w p :=
  { mkPend s r lat [] ([] : List (Tag × Val w p)) with alts := as, rdy := 0 }

theorem State.addAltsS_becomes (s : State) (r lat : Nat) (as : List (Alt 64 1)) (h : as.length ≤ 4) :
    s.Becomes (s.addAltsS {} r lat as) { s.cur with sa := s.cur.sa.add (s.landing (if r = 0 then noReg else r) lat as) } := by
  unfold State.addAltsS
  split
  · exact (s.onCur_becomes _).named (s.uid + 1)
  · exact s.addS_becomes _ (one_alternative _ _ rfl rfl h)

theorem State.addAltsV_becomes (s : State) (r lat : Nat) (as : List (Alt 1024 32)) (h : as.length ≤ 4) :
    s.Becomes (s.addAltsV {} r lat as) { s.cur with v := s.cur.v.add (s.landing r lat as) } :=
  s.addV_becomes _ (one_alternative _ _ rfl rfl h)

section
variable {s : State} {h : Hdr} {o : MOp} {a : Word} {g n : Nat} {tg : Tgt} {u : State} {c : Ctx} {kind : AccKind} {dst : AccDst}

/-- What every request has done, however its register waits: `c` is the context with its landing. -/
theorem State.requested_keeps (hu : (s.begun (s.timedAcc h o kind dst a g tg n)).Becomes u c)
    (hb : c.aAt o.base.toNat s.latch.ic = [{ val := clean a, gen := g }]) :
    let t := s.requested h o kind a n tg u
    (⟨s.uid, s.latch.n, s.latch.ic + max 1 o.lof.toNat, false, false, false, []⟩ : PorchE) ∈ (t.core (coreOf s.latch.n)).porch ∧
    (2 ≤ tg.place → t.outq = s.outq ++ [s.timedAcc h o kind dst a g tg n]) ∧ t.portW = s.portW ∧ stepped s t o a ∧
    (∃ x : Pend 64 1, t.cur.sa = if o.stepBytes = 0 then c.sa else c.sa.add x) ∧
    (∀ r, r ≠ aReg o.base.toNat → ∀ k, t.cur.sa.at r k = c.sa.at r k) ∧ t.cur.v = c.v := by
  intro t
  let acc := s.timedAcc h o kind dst a g tg n
  let v := u.notes kind (addressOf o a) n tg
  have hv : u.SameRegs v := u.notes_sameRegs _ _ _ _
  have hvl : v.latch = s.latch := by rw [hv.latch, hu.latch, State.begun_latch]
  have hvc : v.cur.toRegs = c.toRegs := hv.regs.trans (congrArg Ctx.toRegs hu.cur)
  have hvb : v.cur.aAt o.base.toNat s.latch.ic = [{ val := clean a, gen := g }] := by
    rw [Ctx.aAt, hvc]; exact hb
  obtain ⟨ht, hporch⟩ := (v.postStep {} o.base.toNat o.stepBytes).arriveAt_under_true h (s.latch.ic + max 1 o.lof.toNat) [s.uid]
  have hm : s.MovesBase v t o a := State.postStep_movesBase hvl hvb ht
  have hpost := State.postStep_becomes (hvl ▸ hvb) o.stepBytes
  obtain ⟨x, -, hsa⟩ := hm.sa
  refine ⟨?_, fun hp => ?_, ?_, hm.stepped, ⟨x, by rw [hsa, hvc]⟩, fun r hr k => by rw [hm.at_other hr k, hvc], by rw [hm.v, hvc]⟩
  · have hp : (t.core (coreOf s.latch.n)).porch = ((s.begun acc).core (coreOf s.latch.n)).porch := by
      rw [← hu.core, ← u.notes_samePorch kind (addressOf o a) n tg, ← hpost.core]
      exact hporch _
    exact hp ▸ s.begun_porch acc
  · rw [hm.outq, hv.outq, hu.1]
    exact s.begun_outq hp
  · rw [hm.portW, hv.portW, hu.1]
    exact s.begun_portW acc

end

section
variable {h : Hdr} {o : MOp} {s : State} {a : Word} {tg : Tgt} {n g : Nat} (hf : s.Fires h) (hc : s.Calm)
  (hu : s.latch.under = []) (hb : s.cur.aAt o.base.toNat s.latch.ic = [{ val := clean a, gen := g }])
  (hok : accessCheck s.cur.table.core (coreOf s.latch.n) (addressOf o a) n false false = .inr tg) (hroom : s.porchRoom 1 = true)
include hf hc hu hb hok hroom

/-- `ldt` and `tchase`. -/
theorem scalarRequest_waits (kind : AccKind) (dst : AccDst) (sg : Bool) :
    let t := s.loadTimed h o kind dst n (putPartS o.d.toNat sg)
    let due := s.latch.ic + max 1 o.lof.toNat
    (o.d.toNat ≠ 0 → LandingOf t.cur.sa o.d.toNat due s.uid) ∧
    (⟨s.uid, s.latch.n, due, false, false, false, []⟩ : PorchE) ∈ (t.core (coreOf s.latch.n)).porch ∧
    (2 ≤ tg.place → t.outq = s.outq ++ [s.timedAcc h o kind dst a g tg n]) ∧ stepped s t o a ∧
    s.KeepsS t [o.d.toNat, aReg o.base.toNat] ∧ s.KeepsBytes t ∧ t.portW = s.portW := by
  intro t due
  let b := s.begun (s.timedAcc h o kind dst a g tg n)
  have hbl : b.latch = s.latch := s.begun_latch _
  have hbr : b.cur.toRegs = s.cur.toRegs := s.begun_regs _
  let as : List (Alt 64 1) := [{ tag := [], ref := some s.uid, gen := b.uid }]
  let x : Pend 64 1 := b.landing (if o.d.toNat = 0 then noReg else o.d.toNat) (max 1 o.lof.toNat) as
  have hput := b.addAltsS_becomes o.d.toNat (max 1 o.lof.toNat) as (by decide : 1 ≤ 4)
  have hx : ∀ r, r ≠ o.d.toNat → r ≠ noReg → x.dst ≠ r := fun r hd hn => by
    show (if o.d.toNat = 0 then noReg else o.d.toNat) ≠ r
    split
    · exact hn.symm
    · exact hd.symm
  have hother : ∀ r, r ≠ o.d.toNat → r ≠ noReg → ∀ k, (b.cur.sa.add x).at r k = s.cur.sa.at r k := fun r hd hn k => by
    rw [RegFile.at_add_other _ (hx r hd hn), hbr]
  have hbase : (b.cur.sa.add x).at (aReg o.base.toNat) s.latch.ic = [{ val := clean a, gen := g }] := by
    rw [hother _ aReg_ne.symm (by have := o.base.isLt; unfold aReg noReg; omega)]
    exact hb
  have ht : t = s.requested h o kind a n tg (b.addAltsS {} o.d.toNat (max 1 o.lof.toNat) as) :=
    State.loadTimed_one hf hc hu hb hok hroom kind dst _
  obtain ⟨hporch, hout, hport, hstep, ⟨y, hsa⟩, hat, -⟩ := State.requested_keeps hput hbase
  rw [← ht] at hporch hout hport hstep hsa hat
  refine ⟨fun hd => ?_, hporch, hout, hstep, fun r hr hn k => ?_,
    State.KeepsBytes.of_cells (s.loadTimed_cells h o kind dst n fun _ _ _ _ => State.addAltsS_mem _ _ _ _ _), hport⟩
  · rw [hsa]
    have hdst : x.dst = o.d.toNat := if_neg hd
    have hdue : x.due = due := by
      show b.latch.ic + max 1 o.lof.toNat = _
      rw [hbl]
    exact LandingOf.ite_add ⟨x, mem_pendIns.2 (Or.inl rfl), hdst, hdue, rfl, _, rfl⟩ y _
  · rw [List.mem_cons, List.mem_singleton, not_or] at hr
    rw [hat r hr.2 k]
    exact hother r hr.1 hn k

/-- `vldt`. -/
theorem vectorRequest_waits (kind : AccKind) (dst : AccDst) :
    let t := s.loadTimed h o kind dst n (putPartV o.d.toNat)
    let due := s.latch.ic + max 1 o.lof.toNat
    LandingOf t.cur.v o.d.toNat due s.uid ∧
    (⟨s.uid, s.latch.n, due, false, false, false, []⟩ : PorchE) ∈ (t.core (coreOf s.latch.n)).porch ∧
    (2 ≤ tg.place → t.outq = s.outq ++ [s.timedAcc h o kind dst a g tg n]) ∧ stepped s t o a ∧
    s.KeepsS t [o.d.toNat, aReg o.base.toNat] ∧ s.KeepsBytes t ∧ t.portW = s.portW := by
  intro t due
  let b := s.begun (s.timedAcc h o kind dst a g tg n)
  have hbl : b.latch = s.latch := s.begun_latch _
  have hbr : b.cur.toRegs = s.cur.toRegs := s.begun_regs _
  let as : List (Alt 1024 32) := [{ tag := [], ref := some s.uid, gen := b.uid }]
  let x : Pend 1024 32 := b.landing o.d.toNat (max 1 o.lof.toNat) as
  have hput := b.addAltsV_becomes o.d.toNat (max 1 o.lof.toNat) as (by decide : 1 ≤ 4)
  have hbase : b.cur.sa.at (aReg o.base.toNat) s.latch.ic = [{ val := clean a, gen := g }] := by
    rw [hbr]; exact hb
  have ht : t = s.requested h o kind a n tg (b.addAltsV {} o.d.toNat (max 1 o.lof.toNat) as) :=
    State.loadTimed_one hf hc hu hb hok hroom kind dst _
  obtain ⟨hporch, hout, hport, hstep, -, hat, hv⟩ := State.requested_keeps hput hbase
  rw [← ht] at hporch hout hport hstep hat hv
  refine ⟨?_, hporch, hout, hstep, fun r hr _ k => ?_,
    State.KeepsBytes.of_cells (s.loadTimed_cells h o kind dst n fun _ _ _ _ => State.addAltsV_mem _ _ _ _ _), hport⟩
  · rw [hv]
    have hdue : x.due = due := by
      show b.latch.ic + max 1 o.lof.toNat = _
      rw [hbl]
    exact ⟨x, mem_pendIns.2 (Or.inl rfl), rfl, hdue, rfl, _, rfl⟩
  · rw [List.mem_cons, List.mem_singleton, not_or] at hr
    rw [hat r hr.2 k]
    show b.cur.sa.at r k = s.cur.sa.at r k
    rw [hbr]

end

/-- Settles O22: each form is a timed request whose register waits for its access. -/
theorem timedRequests : Obligations.TimedRequests := by
  rintro h o s a tg n kind hf hc ⟨hu, g, hb⟩ hok - hroom due i hi
  have hacc : ∀ dst, isAccess s (s.timedAcc h o kind dst a g tg n) kind tg n := fun _ => ⟨rfl, rfl, rfl, rfl, rfl⟩
  rcases hi with ⟨rfl | rfl, rfl, rfl⟩ | ⟨rfl, rfl, rfl⟩
  · obtain ⟨hland, hrest⟩ := scalarRequest_waits hf hc hu hb hok hroom .load (.s o.d.toNat true) true
    exact ⟨_, _, rfl, hacc _, rfl, rfl, ⟨nofun, fun _ => hland⟩, hrest⟩
  · obtain ⟨hland, hrest⟩ := vectorRequest_waits hf hc hu hb hok hroom .load (.v o.d.toNat)
    exact ⟨_, _, rfl, hacc _, rfl, rfl, ⟨fun _ => hland, fun hne => absurd rfl hne⟩, hrest⟩
  · obtain ⟨hland, hrest⟩ := scalarRequest_waits hf hc hu hb hok hroom .tchase (.s o.d.toNat false) false
    exact ⟨_, _, rfl, hacc _, rfl, rfl, ⟨nofun, fun _ => hland⟩, hrest⟩

end Sys2Proof.Machine
end

section
/-! PROOFS. Stores as they are sent and as they perform (R138, R140, R144 to R146, R150, R151). -/

namespace Sys2Proof.Machine

open Sys2Proof.Claims (addressOf stepped isAccess leaves StoresSent StoresOfPoison)

/-! ### What a store records -/

theorem Ctx.askStop_asks (c : Ctx) (w i : Nat) : ∃ q, c.askStop w i = { c with stopReq := q } := by
  unfold Ctx.askStop
  repeat' split
  · exact ⟨_, rfl⟩
  · exact ⟨_, rfl⟩
  · exact ⟨_, rfl⟩

/-- A store at issue asks for at most a stop at a watchpoint. -/
theorem State.touch_store (s : State) (ea : Word) (n : Nat) (tg : Tgt) :
    ∃ q, s.Becomes (s.touch 61 ea n tg) { s.cur with stopReq := q } := by
  have hstop : ∃ q, (s.touch 61 ea n tg).cur = { s.cur with stopReq := q } := by
    rw [State.touch, if_neg (by decide), State.watch, State.cur_onCur]
    repeat' split
    · exact ⟨_, rfl⟩
    · exact Ctx.askStop_asks ..
    · exact Ctx.askStop_asks ..
    · exact ⟨_, rfl⟩
  obtain ⟨q, hq⟩ := hstop
  exact ⟨q, by rw [← hq, State.touch, if_neg (by decide), State.watch, State.cur_onCur]; exact s.onCur_becomes _⟩

/-! ### A store of one base and one value -/

/-- The access of a store of a clean base. -/
def State.storeAcc {w p : Nat} (s : State) (h : Hdr) (o : MOp) (a : Word) (g : Nat) (tg : Tgt) (x : Val w p) : Acc :=
  let z : Try (Val w p) := { tag := [], raw := [], b := clean a, gen := g, x := x, ea := addressOf o a, res := .inr tg }
  { s.mkAcc h o {} .store z tg o.bytes 0 1 with data := toBytes x.v.toNat o.bytes, bad := valBad x o.bytes, mark := x.f }

section
variable {w p : Nat} {s : State} {h : Hdr} {o : MOp} {a : Word} {g : Nat} {tg : Tgt} {x : Val w p} {use : Val w p → Word → Option TrapRec}
  (hf : s.Fires h) (hlarder : s.cur.larder = []) (hfences : s.cur.fences = []) (hcarry : s.cur.carry = {})
  (hu : s.latch.under = []) (hb : s.cur.aAt o.base.toNat s.latch.ic = [{ val := clean a, gen := g }])
  (hok : accessCheck s.cur.table.core (coreOf s.latch.n) (addressOf o a) o.bytes false true = .inr tg)
include hf hlarder hfences hcarry hu hb hok

/-- A store that raises nothing at its bundle is made or held, and its base moves. -/
theorem State.storeOp_one (hnow : s.cur.keepsMarks = true ∨ use x (addressOf o a) = none) : s.storeOp h o [([], x)] use =
    ((s.touch 61 (addressOf o a) o.bytes tg).storeOne (s.storeAcc h o a g tg x) (use x (addressOf o a))).postStep {}
      o.base.toNat o.stepBytes := by
  have hbars : s.cur.bars tg.place = false := by simp [Ctx.bars, hcarry]
  have hfenced : ∀ k, s.cur.fenced k = [] := fun k => by simp [Ctx.fenced, hfences]
  have hroom : ∀ z : Try (Val w p), s.cur.noRoom ([z].filter fun z => z.res.isRight).length = false := fun z => by
    have hle : ([z].filter fun z => z.res.isRight).length ≤ 1 := List.length_filter_le _ [z]
    simp only [Ctx.noRoom, hlarder, List.length_nil, decide_eq_false_iff_not]
    omega
  have hraised : (if s.cur.holdsStore [] = true then none else (use x (addressOf o a)).map (fun t => (([] : Tag), t))) = none := by
    rcases hnow with h | h <;> simp [h, Ctx.holdsStore]
  simp only [State.storeOp, hf.guarded, State.tries_one x hu hb hok]
  simp [hraised, tagAnd, State.withTraps, State.withRoom, hroom, hfenced, State.raiseAll, State.forTries, hbars, State.postStepBut,
    State.barred, State.storeAcc, State.mkAcc]

omit hfences hcarry in
/-- Poisoned data in a context that keeps no marks traps at the bundle. -/
theorem State.storeOp_poisoned {r : TrapRec} (hm : s.cur.keepsMarks = false) (hr : use x (addressOf o a) = some r) :
    s.storeOp h o [([], x)] use = s.stat (.trap r) := by
  have hholds : s.cur.holdsStore [] = false := by simp [Ctx.holdsStore, hm, hlarder]
  simp only [State.storeOp, hf.guarded, State.tries_one x hu hb hok]
  simp [hholds, hr, tagAnd, State.withTraps_raises]

end

/-! ### A store that leaves its core -/

theorem State.launchAcc_store (s : State) {acc : Acc} (hr : acc.ret = false) :
    leaves s (s.launchAcc acc false) acc acc.place := by
  unfold State.launchAcc
  refine ⟨fun hp => ?_, fun hp => ?_⟩
  · rw [if_pos hp, hr, if_neg Bool.false_ne_true]
    exact ⟨rfl, _, rfl⟩
  · rw [if_neg (by omega)]
    exact ⟨rfl, rfl⟩

section
variable {w p : Nat} {s : State} {h : Hdr} {o : MOp} {a : Word} {tg : Tgt} {x : Val w p} {use : Val w p → Word → Option TrapRec}

/-- A store of clean data in a context with nothing held. -/
theorem store_sent (hf : s.Fires h) (hc : s.Calm) (hb : s.BaseIs o.base.toNat (clean a))
    (hok : accessCheck s.cur.table.core (coreOf s.latch.n) (addressOf o a) o.bytes false true = .inr tg)
    (huse : use x (addressOf o a) = none) :
    ∃ acc, isAccess s acc .store tg o.bytes ∧ acc.data = toBytes x.v.toNat o.bytes ∧
      let t := s.storeOp h o [([], x)] use
      leaves s t acc tg.place ∧ stepped s t o a ∧ s.KeepsS t [aReg o.base.toNat] ∧ t.cur.v = s.cur.v ∧
      t.cur.g = s.cur.g ∧ t.cur.gpend = s.cur.gpend ∧ s.KeepsBytes t := by
  obtain ⟨hlarder, -, hfences, hmarks, hcarry⟩ := hc
  obtain ⟨hu, g, hbase⟩ := hb
  let acc := s.storeAcc h o a g tg x
  let u := s.touch 61 (addressOf o a) o.bytes tg
  let v : State := { u.launchAcc acc false with uid := u.uid + 1 }
  obtain ⟨q, hq⟩ : ∃ q, s.Becomes u { s.cur with stopReq := q } := s.touch_store (addressOf o a) o.bytes tg
  have hone : u.storeOne acc (use x (addressOf o a)) = v := by
    have hbars : u.cur.bars acc.place = false := by rw [hq.cur]; simp [Ctx.bars, hcarry]
    have hholds : u.cur.holdsStore acc.tag = false := by
      rw [hq.cur]
      simpa [Ctx.holdsStore, hlarder, Ctx.keepsMarks, acc, State.storeAcc, State.mkAcc, tagAnd] using hmarks
    rw [State.storeOne, hbars, hholds]
    rfl
  have ht := State.storeOp_one hf hlarder hfences hcarry hu hbase hok (.inr huse)
  rw [hone] at ht
  have hsends : u.cur.Sends v.cur := by
    have hcur : v.cur = (u.launchAcc acc false).ctx u.latch.n := by
      show (u.launchAcc acc false).ctx (u.launchAcc acc false).latch.n = _
      rw [u.launchAcc_latch acc false]
    exact hcur ▸ u.launchAcc_sends acc false u.latch.n
  have hvl : v.latch = s.latch := (u.launchAcc_latch acc false).trans hq.latch
  have hvr : v.cur.toRegs = s.cur.toRegs := by rw [hsends.toRegs, hq.cur]
  have hm : s.MovesBase v (v.postStep {} o.base.toNat o.stepBytes) o a :=
    State.postStep_movesBase hvl (by rw [Ctx.aAt, hvr]; exact hbase) (.refl _)
  rw [← ht] at hm
  refine ⟨acc, ⟨rfl, rfl, rfl, rfl, rfl⟩, rfl, ?_, hm.stepped, fun r hr _ k => ?_, by rw [hm.v, hvr], by rw [hm.g, hvr],
    by rw [hm.gpend, hvr], State.KeepsBytes.of_cells (s.storeOp_cells h o _ use)⟩
  · have hleaves : leaves u v acc acc.place := u.launchAcc_store rfl
    unfold leaves at hleaves ⊢
    rw [hm.outq, hm.portW]
    rw [hq.1] at hleaves
    exact hleaves
  · rw [hm.at_other (mt List.mem_singleton.2 hr) k, hvr]

/-- A store of poisoned data in a context that keeps marks. -/
theorem store_held {r : TrapRec} (hf : s.Fires h) (hlarder : s.cur.larder = []) (hfences : s.cur.fences = [])
    (hcarry : s.cur.carry = {}) (hb : s.BaseIs o.base.toNat (clean a))
    (hok : accessCheck s.cur.table.core (coreOf s.latch.n) (addressOf o a) o.bytes false true = .inr tg)
    (hm : s.cur.keepsMarks = true) (huse : use x (addressOf o a) = some r) :
    ∃ e : Held, let t := s.storeOp h o [([], x)] use
      e ∈ t.cur.larder ∧ e.tag = [] ∧ e.isStore = true ∧ e.trap = some { r with deferred := true } ∧ s.KeepsBytes t ∧
        t.portW = s.portW ∧ t.outq = s.outq := by
  obtain ⟨hu, g, hbase⟩ := hb
  let acc := s.storeAcc h o a g tg x
  let u := s.touch 61 (addressOf o a) o.bytes tg
  let e : Held := { id := 0, tag := acc.tag, op := .store acc, arr := acc.arr, trap := some { r with deferred := true } }
  obtain ⟨q, hq⟩ : ∃ q, s.Becomes u { s.cur with stopReq := q } := s.touch_store (addressOf o a) o.bytes tg
  let f := u.recordLine true acc.home acc.size
  have hone : u.storeOne acc (use x (addressOf o a)) = f.pushHeld e := by
    have hbars : u.cur.bars acc.place = false := by rw [hq.cur]; simp [Ctx.bars, hcarry]
    have hholds : u.cur.holdsStore acc.tag = true := by
      rw [hq.cur, Ctx.holdsStore]
      have : ({ s.cur with stopReq := q } : Ctx).keepsMarks = true := hm
      rw [this]; simp
    rw [State.storeOne, hbars, hholds, huse]
    rfl
  have ht := State.storeOp_one hf hlarder hfences hcarry hu hbase hok (.inl hm) (use := use) (x := x)
  rw [hone] at ht
  have hfl : f.cur.larder = [] := by
    have : f.cur.larder = u.cur.larder := by
      simp only [f, State.recordLine, State.cur_onCur]
      split <;> rfl
    rw [this, hq.cur]; exact hlarder
  have hheld : (f.pushHeld e).cur = f.cur.hold1 { e with id := f.uid, seq := f.uid } :=
    State.cur_onCur f fun c => c.hold1 { e with id := f.uid, seq := f.uid }
  have hpl : (f.pushHeld e).latch = s.latch := hq.latch
  have hpr : (f.pushHeld e).cur.toRegs = s.cur.toRegs := by
    rw [hheld]
    exact (u.recordLine_sameRegs true acc.home acc.size).regs.trans (by rw [hq.cur])
  have hpost : (f.pushHeld e).Becomes _ _ := State.postStep_becomes (d := o.stepBytes) (g := g) (a := a) (r := o.base.toNat) (s := f.pushHeld e)
    (by rw [Ctx.aAt, hpr, hpl]; exact hbase)
  rw [← ht] at hpost
  refine ⟨{ e with id := f.uid, seq := f.uid }, ?_, rfl, rfl, rfl, State.KeepsBytes.of_cells (s.storeOp_cells h o _ use), ?_, ?_⟩
  · rw [hpost.cur]
    show _ ∈ (f.pushHeld e).cur.larder
    rw [hheld, Ctx.hold1, hfl]
    exact List.mem_singleton.2 rfl
  · rw [hpost.1]
    show u.portW = s.portW
    rw [hq.1]
  · rw [hpost.1]
    show u.outq = s.outq
    rw [hq.1]

end

/-! ### The poison of stored data -/

theorem State.storeTrapV_clean (s : State) (n : Nat) (v : Vec) (ea : Word) : s.storeTrapV n (clean v) ea = none := by
  simp [State.storeTrapV, clean]

theorem mod_two_pow_ne_zero {w : Nat} {v : BitVec w} {j k : Nat} (hj : j < k) (hv : v.getLsbD j = true) : v.toNat % 2 ^ k ≠ 0 := by
  intro h0
  have hbit : (v.toNat % 2 ^ k).testBit j = true := by
    rw [Nat.testBit_mod_two_pow, decide_eq_true hj, Bool.true_and, BitVec.testBit_toNat, hv]
  simp [h0] at hbit

theorem State.storeTrapV_poison (s : State) {n j : Nat} {x : VVal} (hx : x.f = none) (hj : j < n / 4) (hp : x.p.getLsbD j = true)
    (ea : Word) : s.storeTrapV n x ea = some (s.trapRec .poison ea 1) := by
  simp only [State.storeTrapV, hx, if_neg (mod_two_pow_ne_zero hj hp)]

theorem storesSent : StoresSent := by
  rintro h o s a tg hf hc hb hok i x (⟨v, rfl, hv, rfl⟩ | ⟨v, rfl, hv, rfl⟩)
  · obtain ⟨acc, hacc, hdata, hrest⟩ := store_sent (use := s.storeTrapS) (x := clean v) hf hc hb hok (s.useTrap_clean ..)
    rw [← show s.sSrc o.d.toNat = [([], clean v)] from hv] at hrest
    exact ⟨_, acc, rfl, hacc, hdata, hrest⟩
  · obtain ⟨acc, hacc, hdata, hrest⟩ := store_sent (use := s.storeTrapV o.bytes) (x := clean v) hf hc hb hok (s.storeTrapV_clean ..)
    rw [← show s.vSrc o.d.toNat = [([], clean v)] from hv] at hrest
    exact ⟨_, acc, rfl, hacc, hdata, hrest⟩

theorem storesOfPoison : StoresOfPoison := by
  intro h o s a tg hf hb hl _ hfences hcarry hok i hi
  refine ⟨s.trapRec .poison (addressOf o a) 1, rfl, rfl, rfl, rfl, ?_⟩
  rcases hi with ⟨x, rfl, hx, hp, hxf⟩ | ⟨x, rfl, hx, hxf, j, hj, hp⟩
  · have huse : s.storeTrapS x (addressOf o a) = some (s.trapRec .poison (addressOf o a) 1) := s.useTrap_poison hp hxf _ _ _
    have hex : exec (.st h o) s = .next (s.storeOp h o [([], x)] s.storeTrapS) :=
      congrArg (fun l => Host.Outcome.next (s.storeOp h o l s.storeTrapS)) hx
    rw [hex]
    refine ⟨fun hm => congrArg _ ?_, fun hm => ?_⟩
    · obtain ⟨hu, g, hbase⟩ := hb
      exact State.storeOp_poisoned hf hl hu hbase hok hm huse
    · obtain ⟨e, he⟩ := store_held hf hl hfences hcarry hb hok hm huse
      exact ⟨_, e, rfl, he⟩
  · have huse := s.storeTrapV_poison hxf hj hp (addressOf o a)
    have hex : exec (.vst h o) s = .next (s.storeOp h o [([], x)] (s.storeTrapV o.bytes)) :=
      congrArg (fun l => Host.Outcome.next (s.storeOp h o l (s.storeTrapV o.bytes))) hx
    rw [hex]
    refine ⟨fun hm => congrArg _ ?_, fun hm => ?_⟩
    · obtain ⟨hu, g, hbase⟩ := hb
      exact State.storeOp_poisoned hf hl hu hbase hok hm huse
    · obtain ⟨e, he⟩ := store_held hf hl hfences hcarry hb hok hm huse
      exact ⟨_, e, rfl, he⟩

end Sys2Proof.Machine
end

section
/-! PROOFS. Stores at their home (R144 to R146, R150, R151). -/

namespace Sys2Proof.Machine

open Sys2Proof.Claims (StorePerforms StoresOverPoison)

/-! ### What performing leaves of the state that it stores into -/

theorem State.inRange_congr {s t : State} (h : ∀ k, scratchBytes (t.core k) = scratchBytes (s.core k)) : t.inRange = s.inRange := by
  funext a
  rw [State.inRange, State.inRange, h]

theorem State.freezeEcc_scratchBytes (s : State) (core k : Nat) :
    scratchBytes ((s.freezeEcc core).core k) = scratchBytes (s.core k) := by
  rw [State.freezeEcc, State.core_onCore]
  split
  · next h => rw [h]; rfl
  · rfl

theorem State.correct_scratchBytes (s : State) (home n : Nat) (issuer : Option Nat) (k : Nat) :
    scratchBytes ((s.correct home n issuer).core k) = scratchBytes (s.core k) := by
  unfold State.correct
  dsimp only
  split
  · split
    · rw [State.freezeEcc_scratchBytes, State.freezeEcc_scratchBytes]; rfl
    · rw [State.freezeEcc_scratchBytes]; rfl
  · rfl

theorem State.correct_poison (s : State) (home n : Nat) (issuer : Option Nat) :
    (s.correct home n issuer).mem.poison = s.mem.poison := by
  unfold State.correct
  dsimp only
  split
  · split <;> rfl
  · rfl

theorem State.recordOor_core (s : State) (n : Nat) (wr : Bool) (place core off len ba k : Nat) :
    (s.recordOor n wr place core off len ba).core k = s.core k := by
  unfold State.recordOor
  repeat' split
  all_goals rfl

/-- A store performs by storing its bytes, in a state with the memory, poison and ranges of before. -/
theorem State.performAt_stores (s : State) {a : Acc} (bad : List Bool) (hk : a.kind = .store) :
    ∃ u : State, (s.performAt a bad).1 = u.storeAt a.home a.data bad ∧ u.mem.cells = s.mem.cells ∧ u.mem.poison = s.mem.poison ∧
      u.inRange = s.inRange := by
  rw [State.performAt, hk]
  refine ⟨_, rfl, ?_, ?_, State.inRange_congr fun k => ?_⟩
  · rw [if_pos rfl, State.recordOor_mem, State.correct_cells]
  · rw [if_pos rfl, State.recordOor_mem, State.correct_poison]
  · rw [if_pos rfl, State.recordOor_core, State.correct_scratchBytes]

/-! ### The bytes written -/

/-- An element behind which, from the first on, every address is in range is among those stored. -/
theorem State.getElem?_inPart {α : Type} (s : State) {a i : Nat} {l : List α} (h : ∀ j, j ≤ i → s.inRange (a + j) = true) :
    (s.inPart a l)[i]? = l[i]? := by
  induction l generalizing a i with
  | nil => rfl
  | cons b l ih =>
    rw [State.inPart, if_pos (show s.inRange a = true from h 0 (Nat.zero_le _))]
    cases i with
    | zero => rfl
    | succ i =>
      rw [List.getElem?_cons_succ, List.getElem?_cons_succ]
      refine ih fun j hj => ?_
      have := h (j + 1) (by omega)
      rwa [show a + 1 + j = a + (j + 1) by omega]

theorem State.inPart_all (s : State) {α : Type} {a : Nat} {l : List α} (h : ∀ j, j < l.length → s.inRange (a + j) = true) :
    s.inPart a l = l := by
  refine List.ext_getElem? fun i => ?_
  by_cases hi : i < l.length
  · exact s.getElem?_inPart fun j hj => h j (by omega)
  · have hle : l.length ≤ i := not_lt.1 hi
    rw [List.getElem?_eq_none ((s.inPart_length a l).trans hle), List.getElem?_eq_none hle]

theorem State.get_storeAt {s : State} (hs : s.mem.wf = true) {a i : Nat} {bs : List Byte} (bad : List Bool) (hi : i < bs.length)
    (h : ∀ j, j ≤ i → s.inRange (a + j) = true) : (s.storeAt a bs bad).mem.get (a + i) = bs[i] := by
  have hpart : (s.inPart a bs)[i]? = some bs[i] := (s.getElem?_inPart h).trans (List.getElem?_eq_getElem hi)
  obtain ⟨hlt, heq⟩ := List.getElem?_eq_some_iff.1 hpart
  rw [State.storeAt, Mem.get_store, Mem.get_write a i _ hs hlt, heq]

theorem storePerforms : StorePerforms := by
  intro s a bad hk hm t
  obtain ⟨u, ht, hcells, -, hrange⟩ := s.performAt_stores bad hk
  have hu : u.mem.wf = true := by rw [Mem.wf, hcells]; exact hm
  refine ⟨fun k hk => ?_, fun i hi hin => ?_⟩
  · rw [show t = _ from ht, u.get_storeAt_other a.data bad hk, Mem.get, Mem.get, hcells]
  · rw [show t = _ from ht]
    exact State.get_storeAt hu bad hi (by rwa [hrange])

/-! ### The granules of poison -/

theorem isScratch_granule (k : Nat) : isScratch (granule k) = isScratch k := by
  unfold granule
  split <;> refine decide_eq_decide.2 ?_ <;> unfold scratchBase scratchSpan <;> omega

theorem granuleSize_congr {a b : Nat} (h : isScratch a = isScratch b) : granuleSize a = granuleSize b := by
  rw [granuleSize, h, ← granuleSize]

theorem granule_eq (k : Nat) : granule k = k - k % granuleSize k := by
  unfold granule granuleSize
  split <;> rfl

theorem granuleSize_cases (k : Nat) : granuleSize k = 8 ∨ granuleSize k = 32 := by
  unfold granuleSize
  split
  · exact .inl rfl
  · exact .inr rfl

/-- Of bytes of one kind of place, the granules wholly inside are those that the range covers. -/
theorem mem_wholeGranules {a n : Nat} (h : ∀ j, j < n → isScratch (a + j) = isScratch a) (k : Nat) :
    granule k ∈ wholeGranules a n ↔ a ≤ granule k ∧ granule k + granuleSize k ≤ a + n := by
  have hsize : a ≤ granule k → granule k < a + n → granuleSize k = granuleSize a := fun hlo hhi => by
    refine granuleSize_congr ?_
    rw [← isScratch_granule k, ← h (granule k - a) (by omega), Nat.add_sub_cancel' hlo]
  rw [wholeGranules, List.mem_filter, decide_eq_true_eq]
  constructor
  · rintro ⟨-, hlo, hhi⟩
    have := granuleSize_cases a
    exact ⟨hlo, by rw [hsize hlo (by omega)]; exact hhi⟩
  · rintro ⟨hlo, hhi⟩
    have hk := granuleSize_cases k
    have hz := hsize hlo (by omega)
    refine ⟨?_, hlo, by rw [← hz]; exact hhi⟩
    rw [granules, if_neg (by omega)]
    refine List.mem_map.2 ⟨granule k / granuleSize k - a / granuleSize k, mem_upTo.2 ?_, ?_⟩
    · rw [← hz]
      have := granule_eq k
      rcases hk with h8 | h32
      · rw [h8] at this hhi ⊢; omega
      · rw [h32] at this hhi ⊢; omega
    · rw [granule_eq a, ← hz]
      have := granule_eq k
      rcases hk with h8 | h32
      · rw [h8] at this ⊢; omega
      · rw [h32] at this ⊢; omega

theorem Mem.write_poison (m : Mem) (a : Nat) (bs : List Byte) : (m.write a bs).poison = m.poison := by
  induction bs generalizing m a with
  | nil => rfl
  | cons b bs ih => rw [Mem.write, ih]; rfl

theorem Mem.bad_store_clean (m : Mem) (a : Nat) (bs : List Byte) (k : Nat) :
    (m.store a bs []).bad k = true ↔ m.bad k = true ∧ granule k ∉ wholeGranules a bs.length := by
  simp [Mem.bad, Mem.store, Mem.taint, Mem.clean, Mem.write_poison]

theorem storesOverPoison : StoresOverPoison := by
  intro s a hk hall k g lo
  obtain ⟨u, ht, -, hpoison, hrange⟩ := s.performAt_stores [] hk
  have hpart : u.inPart a.home a.data = a.data := u.inPart_all fun j hj => by rw [hrange]; exact (hall j hj).2
  have hbad : u.mem.bad k = s.mem.bad k := by rw [Mem.bad, hpoison, Mem.bad]
  rw [ht, State.storeAt, hpart, State.inPart, Mem.bad_store_clean, mem_wholeGranules fun j hj => (hall j hj).1, hbad, granule_eq]
  rfl

/-- Settles O21: stores of clean and of poisoned data at issue, and what a store that performs writes and clears. -/
theorem stores : Obligations.Stores := ⟨storesSent, storePerforms, storesOfPoison, storesOverPoison⟩

end Sys2Proof.Machine
end

section
/-! PROOFS. The link instructions (R136, R326, R327, R330 to R332). -/

namespace Sys2Proof.Machine

open Sys2Proof.Claims (linkIssued issuesOnly)

/-! ### A command enters the queue of its wing's engine -/

theorem mem_qIns {α : Type} {isAfter : α → Bool} {x y : α} {l : List α} : y ∈ qIns isAfter x l ↔ y = x ∨ y ∈ l := by
  induction l with
  | nil => simp [qIns]
  | cons z l ih =>
    rw [qIns]
    split
    · simp
    · simp only [List.mem_cons, ih]; tauto

/-- What a context of an enqueued link command counts: the command as outstanding, and a send whose tick is past. -/
def Ctx.Counts (c d : Ctx) : Prop := d = { c with outs := d.outs, lnks := d.lnks, lnksNow := d.lnksNow }

theorem Ctx.Counts.trans {c d e : Ctx} (h : c.Counts d) (k : d.Counts e) : c.Counts e := by
  unfold Ctx.Counts at *
  rw [k, h]

theorem Ctx.Counts.toRegs {c d : Ctx} (h : c.Counts d) : d.toRegs = c.toRegs := by rw [h]

theorem Ctx.lnksCount_counts (d : BitVec 64) (c : Ctx) : c.Counts (Ctx.lnksCount d c) := by
  unfold Ctx.lnksCount
  dsimp only
  repeat' split
  all_goals exact rfl

/-- A queued command stands in its engine's queue with those before it; besides, only its context's counts change. -/
theorem State.enqLink_issues (s : State) (c : LinkCmd) :
    let t := s.enqLink c
    { c with since := s.cycle } ∈ (t.wing (wingOf c.n)).link ∧
    (∀ x ∈ (s.wing (wingOf c.n)).link, x ∈ (t.wing (wingOf c.n)).link) ∧ t.latch = s.latch ∧ t.cores = s.cores ∧
    (∀ m, m ≠ c.n → t.ctx m = s.ctx m) ∧ (s.ctx c.n).Counts (t.ctx c.n) := by
  intro t
  let q := qIns (fun y : LinkCmd => y.since == s.cycle && decide (c.n < y.n)) { c with since := s.cycle } (s.wing (wingOf c.n)).link
  let s1 := (s.setWing (wingOf c.n) { s.wing (wingOf c.n) with link := q }).addOut c.n c.id 3
  have hout : (s.ctx c.n).Counts (s1.ctx c.n) := by
    have hctx : s1.ctx c.n = { s.ctx c.n with outs := (s.ctx c.n).outs ++ [⟨c.id, c.id, 3, 0, false, false, 0⟩] } :=
      State.ctx_onCtx_same ..
    rw [hctx]
    exact rfl
  have hshape : (∃ f : Ctx → Ctx, (∀ d : Ctx, d.Counts (f d)) ∧ t = s1.onCtx c.n f) ∨ t = s1 := by
    by_cases hlate : (c.op = 0 && decide (c.tick.toNat ≤ s.mod.ticks.toNat)) = true
    · exact .inl ⟨Ctx.lnksCount 0x100000000, Ctx.lnksCount_counts _, if_pos hlate⟩
    · exact .inr (if_neg hlate)
  have hlink : (t.wing (wingOf c.n)).link = q := by
    have h1 : (s1.wing (wingOf c.n)).link = q := by
      have : s1.wing (wingOf c.n) = _ := s.wing_setWing (wingOf c.n) (wingOf c.n) { s.wing (wingOf c.n) with link := q }
      rw [this, if_pos rfl]
    rcases hshape with ⟨f, -, ht⟩ | ht <;> rw [ht] <;> exact h1
  have hother : ∀ m, m ≠ c.n → t.ctx m = s.ctx m := fun m hm => by
    have h1 : s1.ctx m = s.ctx m := (State.ctx_onCtx ..).trans (if_neg hm)
    rcases hshape with ⟨f, -, ht⟩ | ht <;> rw [ht]
    · rw [State.ctx_onCtx, if_neg hm, h1]
    · exact h1
  refine ⟨hlink ▸ mem_qIns.2 (.inl rfl), fun x hx => hlink ▸ mem_qIns.2 (.inr hx), ?_, ?_, hother, ?_⟩
  · rcases hshape with ⟨f, -, ht⟩ | ht <;> rw [ht] <;> rfl
  · rcases hshape with ⟨f, -, ht⟩ | ht <;> rw [ht] <;> rfl
  · rcases hshape with ⟨f, hf, ht⟩ | ht <;> rw [ht]
    · rw [State.ctx_onCtx_same]; exact hout.trans (hf _)
    · exact hout

/-- A command of the operation being run, queued from a state in which only cores differ. -/
theorem State.enqLink_linkIssued {s v t : State} {h : Hdr} {c : LinkCmd} (hv : v = { s with cores := v.cores })
    (ht : t = { v.enqLink c with uid := t.uid }) (hn : c.n = s.latch.n) (hba : c.ba = s.latch.ba)
    (harr : c.arr = if h.arr then some h.bn.toNat else none) (hg : c.gone = false) :
    linkIssued s t h { c with since := s.cycle } ∧ t.cores = v.cores := by
  obtain ⟨hmem, hkeep, hlatch, hcores, hother, hcur⟩ := v.enqLink_issues c
  have hcyc : v.cycle = s.cycle := by rw [hv]
  have hwing : v.wing = s.wing := by funext k; rw [hv]; rfl
  have hctx : v.ctx = s.ctx := by funext k; rw [hv]; rfl
  rw [hcyc] at hmem
  rw [hwing] at hkeep
  rw [hctx] at hother hcur
  have htw : t.wing = (v.enqLink c).wing := by funext k; rw [ht]; rfl
  have htc : t.ctx = (v.enqLink c).ctx := by funext k; rw [ht]; rfl
  have hregs : t.cur.toRegs = s.cur.toRegs := by
    have hl : t.latch = s.latch := by rw [ht]; exact hlatch.trans (by rw [hv])
    have : t.cur = (v.enqLink c).ctx c.n := by rw [State.cur, hl, htc, hn]
    rw [this, hcur.toRegs, hn]; rfl
  refine ⟨⟨?_, ?_, hn, hba, harr, hg, ⟨?_, ?_, ?_, ?_, ?_, ?_⟩, ?_⟩, ?_⟩
  · rw [htw, ← hn]; exact hmem
  · rw [htw, ← hn]; exact hkeep
  · rw [ht]
    show (v.enqLink c).mem = s.mem
    rw [State.enqLink_mem, hv]
  · rw [hregs]
  · rw [hregs]
  · rw [hregs]
  · rw [hregs]
  · rw [htc, ← hn]; exact hother
  · rw [hregs]
  · rw [ht]; exact hcores

section
variable {h : Hdr} {o : QOp} {s : State}

/-! ### `ltime` (R326) -/

/-- A scalar result and its arrival, without open literals. -/
theorem State.deliverS_arriveLat_writes (s : State) (h : Hdr) (r lat : Nat) (v : SVal) :
    s.WritesS ((s.deliverS {} r lat [([], v)]).arriveLat {} h lat) h r lat v := by
  have h1 := s.deliverS_becomes r lat v
  have h2 := (s.deliverS {} r lat [([], v)]).arriveLat_becomes h lat
  rw [h1.cur, State.deliverS_uid, State.arrival_latch h lat _ h1.latch] at h2
  exact h1.trans h2

theorem exec_ltime (hf : s.Fires h) (o : QOp) :
    exec (.ltime h o) s = .next ((s.deliverS {} o.d.toNat 2 [([], clean s.mod.ticks)]).arriveLat {} h 2) :=
  congrArg Host.Outcome.next (State.Settled.fires_waitingN hf _)

/-! ### `lsend` (R330) -/

/-- The address lies in own scratch: a KIND 1 entry, or one of KIND 2 that names this core (R136). -/
abbrev State.ownScratch (s : State) (e : TEntry) (a : Word) : Prop := (e.tgt (coreOf s.latch.n) a.toNat).place = 0

theorem State.sendTrap_clean (s : State) (a d : Word) : s.sendTrap (clean a) (clean d) =
    if a.toNat % 64 ≠ 0 then some (s.trapRec .misaligned a 0)
    else if d.toNat % 64 ≠ 0 then some (s.trapRec .misaligned d 0)
    else
      match s.entryAt a, s.entryAt d with
      | some e, some f =>
        if (e.tgt (coreOf s.latch.n) a.toNat).place ≠ 0 ∨ f.kind ≠ 5 then some (s.trapRec .linkArgs 0 0)
        else if !e.p then some (s.trapRec .pageFault a 0)
        else if !f.w then some { s.trapRec .noWrite d 0 with wr := true }
        else none
      | _, _ => some (s.trapRec .linkArgs 0 0) := rfl

theorem State.sendTrap_misaligned {a d : Word} (ha : a.toNat % 64 ≠ 0 ∨ d.toNat % 64 ≠ 0) :
    ∃ r : TrapRec, r.code = .misaligned ∧ s.sendTrap (clean a) (clean d) = some r := by
  rw [State.sendTrap_clean]
  split
  · exact ⟨_, rfl, rfl⟩
  · next h => exact ⟨_, rfl, if_pos (ha.resolve_left h)⟩

section
variable {a d : Word} {e f : TEntry} (ha : a.toNat % 64 = 0) (hd : d.toNat % 64 = 0) (he : s.entryAt a = some e)
  (hf : s.entryAt d = some f)
include ha hd he hf

theorem State.sendTrap_mapped : s.sendTrap (clean a) (clean d) =
    if ¬ s.ownScratch e a ∨ f.kind ≠ 5 then some (s.trapRec .linkArgs 0 0)
    else if !e.p then some (s.trapRec .pageFault a 0)
    else if !f.w then some { s.trapRec .noWrite d 0 with wr := true }
    else none := by
  rw [State.sendTrap_clean, if_neg (not_not.2 ha), if_neg (not_not.2 hd), he, hf]

end

/-- A send with a trap of its operands raises it at its bundle. -/
theorem exec_lsend_traps {a d x : Word} {r : TrapRec} (hf : s.Fires h) (ha : s.AIs o.sa.toNat (clean a)) (hd : s.AIs o.da.toNat (clean d))
    (hx : s.SIs o.d.toNat (clean x)) (hr : s.sendTrap (clean a) (clean d) = some r) :
    exec (.lsend h o) s = .next (s.stat (.trap r)) := by
  show execLsend h o s = _
  rw [execLsend, hf.guarded, ha, hd, hx, tagPair_one, tagPair_one]
  simp [hr, tagAnd, State.withTraps_raises]

theorem exec_lsend_sends {a d x : Word} (hf : s.Fires h) (hfence : s.cur.fenced 3 = []) (ha : s.AIs o.sa.toNat (clean a))
    (hd : s.AIs o.da.toNat (clean d)) (hx : s.SIs o.d.toNat (clean x)) (hr : s.sendTrap (clean a) (clean d) = none)
    (hroom : (s.wing (wingOf s.latch.n)).link.length < 32) :
    exec (.lsend h o) s = .next { s.enqLink (s.sendCmd h o [] (clean a) (clean d) (clean x)) with uid := s.uid + 1 } := by
  show execLsend h o s = _
  rw [execLsend, hf.guarded, ha, hd, hx, tagPair_one, tagPair_one]
  simp [hr, tagAnd, State.withTraps, State.withRoom, State.raiseAll, hfence, State.linkRoom, hroom, State.sendAll]

/-! ### Receives (R331, R332) -/

/-- The command of a receive. -/
def State.recvCmd (s : State) (h : Hdr) (o : QOp) (op dst src : Nat) (tick : Word) (timed : Bool) : LinkCmd :=
  { id := s.uid, n := s.latch.n, op := op, dst := dst, src := src, tick := tick, slot := o.slotNo, flits := o.units,
    fmt := s.cur.fmtAt s.latch.ic, timed := timed, dueAt := s.latch.ic + max 1 o.lof.toNat,
    arr := if h.arr then some h.bn.toNat else none, ba := s.latch.ba, scy := s.latch.scy, after := s.cur.fenced 3 }

theorem State.receive_unowned (ho : (s.core (coreOf s.latch.n)).owns s.latch.n (o.xs.toNat % 8) = false) (op dst src : Nat)
    (tick : Word) (timed : Bool) : s.receive h o op dst src tick timed = s.stat (.trap (s.trapRec .linkArgs 0 0)) := by
  unfold State.receive
  rw [show (s.core (coreOf s.latch.n)).owns s.latch.n o.slotNo = false from ho]
  rfl

/-- A receive of an owned slot takes its porch place and its queue entry. -/
theorem State.receive_issues (hfence : s.cur.fenced 3 = [])
    (ho : (s.core (coreOf s.latch.n)).owns s.latch.n (o.xs.toNat % 8) = true) (hporch : s.porchRoom 1 = true)
    (hroom : (s.wing (wingOf s.latch.n)).link.length < 32) (op dst src : Nat) (tick : Word) (timed : Bool) :
    let t := s.receive h o op dst src tick timed
    linkIssued s t h { s.recvCmd h o op dst src tick timed with since := s.cycle } ∧
      (⟨s.uid, s.latch.n, s.latch.ic + max 1 o.lof.toNat, false, false, false, []⟩ : PorchE) ∈ (t.core (coreOf s.latch.n)).porch := by
  intro t
  let c := s.recvCmd h o op dst src tick timed
  let p : PorchE := ⟨s.uid, s.latch.n, s.latch.ic + max 1 o.lof.toNat, false, false, false, []⟩
  let v := s.onCore (coreOf s.latch.n) (fun d => { d with porch := d.porch ++ [p] })
  have ht : t = { v.enqLink c with uid := s.uid + 1 } := by
    refine (if_neg ?_).trans (if_neg ?_)
    · rw [show (s.core (coreOf s.latch.n)).owns s.latch.n o.slotNo = true from ho]
      exact Bool.false_ne_true
    · simp [hporch, hfence, State.linkRoom, hroom]
  obtain ⟨hissued, hcores⟩ := State.enqLink_linkIssued (s := s) (v := v) (t := t) (h := h) (c := c) rfl (by rw [ht]) rfl rfl rfl rfl
  refine ⟨hissued, ?_⟩
  have hcore : t.core (coreOf s.latch.n) = v.core (coreOf s.latch.n) := by rw [State.core, State.core, hcores]
  rw [hcore, State.core_onCore_same]
  exact List.mem_append_right _ (List.mem_singleton.2 rfl)

theorem exec_lrecv {x : Word} (hf : s.Fires h) (hx : s.SIs o.d.toNat (clean x)) :
    exec (.lrecv h o) s = .next (s.receive h o 1 0 0 x (x != 0)) := by
  show execLrecv h o s = _
  rw [execLrecv, hx]
  exact congrArg _ (hf.toSettled.waiting _ _ (manyAlts_single _))

/-! ### `lred` (R332) -/

theorem State.redPlace_clean {a : Word} {e : TEntry} (he : s.entryAt a = some e) : s.redPlace (clean a) =
    if a.toNat % 64 ≠ 0 ∨ ¬ s.ownScratch e a then some (s.trapRec .linkArgs 0 0)
    else if !e.p then some (s.trapRec .pageFault a 0) else none := by
  rw [State.redPlace, s.useTrap_clean]
  dsimp only
  rw [show s.entryAt (clean a).v = some e from he]
  refine if_congr ?_ rfl rfl
  rw [Bool.or_eq_true, decide_eq_true_iff, decide_eq_true_iff]
  rfl

section
variable {a d : Word} (hf : s.Fires h) (hd : s.AIs o.da.toNat (clean d)) (ha : s.AIs o.sa.toNat (clean a))
include hf hd ha

theorem exec_lred_traps {r : TrapRec} (hr : firstTrap [s.redPlace (clean d), s.redPlace (clean a)] = some r) :
    exec (.lred h o) s = .next (s.stat (.trap r)) := by
  show execLred h o s = _
  rw [execLred, hd, ha]
  refine congrArg _ ((hf.toSettled.waiting _ _ (manyAlts_pair _ _)).trans ?_)
  dsimp only [one]
  rw [hr]

theorem exec_lred_receives (hpd : s.redPlace (clean d) = none) (hpa : s.redPlace (clean a) = none) :
    exec (.lred h o) s = .next (
      let md := (s.cur.fmtAt s.latch.ic).toNat / 2 ^ 16 % 16
      if md ≠ 4 ∧ md ≠ 5 ∧ md ≠ 10 then s.stat (.trap (s.trapRec .linkArgs 0 0))
      else s.receive h o 2 d.toNat a.toNat 0 false) := by
  show execLred h o s = _
  rw [execLred, hd, ha]
  refine congrArg _ ((hf.toSettled.waiting _ _ (manyAlts_pair _ _)).trans ?_)
  dsimp only [one]
  rw [hpd, hpa]
  rfl

end

end

/-- The matrix format of an `FMT` image, as the field and as the instruction reads it. -/
theorem fmt_md_eq (x : BitVec 32) (v : BitVec 4) : x.extractLsb' 16 4 = v ↔ x.toNat / 2 ^ 16 % 16 = v.toNat := by
  rw [← BitVec.toNat_inj, BitVec.extractLsb'_toNat, Nat.shiftRight_eq_div_pow]

/-- Settles O35: the tick count, and what a send, a receive and a reduction queue or raise. -/
theorem linkCommands : Obligations.LinkCommands := by
  intro h o s hf hfence traps room due entry own
  refine ⟨⟨_, exec_ltime hf o, s.deliverS_arriveLat_writes h o.d.toNat 2 _⟩, fun a d x ha hd hx => ⟨?_, ?_⟩,
    fun x hx => ⟨fun ho => ?_, fun ho hporch hroom => ?_⟩, fun d a e f hd ha he hf' => ⟨?_, ?_⟩⟩
  · intro hmis
    obtain ⟨r, hc, hr⟩ := State.sendTrap_misaligned (s := s) hmis
    exact ⟨r, hc, exec_lsend_traps hf ha hd hx hr⟩
  · intro e f ha64 hd64 he hf'
    have hmap := State.sendTrap_mapped ha64 hd64 he hf'
    refine ⟨fun hbad => ?_, fun hown hkind hp hw => ?_, fun hown hkind hp hw hroom => ?_⟩
    · exact ⟨_, rfl, exec_lsend_traps hf ha hd hx (hmap.trans (if_pos hbad))⟩
    · exact ⟨_, rfl, exec_lsend_traps hf ha hd hx (hmap.trans (by simp [show s.ownScratch e a from hown, hkind, hp, hw]; rfl))⟩
    · let c := s.sendCmd h o [] (clean a) (clean d) (clean x)
      have hr : s.sendTrap (clean a) (clean d) = none := hmap.trans (by simp [show s.ownScratch e a from hown, hkind, hp, hw])
      refine ⟨_, { c with since := s.cycle }, exec_lsend_sends hf hfence ha hd hx hr hroom,
        (State.enqLink_linkIssued (s := s) (v := s) (c := c) rfl rfl rfl rfl rfl rfl).1, rfl, rfl, rfl, rfl, rfl, rfl⟩
  · exact ⟨_, rfl, (exec_lrecv hf hx).trans (congrArg _ (State.receive_unowned ho ..))⟩
  · have htimed : (x != 0) = decide (x ≠ 0) := Bool.eq_iff_iff.2 (by rw [bne_iff_ne, decide_eq_true_iff])
    obtain ⟨hissued, hmem⟩ := State.receive_issues (h := h) hfence ho hporch hroom 1 0 0 x (x != 0)
    exact ⟨_, _, exec_lrecv hf hx, hissued, rfl, rfl, rfl, htimed, rfl, rfl, hmem⟩
  · intro hbad
    have hr : s.redPlace (clean d) = some (s.trapRec .linkArgs 0 0) := (State.redPlace_clean he).trans (if_pos hbad)
    exact ⟨_, rfl, exec_lred_traps hf hd ha (by rw [hr]; rfl)⟩
  · intro hd64 hod ha64 hoa hep hfp md
    have hpd : s.redPlace (clean d) = none := (State.redPlace_clean he).trans (by simp [hd64, show s.ownScratch e d from hod, hep])
    have hpa : s.redPlace (clean a) = none := (State.redPlace_clean hf').trans (by simp [ha64, show s.ownScratch f a from hoa, hfp])
    have hexec := exec_lred_receives hf hd ha hpd hpa
    have hmd : ∀ v : BitVec 4, md = v ↔ (s.cur.fmtAt s.latch.ic).toNat / 2 ^ 16 % 16 = v.toNat := fmt_md_eq (s.cur.fmtAt s.latch.ic)
    refine ⟨fun h4 h5 h10 => ?_, fun hm ho hporch hroom => ?_⟩
    · have hbad : (s.cur.fmtAt s.latch.ic).toNat / 2 ^ 16 % 16 ≠ 4 ∧ (s.cur.fmtAt s.latch.ic).toNat / 2 ^ 16 % 16 ≠ 5 ∧
          (s.cur.fmtAt s.latch.ic).toNat / 2 ^ 16 % 16 ≠ 10 :=
        ⟨fun h => h4 ((hmd 4).2 h), fun h => h5 ((hmd 5).2 h), fun h => h10 ((hmd 10).2 h)⟩
      exact ⟨_, rfl, hexec.trans (congrArg _ (if_pos hbad))⟩
    · obtain ⟨hissued, -⟩ := State.receive_issues (h := h) hfence ho hporch hroom 2 d.toNat a.toNat 0 false
      have hgood : ¬ ((s.cur.fmtAt s.latch.ic).toNat / 2 ^ 16 % 16 ≠ 4 ∧ (s.cur.fmtAt s.latch.ic).toNat / 2 ^ 16 % 16 ≠ 5 ∧
          (s.cur.fmtAt s.latch.ic).toNat / 2 ^ 16 % 16 ≠ 10) := fun ⟨h4, h5, h10⟩ => by
        rcases hm with hm | hm | hm
        · exact h4 ((hmd 4).1 hm)
        · exact h5 ((hmd 5).1 hm)
        · exact h10 ((hmd 10).1 hm)
      exact ⟨_, _, hexec.trans (congrArg _ (if_neg hgood)), hissued, rfl, rfl, rfl, rfl, rfl, rfl⟩

end Sys2Proof.Machine
end

section
/-! PROOFS. Microwords of pointers, counters and switches, and of tiles (R198, R199, R219, R222, R223). -/

namespace Sys2Proof.Machine

open Sys2Proof.Claims (goesOn newA newB afterDrain MicrowordsOfPointers MicrowordsOfTiles)

/-! ### A word that goes on -/

theorem Routine.advance_of_goesOn {r y : Routine} {le : Bool} (h : goesOn r y le) : r.advance le = some y := by
  rcases h with ⟨rfl, hlt, rfl⟩ | ⟨a, n, l, rfl, hl, ⟨hn, hlt, rfl⟩ | ⟨hn, hlt, rfl⟩⟩
  · simp [Routine.advance, hlt]
  · simp [Routine.advance, hl, hn, hlt]
  · simp [Routine.advance, hl, not_le.2 hn, hlt]

theorem State.uopDone_goesOn (s : State) {r y : Routine} {le : Bool} (h : goesOn r y le) (cost : Nat) :
    s.uopDone r le cost = s.setRoutine (coreOf r.n) { y with busy := cost } := by
  rw [State.uopDone, Routine.advance_of_goesOn h]

section
variable {s : State} {r : Routine} (hr : s.evRoutine = some r)
include hr

theorem State.uopPlain_goesOn {u : UopArg} {f : Routine → Routine} {y : Routine} (h : goesOn (f r) y u.le) :
    s.uopPlain u f = s.setRoutine (coreOf (f r).n) { y with busy := 1 } := by
  rw [State.uopPlain, hr]
  exact s.uopDone_goesOn h 1

variable {α : Type} {x : Routine → Pipe α} {f : State → Routine → α → State}

theorem State.uopPipe_ok {s1 : State} {r1 : Routine} {a : α} (h : x r = .ok s1 r1 a) : s.uopPipe x f = f s1 r1 a := by
  rw [State.uopPipe, hr]
  dsimp only
  rw [h]

theorem State.uopPipe_stop {t : TrapRec} (h : x r = .stop t) : s.uopPipe x f = s.killRoutine (coreOf r.n) r t := by
  rw [State.uopPipe, hr]
  dsimp only
  rw [h]

end

/-! ### Pointers -/

theorem Routine.advA_eq (r : Routine) {mode : Nat} (hm : mode < 4) (imm : BitVec 32) : r.advA mode imm =
    { r with pa := newA r mode imm, ka := 0, ra := if mode = 2 then newA r 2 imm else if mode = 3 then r.ora else r.ra } := by
  interval_cases mode <;> rfl

theorem Routine.advB_eq (r : Routine) {mode : Nat} (hm : mode < 4) (imm : BitVec 32) : r.advB mode imm =
    { r with pb := newB r mode imm, kb := 0, rb := if mode = 2 then newB r 2 imm else if mode = 3 then r.orb else r.rb } := by
  interval_cases mode <;> rfl

/-! ### Windows (R199) -/

/-- The windows behind cycle `c` of an array that the cores share in turn, or that is fused. -/
def LaterWindow (fused : Bool) (k c w : Nat) : Prop := c < w ∧ w % 4 = 0 ∧ (fused = true ∨ w / 4 % 2 = k % 2)

theorem nextWindow_later (fused : Bool) (k c : Nat) : LaterWindow fused k c (nextWindow fused k c) := by
  unfold LaterWindow nextWindow
  dsimp only
  split
  · next hf => exact ⟨by omega, by omega, .inl hf⟩
  · split
    · exact ⟨by omega, by omega, .inr (by omega)⟩
    · exact ⟨by omega, by omega, .inr (by omega)⟩

theorem nextWindow_le {fused : Bool} {k c w : Nat} (h : LaterWindow fused k c w) : nextWindow fused k c ≤ w := by
  obtain ⟨hlt, h4, hown⟩ := h
  unfold nextWindow
  dsimp only
  split
  · omega
  · next hf =>
    have := hown.resolve_left hf
    split <;> omega

theorem microwordsOfPointers : MicrowordsOfPointers := by
  intro u s r hr moves mode imm
  have hmode : mode < 4 := (u.arg.extractLsb' 55 2).isLt
  have plain : ∀ {i : UopArg → Instr} {f : Routine → Routine} {x : Routine}, exec (i u) s = .next (s.uopPlain u f) → f r = x →
      x.n = r.n → moves i x := fun hx hf hn y hy => by
    subst hf
    rw [hx, State.uopPlain_goesOn hr hy, hn]
  refine ⟨plain rfl rfl rfl, plain rfl (r.advA_eq hmode imm) rfl, plain rfl (r.advB_eq hmode imm) rfl, plain rfl rfl rfl,
    plain rfl rfl rfl, plain rfl rfl rfl, plain rfl rfl rfl, ?_, fun hlen y hy => ?_, fun hlen => ?_, ?_⟩
  · exact ⟨_, nextWindow_later _ _ _, fun _ hw => nextWindow_le hw, plain rfl rfl rfl⟩
  · show execUopLoopu u s = _
    rw [execUopLoopu, hr]
    exact congrArg _ ((if_neg (not_le.2 hlen)).trans (s.uopDone_goesOn hy 1))
  · show execUopLoopu u s = _
    rw [execUopLoopu, hr]
    exact congrArg _ (if_pos hlen)
  · intro a b ok
    refine ⟨fun ha hb y hy => ?_, fun hbad => ?_⟩
    · exact congrArg _ ((State.uopPipe_ok hr (if_pos (by simp only [Bool.and_eq_true, decide_eq_true_iff]; exact ⟨ha, hb⟩))).trans
        (s.uopDone_goesOn hy 1))
    · refine congrArg _ (State.uopPipe_stop hr (if_neg fun h => hbad ?_))
      rw [Bool.and_eq_true, decide_eq_true_iff, decide_eq_true_iff] at h
      exact h

/-! ### Tiles -/

/-- A tile beyond the storage stops the words that use it (R223). -/
theorem State.tileTrap_out {s : State} {r : Routine} (h : 16 * (s.core (coreOf r.n)).accg.toNat ≤ r.t) :
    s.tileTrap r = some (r.trap .accRange 0) := if_pos h

theorem State.tileTrap_in {s : State} {r : Routine} (h : ¬ 16 * (s.core (coreOf r.n)).accg.toNat ≤ r.t) : s.tileTrap r = none :=
  if_neg h

theorem mget_filter_key {α : Type} (d : α) (keep : Nat → Bool) (m : TMap α) (i : Nat) :
    mget d (m.filter fun e => keep e.1) i = if keep i then mget d m i else d := by
  induction m with
  | nil => simp [mget]
  | cons e m ih =>
    obtain ⟨k, a⟩ := e
    rw [List.filter_cons]
    by_cases hik : i = k
    · subst hik
      by_cases hk : keep i = true <;> simp [mget, hk, ih]
    · by_cases hk : keep k = true <;> simp [mget, hk, ih, hik]

/-- A cleared tile has empty rows, every other tile its own (R222). -/
theorem Core.mget_clearTile (d : Core) (t i : Nat) :
    mget ({} : AccRow) (d.clearTile t).acc i = if i / 32 = t then {} else mget {} d.acc i := by
  refine (mget_filter_key {} (fun j => j / 32 != t) d.acc i).trans ?_
  by_cases h : i / 32 = t <;> simp [h]

theorem Routine.stepA_n (r : Routine) (b : Bool) : (r.stepA b).n = r.n := by
  unfold Routine.stepA
  repeat' split
  all_goals rfl

theorem Routine.stepB_n (r : Routine) (b : Bool) : (r.stepB b).n = r.n := by
  unfold Routine.stepB
  repeat' split
  all_goals rfl

theorem Routine.drained_eq (r : Routine) (u : UopArg) : r.drained u = afterDrain r u := by
  have hmode : u.f 55 2 < 4 := (u.arg.extractLsb' 55 2).isLt
  unfold Routine.drained afterDrain
  change _ = (if u.f 55 2 = 1 then _ else if u.f 55 2 = 2 then _ else _)
  generalize u.f 55 2 = m at *
  interval_cases m <;> rfl

theorem Routine.drained_n (r : Routine) (u : UopArg) : (r.drained u).n = r.n := by
  unfold Routine.drained
  dsimp only
  split <;> rfl

/-- A word goes on with the routine that its pipe leaves. -/
theorem microwordsOfTiles : MicrowordsOfTiles := by
  intro u s r y hr k out kills
  refine ⟨fun hout => ⟨?_, ?_, ?_⟩, fun hin hy => ?_, fun s1 r1 hstep hy => ?_, fun s1 r1 n hdrain hlt => ?_,
    fun s1 r1 n hdrain hle hy => ?_, fun hy => ?_, ?_⟩
  · refine congrArg _ (State.uopPipe_stop hr ?_)
    rw [State.stepPipe, State.tileTrap_out hout]
  · refine congrArg _ (State.uopPipe_stop hr ?_)
    rw [State.tileTrap_out hout]
  · refine congrArg _ (State.uopPipe_stop hr ?_)
    rw [State.drainPipe, State.tileTrap_out hout]
  · have hexec : exec (.uopClr u) s = .next ((s.onCore k fun d => d.clearTile r.t).setRoutine k { y with busy := 1 }) :=
      congrArg _ ((State.uopPipe_ok hr (by rw [State.tileTrap_in hin])).trans (State.uopDone_goesOn _ hy 1))
    refine ⟨_, hexec, rfl, fun _ => rfl, fun i => ?_⟩
    rw [State.setRoutine, State.core_onCore_same, State.core_onCore_same]
    exact Core.mget_clearTile _ _ i
  · refine congrArg _ ((State.uopPipe_ok hr hstep).trans ((State.uopDone_goesOn _ hy 1).trans ?_))
    dsimp only
    rw [Routine.stepB_n, Routine.stepA_n]
  · exact congrArg _ ((State.uopPipe_ok hr hdrain).trans (if_pos hlt))
  · refine congrArg _ ((State.uopPipe_ok hr hdrain).trans ((if_neg (not_lt.2 hle)).trans ?_))
    rw [State.uopDone_goesOn _ (r1.drained_eq u ▸ hy) n, Routine.drained_n]
  · show execUopArr u s = _
    rw [execUopArr, hr]
    exact congrArg _ (State.uopDone_goesOn _ hy 1)
  · show execUopEnd u s = _
    rw [execUopEnd, hr]

end Sys2Proof.Machine
end

section
/-! PROOFS. A drain into own scratch (R145, R199, R219, R222). -/

namespace Sys2Proof.Machine

open Sys2Proof.Claims (goesOn afterDrain TilesDrained)

/-! ### Homes in a scratchpad -/

theorem isScratch_scratchAt {c : Nat} (h : c < 96) (off : Nat) : isScratch (scratchAt c off) = true := by
  refine decide_eq_true ?_
  unfold scratchAt scratchHome scratchBase scratchSpan
  split <;> omega

theorem isDevice_of_isScratch {a : Nat} (h : isScratch a = true) : isDevice a = false := by
  have hlo := (of_decide_eq_true h).1
  refine decide_eq_false ?_
  unfold deviceSize
  unfold scratchBase at hlo
  omega

theorem lt_of_isScratch {a : Nat} (h : isScratch a = true) : a < 2 ^ 48 := by
  have hhi := (of_decide_eq_true h).2
  unfold scratchBase scratchSpan at hhi
  omega

theorem State.ownHome_of_lt (s : State) {a : Nat} (h : a < 2 ^ 48) : s.ownHome a = a := by
  rw [State.ownHome, decide_eq_false (not_le.2 h), Bool.false_and]
  rfl

theorem coreOf_lt (n : Nat) : coreOf n < 96 := by
  unfold coreOf
  omega

theorem TEntry.isScratch_home {e : TEntry} (hk : e.kind = 1) (n ea : Nat) : isScratch (e.tgt (coreOf n) ea).home = true := by
  rw [TEntry.tgt, hk]
  exact isScratch_scratchAt (coreOf_lt n) _

/-! ### The access of one element -/

/-- An element of `n` bytes through a present and writable entry of own scratch that names no tile in move. -/
structure OwnElement (tab : TMap TEntry) (n ea : Nat) (e : TEntry) : Prop where
  lt : ea < 2 ^ 48
  aligned : ea % n = 0
  entry : tLookup tab ea = some e
  present : e.p = true
  writable : e.w = true
  kind : e.kind = 1
  stays : e.mv = false

theorem OwnElement.tgt_mv {tab : TMap TEntry} {n ea : Nat} {e : TEntry} (h : OwnElement tab n ea e) (core a : Nat) :
    (e.tgt core a).mv = false := by
  rw [TEntry.tgt, h.kind]
  exact h.stays

theorem State.engWay_own {s : State} {m n ea : Nat} {e : TEntry} (h : OwnElement (s.ctx m).table.eng n ea e) :
    s.engWay m ea n true = .ok (e.tgt (coreOf m) ea) ea 0 := by
  have hea : (BitVec.ofNat 64 ea).toNat = ea := by
    rw [BitVec.toNat_ofNat]
    exact Nat.mod_eq_of_lt (h.lt.trans (by decide))
  have hcheck : accessCheck (s.ctx m).table.eng (coreOf m) (BitVec.ofNat 64 ea) n false true = .inr (e.tgt (coreOf m) ea) := by
    rw [accessCheck_mapped _ (by rw [hea]; exact h.aligned) (by rw [hea]; exact h.entry), hea]
    simp [h.present, h.writable]
  rw [State.engWay, wayGo, hcheck]
  simp [h.tgt_mv]

/-- Such an element is written where its entry places it; at most the record of the routine changes. -/
theorem State.pipeWay_own {s : State} {r : Routine} {n ea : Nat} {e : TEntry} (h : OwnElement (s.ctx r.n).table.eng n ea e) :
    ∃ b, s.pipeWay r 2 ea n true = .ok s (r.oor b) (e.tgt (coreOf r.n) ea) := by
  have hs := TEntry.isScratch_home h.kind r.n ea
  have hlt := lt_of_isScratch hs
  have hown := s.ownHome_of_lt hlt
  have haddr : addr64 ea = ea := Nat.mod_eq_of_lt (h.lt.trans (by decide))
  let t := e.tgt (coreOf r.n) ea
  refine ⟨decide (t.place ≤ 2) && (s.firstOor t.core t.off n).isSome, ?_⟩
  rw [State.pipeWay, haddr, State.engWay_own h]
  dsimp only
  rw [hown, State.moveBlocks, isDevice_of_isScratch hs, State.refused, if_pos hlt]
  rfl

/-! ### What a drain changes of its routine -/

/-- The same routine but for its drained rows and its provenance record. -/
def Routine.Drains (r x : Routine) : Prop := x = { r with drow := x.drow, row := x.row, prov := x.prov, provK := x.provK }

theorem Routine.Drains.refl (r : Routine) : r.Drains r := rfl

theorem Routine.Drains.trans {r x y : Routine} (h : r.Drains x) (k : x.Drains y) : r.Drains y := by
  unfold Routine.Drains at *
  rw [k, h]

/-- Only the provenance record changes. -/
def Routine.Recorded (r x : Routine) : Prop := x = { r with prov := x.prov, provK := x.provK }

theorem Routine.Recorded.trans {r x y : Routine} (h : r.Recorded x) (k : x.Recorded y) : r.Recorded y := by
  unfold Routine.Recorded at *
  rw [k, h]

theorem Routine.Recorded.drains {r x : Routine} (h : r.Recorded x) : r.Drains x := by
  unfold Routine.Recorded at h
  rw [h]
  rfl

theorem Routine.oor_recorded (r : Routine) (b : Bool) : r.Recorded (r.oor b) := by
  unfold Routine.oor
  split <;> rfl

theorem Routine.note_recorded (r : Routine) (e : PEv) : r.Recorded (r.note e) := by
  unfold Routine.note
  split <;> rfl

theorem Routine.notes_recorded (r : Routine) (es : List PEv) : r.Recorded (r.notes es) := by
  induction es generalizing r with
  | nil => exact rfl
  | cons e es ih => exact (r.note_recorded e).trans (ih _)

/-! ### The writes of a row -/

/-- The write of one element at the array's place at the port (R145). -/
def Put.write (r : Routine) (x : Put) : PortW :=
  let a : Acc := { id := r.id, n := r.n, kind := .store, seq := r.id, place := x.t.place, home := x.t.home, off := x.t.off,
                   size := x.bs.length, data := x.bs, dst := .engine, ba := r.ba }
  ⟨arrayRank (coreOf r.n), a, x.bs.map (fun _ => x.bad), false⟩

/-- The state with writes added at the ports. -/
def State.wrote (s : State) (ws : List PortW) : State := { s with portW := s.portW ++ ws }

theorem State.wrote_wrote (s : State) (ws xs : List PortW) : (s.wrote ws).wrote xs = s.wrote (ws ++ xs) := by
  rw [State.wrote, State.wrote, State.wrote, List.append_assoc]

theorem State.putAll_own {r : Routine} {ps : List Put} (h : ∀ x ∈ ps, isScratch x.t.home = true) (s : State) :
    s.putAll r ps = s.wrote (ps.map (Put.write r)) := by
  induction ps generalizing s with
  | nil => simp [State.putAll, State.wrote]
  | cons x ps ih =>
    have hs := h x (List.mem_cons_self ..)
    have hwrite : s.engWrite r.n r.id (arrayRank (coreOf r.n)) x.t.place x.t.home x.t.off r.ba x.bs (x.bs.map fun _ => x.bad) false =
        s.wrote [x.write r] := by
      rw [State.engWrite, s.ownHome_of_lt (lt_of_isScratch hs)]
      exact if_pos hs
    rw [State.putAll, hwrite, ih fun y hy => h y (List.mem_cons_of_mem _ hy), State.wrote_wrote]
    rfl

/-- The puts of elements at offsets of the drain's pointer, each through its entry. -/
def putsOf (k pd e : Nat) (off : Nat → Nat) (en : Nat → TEntry) (xs : List (Nat × Nat × Bool)) : List Put :=
  xs.map fun x => ⟨(en x.1).tgt k (pd + off x.1), toBytes x.2.1 e, x.2.2⟩

theorem pipePuts_own {s : State} {off : Nat → Nat} {e : Nat} {en : Nat → TEntry} {xs : List (Nat × Nat × Bool)} {r : Routine}
    (h : ∀ x ∈ xs, OwnElement (s.ctx r.n).table.eng e (r.pd + off x.1) (en x.1)) :
    ∃ r1, r.Recorded r1 ∧ pipePuts off (fun r => r.pd) e xs s r = .ok s r1 (putsOf (coreOf r.n) r.pd e off en xs) := by
  induction xs generalizing r with
  | nil => exact ⟨r, rfl, rfl⟩
  | cons x xs ih =>
    obtain ⟨i, v, b⟩ := x
    obtain ⟨o, hway⟩ := State.pipeWay_own (h _ (List.mem_cons_self ..))
    have hrec := r.oor_recorded o
    have hn : (r.oor o).n = r.n := by rw [hrec]
    have hpd : (r.oor o).pd = r.pd := by rw [hrec]
    obtain ⟨r1, hr1, hputs⟩ := ih (r := r.oor o) fun y hy => by
      rw [hn, hpd]
      exact h y (List.mem_cons_of_mem _ hy)
    refine ⟨r1, hrec.trans hr1, ?_⟩
    rw [pipePuts, hway]
    dsimp only [Pipe.bind]
    rw [hputs, hn, hpd]
    rfl

/-! ### One row -/

/-- The elements of row `m` of tile T as they are put, without Q. -/
def State.rowPuts (s : State) (r : Routine) (en : Nat → TEntry) (m : Nat) : List Put :=
  let row : AccRow := mget {} (s.core (coreOf r.n)).acc (32 * r.t + m)
  putsOf (coreOf r.n) r.pd (mdSize r.md) (fun i => m * r.ldb + i * mdSize r.md) en
    (((upTo 0 32).zip (row.words.map (drainElem r))).map fun z => (z.1, z.2.1, row.p.getLsbD z.1))

/-- The writes of row `m`. -/
def State.rowWrites (s : State) (r : Routine) (en : Nat → TEntry) (m : Nat) : List PortW := (s.rowPuts r en m).map (Put.write r)

/-- A row without Q in a format of R219: its elements are placed, put, and their events noted. -/
theorem State.drainRow_plain (s : State) {r : Routine} (hmd : r.md ≠ 10) (m : Nat) :
    let row : AccRow := mget {} (s.core (coreOf r.n)).acc (32 * r.t + m)
    ∃ es, s.drainRow r false m = (pipePuts (fun i => m * r.ldb + i * mdSize r.md) (fun r => r.pd) (mdSize r.md)
      (((upTo 0 32).zip (row.words.map (drainElem r))).map fun z => (z.1, z.2.1, row.p.getLsbD z.1)) s r).bind
        fun s r ps => .ok (s.putAll r ps) (r.notes es) () := by
  unfold State.drainRow
  simp only [decide_eq_false hmd, Bool.false_and, Bool.or_false, Bool.false_eq_true, if_false]
  exact ⟨_, rfl⟩

/-- A row of elements in own scratch is written whole, and only the record of the routine changes. -/
theorem State.drainRow_own {s : State} {r : Routine} {en : Nat → TEntry} {m : Nat} (hmd : r.md ≠ 10)
    (h : ∀ i, i < 32 → OwnElement (s.ctx r.n).table.eng (mdSize r.md) (r.pd + (m * r.ldb + i * mdSize r.md)) (en i)) :
    ∃ r1, r.Recorded r1 ∧ s.drainRow r false m = .ok (s.wrote (s.rowWrites r en m)) r1 () := by
  let row : AccRow := mget {} (s.core (coreOf r.n)).acc (32 * r.t + m)
  let xs := ((upTo 0 32).zip (row.words.map (drainElem r))).map fun z => (z.1, z.2.1, row.p.getLsbD z.1)
  have hlt : ∀ x ∈ xs, x.1 < 32 := fun x hx => by
    obtain ⟨z, hz, rfl⟩ := List.mem_map.1 hx
    have := mem_upTo.1 (List.of_mem_zip hz).1
    omega
  obtain ⟨r1, hr1, hputs⟩ := pipePuts_own (s := s) (r := r) (off := fun i => m * r.ldb + i * mdSize r.md) (xs := xs)
    fun x hx => h x.1 (hlt x hx)
  have hscratch : ∀ x ∈ s.rowPuts r en m, isScratch x.t.home = true := fun x hx => by
    obtain ⟨z, hz, rfl⟩ := List.mem_map.1 hx
    exact TEntry.isScratch_home (h z.1 (hlt z hz)).kind r.n _
  have hwrite : Put.write r1 = Put.write r := by rw [hr1]; rfl
  obtain ⟨es, hrow⟩ := s.drainRow_plain hmd m
  refine ⟨_, hr1.trans (r1.notes_recorded es), ?_⟩
  rw [hrow, hputs]
  show Pipe.ok (s.putAll r1 (s.rowPuts r en m)) _ _ = _
  rw [State.putAll_own hscratch s, hwrite]
  rfl

/-! ### The rows of a tile -/

section
variable {s : State} {r : Routine} {en : Nat → Nat → TEntry} (hmd : r.md ≠ 10)
  (hown : ∀ m i, m < 32 → i < 32 → OwnElement (s.ctx r.n).table.eng (mdSize r.md) (r.pd + (m * r.ldb + i * mdSize r.md)) (en m i))
include hmd hown

/-- The writes of a row do not depend on the rows before it. -/
theorem State.drainRow_after {x : Routine} (hx : r.Drains x) {m : Nat} (hm : m < 32) (ws : List PortW) :
    ∃ x1, x.Recorded x1 ∧ (s.wrote ws).drainRow x false m = .ok (s.wrote (ws ++ s.rowWrites r (en m) m)) x1 () := by
  have hwrites : (s.wrote ws).rowWrites x (en m) m = s.rowWrites r (en m) m := by rw [hx]; rfl
  obtain ⟨x1, hx1, hrow⟩ := State.drainRow_own (s := s.wrote ws) (r := x) (en := en m) (m := m) (by rw [hx]; exact hmd) fun i hi => by
    rw [hx]
    exact hown m i hm hi
  exact ⟨x1, hx1, by rw [hrow, State.wrote_wrote, hwrites]⟩

theorem drainRows_own {k : Nat} {ws : List PortW} {x : Routine} {done : Nat} (hx : r.Drains x) (hk : x.drow + k ≤ 32) :
    ∃ y, r.Drains y ∧ y.drow = x.drow + k ∧ y.row = x.row + k ∧ drainRows false k (s.wrote ws) x done =
      .ok (s.wrote (ws ++ (upTo x.drow k).flatMap fun m => s.rowWrites r (en m) m)) y (done + k) := by
  induction k generalizing ws x done with
  | zero => exact ⟨x, hx, rfl, rfl, by simp [drainRows, upTo]⟩
  | succ k ih =>
    obtain ⟨x1, hx1, hrow⟩ := State.drainRow_after hmd hown hx (m := x.drow) (by omega) ws
    have hdrow : x1.drow = x.drow := by rw [hx1]
    have hrow1 : x1.row = x.row := by rw [hx1]
    obtain ⟨y, hy, hyd, hyr, hrows⟩ := ih (ws := ws ++ s.rowWrites r (en x.drow) x.drow) (done := done + 1)
      (x := { x1 with drow := x1.drow + 1, row := x1.row + 1 }) ((hx.trans hx1.drains).trans rfl)
      (show x1.drow + 1 + k ≤ 32 by omega)
    dsimp only at hyd hyr hrows
    refine ⟨y, hy, by omega, by omega, ?_⟩
    rw [drainRows, hrow]
    dsimp only
    rw [hrows, hdrow, upTo, List.flatMap_cons, List.append_assoc, Nat.add_right_comm, Nat.add_assoc]

end

/-! ### The list of the writes -/

theorem getElem?_upTo {lo n i : Nat} (h : i < n) : (upTo lo n)[i]? = some (lo + i) := by
  induction n generalizing lo i with
  | zero => omega
  | succ n ih =>
    cases i with
    | zero => rfl
    | succ i =>
      rw [upTo, List.getElem?_cons_succ, ih (by omega)]
      congr 1
      omega

theorem getElem?_elemsFrom {v w lo n i : Nat} (h : i < n) : (elemsFrom v w lo n)[i]? = some (v / 2 ^ ((lo + i) * w) % 2 ^ w) := by
  induction n generalizing lo i with
  | zero => omega
  | succ n ih =>
    cases i with
    | zero => rfl
    | succ i => rw [elemsFrom, List.getElem?_cons_succ, ih (by omega), show lo + 1 + i = lo + (i + 1) by omega]

theorem length_elemsFrom (v w lo n : Nat) : (elemsFrom v w lo n).length = n := by
  induction n generalizing lo with
  | zero => rfl
  | succ n ih => rw [elemsFrom, List.length_cons, ih]

/-- Word `i` of an accumulator row. -/
theorem AccRow.getElem?_words (a : AccRow) {i : Nat} (h : i < 32) : a.words[i]? = some (a.v.extractLsb' (32 * i) 32).toNat := by
  rw [AccRow.words, elems, getElem?_elemsFrom h, BitVec.extractLsb'_toNat, Nat.shiftRight_eq_div_pow, Nat.zero_add, Nat.mul_comm]

/-- Element `i` of run `m` of runs of one length. -/
theorem getElem?_flatMap_upTo {α : Type} {f : Nat → List α} {c : Nat} (hf : ∀ m, (f m).length = c) {lo n m i : Nat} (hm : m < n)
    (hi : i < c) : ((upTo lo n).flatMap f)[c * m + i]? = (f (lo + m))[i]? := by
  induction n generalizing lo m with
  | zero => omega
  | succ n ih =>
    rw [upTo, List.flatMap_cons]
    cases m with
    | zero => rw [Nat.mul_zero, Nat.zero_add, List.getElem?_append_left (by rw [hf]; exact hi), Nat.add_zero]
    | succ m =>
      rw [Nat.mul_succ, List.getElem?_append_right (by rw [hf]; omega), hf, show c * m + c + i - c = c * m + i by omega,
        ih (by omega), show lo + 1 + m = lo + (m + 1) by omega]

theorem length_flatMap_upTo {α : Type} {f : Nat → List α} {c : Nat} (hf : ∀ m, (f m).length = c) (lo n : Nat) :
    ((upTo lo n).flatMap f).length = n * c := by
  simp [List.length_flatMap, hf, length_upTo]

theorem State.getElem?_rowWrites (s : State) (r : Routine) (en : Nat → TEntry) (m : Nat) {i : Nat} (hi : i < 32) :
    let row : AccRow := mget {} (s.core (coreOf r.n)).acc (32 * r.t + m)
    (s.rowWrites r en m)[i]? = some (Put.write r ⟨(en i).tgt (coreOf r.n) (r.pd + (m * r.ldb + i * mdSize r.md)),
      toBytes (drainElem r (row.v.extractLsb' (32 * i) 32).toNat).1 (mdSize r.md), row.p.getLsbD i⟩) := by
  intro row
  have hword := row.getElem?_words hi
  have hzip : ((upTo 0 32).zip (row.words.map (drainElem r)))[i]? = some (i, drainElem r (row.v.extractLsb' (32 * i) 32).toNat) := by
    rw [List.getElem?_zip_eq_some, getElem?_upTo hi, List.getElem?_map, hword, Nat.zero_add]
    exact ⟨rfl, rfl⟩
  rw [State.rowWrites, State.rowPuts, putsOf, List.getElem?_map, List.getElem?_map, List.getElem?_map, hzip]
  rfl

theorem State.length_rowWrites (s : State) (r : Routine) (en : Nat → TEntry) (m : Nat) : (s.rowWrites r en m).length = 32 := by
  simp [State.rowWrites, State.rowPuts, putsOf, AccRow.words, elems, length_upTo, length_elemsFrom]

/-! ### A drained tile -/

/-- An element drained without Q in a floating-point format. -/
theorem drainElem_float {r : Routine} {f : Fmt} (h : fmtOf r.md = some f) (w : Nat) : (drainElem r w).1 =
    (let z := (eCvt (if r.flag 4 then 8 else 1) r.md r.rm (r.flag 3) w).1
     if r.foOn then f.flush z else z) := by
  rw [drainElem, h]

/-- An element drained without Q in an integer format. -/
theorem drainElem_int {r : Routine} (h : fmtOf r.md = none) (w : Nat) :
    (drainElem r w).1 = (eCvt (if r.flag 4 then 8 else 1) r.md r.rm (r.flag 3) w).1 := by
  rw [drainElem, h]

/-- What a routine goes on as does not depend on its provenance record. -/
theorem goesOn_record {r y : Routine} {le : Bool} (h : goesOn r y le) (p : Word) (k : Nat × Nat × Nat × Nat) :
    goesOn { r with prov := p, provK := k } { y with prov := p, provK := k } le := by
  rcases h with ⟨hle, hlt, rfl⟩ | ⟨a, n, l, hle, hl, ⟨hn, hlt, rfl⟩ | ⟨hn, hlt, rfl⟩⟩
  · exact .inl ⟨hle, hlt, rfl⟩
  · exact .inr ⟨a, n, l, hle, hl, .inl ⟨hn, hlt, rfl⟩⟩
  · exact .inr ⟨a, n, l, hle, hl, .inr ⟨hn, hlt, rfl⟩⟩

/-- The pointers of a drain do not depend on its rows, which it leaves at 0, and on the record. -/
theorem afterDrain_drains {r x : Routine} (h : r.Drains x) (u : UopArg) :
    afterDrain x u = { afterDrain r u with row := x.row, prov := x.prov, provK := x.provK } := by
  rw [h]
  unfold afterDrain
  dsimp only
  split
  · rfl
  · split <;> rfl

theorem tilesDrained : TilesDrained := by
  intro u s r y hr k e at' value _ hmd9 hdrow ht hq en hel hy
  have hmd : r.md ≠ 10 := by omega
  have hown : ∀ m i, m < 32 → i < 32 →
      OwnElement (s.ctx r.n).table.eng (mdSize r.md) (r.pd + (m * r.ldb + i * mdSize r.md)) (en m i) := fun m i hm hi => by
    obtain ⟨hlt, halign, hentry, hp, hw, hk, hmv⟩ := hel m i hm hi
    rw [← Nat.add_assoc]
    exact ⟨hlt, halign, hentry, hp, hw, hk, hmv⟩
  let ws := (upTo 0 32).flatMap fun m => s.rowWrites r (en m) m
  obtain ⟨x, hx, hxd, hxr, hrows⟩ := drainRows_own (k := 32) (ws := []) (done := 0) hmd hown (.refl r) (by omega)
  have hnil : s.wrote [] = s := by rw [State.wrote, List.append_nil]
  have hdrain : s.drainPipe r (u.arg.getLsbD 57) = .ok (s.wrote ws) x 32 := by
    rw [State.drainPipe, State.tileTrap_in (not_le.2 ht), hq, hdrow]
    rw [hnil, hdrow] at hrows
    exact hrows
  have hgo : goesOn (afterDrain x u) { y with prov := x.prov, provK := x.provK } u.le := by
    rw [afterDrain_drains hx, hxr]
    exact goesOn_record hy _ _
  have hvalue : ∀ w, (drainElem r w).1 = value w := fun w => by
    cases hf : fmtOf r.md with
    | some f => simp only [drainElem_float hf, value, hf]
    | none => simp only [drainElem_int hf, value, hf]
  obtain ⟨-, -, -, -, hdone, -⟩ := microwordsOfTiles u s r { y with prov := x.prov, provK := x.provK } hr
  have hexec := hdone _ _ _ hdrain (by omega) hgo
  have hn : x.n = r.n := by rw [hx]
  rw [hn] at hexec
  refine ⟨_, _, ws, hexec, rfl, rfl, ?_, fun m i hm hi => ?_⟩
  · exact length_flatMap_upTo (fun m => s.length_rowWrites r (en m) m) 0 32
  · have hget := getElem?_flatMap_upTo (f := fun m => s.rowWrites r (en m) m) (lo := 0) (fun m => s.length_rowWrites r (en m) m) hm hi
    rw [Nat.zero_add] at hget
    refine ⟨_, hget.trans (s.getElem?_rowWrites r (en m) m hi), rfl, rfl, ?_, ?_, ?_⟩
    · rw [← Nat.add_assoc]
      rfl
    · exact congrArg (toBytes · e) (hvalue _)
    · exact (List.map_const' ..).trans (by rw [toBytes_length])

/-- Settles O40: microwords of pointers and counters, of tiles, and the rows that a drain delivers. -/
theorem microwords : Obligations.Microwords := ⟨microwordsOfPointers, microwordsOfTiles, tilesDrained⟩

end Sys2Proof.Machine
end

section
/-! PROOFS. `fence` and `drain` by scope and kind (R158, R160 to R163). -/

namespace Sys2Proof.Machine

open Sys2Proof.Claims (arrivalAt)

/-! ### The operations under way that a fence or a drain waits for (R160, R161) -/

/-- The operation `q` has not performed, and a fence of before-kinds `bk` and scope `sc` waits for it: X and M operations are in
every scope (R160). -/
def OutOp.awaited (q : OutOp) (bk : BitVec 5) (sc : Nat) : Prop :=
  q.perf = false ∧ kindBit bk q.kind = true ∧ (3 ≤ q.kind ∨ q.home ≤ sc)

theorem Ctx.mem_outsOf {c : Ctx} {bk : BitVec 5} {sc id : Nat} :
    id ∈ c.outsOf bk sc ↔ ∃ q ∈ c.outs, q.id = id ∧ q.awaited bk sc := by
  simp only [Ctx.outsOf, List.mem_map, List.mem_filter, Bool.and_eq_true, Bool.or_eq_true, Bool.not_eq_true', decide_eq_true_eq,
    OutOp.awaited, and_assoc]
  exact exists_congr fun q => by tauto

theorem Ctx.outsOf_eq_nil {c : Ctx} {bk : BitVec 5} {sc : Nat} :
    c.outsOf bk sc = [] ↔ ∀ q ∈ c.outs, ¬ q.awaited bk sc := by
  simp only [List.eq_nil_iff_forall_not_mem, Ctx.mem_outsOf, not_exists, not_and]
  exact ⟨fun hn q hq => hn q.id q hq rfl, fun hn _ q hq _ => hn q hq⟩

theorem Ctx.heldOf_empty {c : Ctx} (hl : c.larder = []) (bk : BitVec 5) (sc : Nat) : c.heldOf bk sc = [] := by
  rw [Ctx.heldOf, hl]
  rfl

/-- The kinds that a drain waits for: stores and atomics (R163). -/
theorem kindBit_storesAndAtomics (kind : Nat) : kindBit 0x0C kind = true ↔ kind = 1 ∨ kind = 2 := by
  by_cases hk : kind ≤ 4
  · interval_cases kind <;> decide
  · have hbit : kindBit 0x0C kind = false := by rw [kindBit, decide_eq_false hk, Bool.false_and]
    exact ⟨fun htrue => absurd htrue (hbit ▸ Bool.false_ne_true), fun hone => absurd (show kind ≤ 4 by omega) hk⟩

theorem OutOp.awaited_storesAndAtomics {q : OutOp} {sc : Nat} :
    q.awaited 0x0C sc ↔ (q.kind = 1 ∨ q.kind = 2) ∧ q.home ≤ sc ∧ q.perf = false := by
  rw [OutOp.awaited, kindBit_storesAndAtomics]
  exact ⟨fun ⟨hnot, hkind, hin⟩ => ⟨hkind, hin.resolve_left (by omega), hnot⟩,
    fun ⟨hkind, hhome, hnot⟩ => ⟨hnot, hkind, .inr hhome⟩⟩

/-! ### Nothing stands before them in a calm context (R162, R406) -/

theorem State.Calm.larderFirst {s : State} (hc : s.Calm) (f : State) : s.larderFirst f = f := by
  obtain ⟨hlarder, -, -, hmarks, hcarry⟩ := hc
  exact State.larderFirst_empty (by rw [hcarry]) hmarks hlarder f

/-- The point of a fence in a calm context: its members are under way. -/
theorem State.Calm.fencePoint {s : State} (hc : s.Calm) (h : Hdr) (bk ak : BitVec 5) (sc : Nat) :
    s.fencePoint h bk ak sc = s.addFence h (s.cur.outsOf bk sc) [] ak := by
  obtain ⟨hlarder, -, -, -, hcarry⟩ := hc
  rw [State.fencePoint, hcarry, Ctx.heldOf_empty hlarder, List.append_nil]
  exact if_neg Bool.false_ne_true

/-! ### `fence` (R161) and `drain` (R163) -/

section
variable {h : Hdr} {o : FOp} {s : State} (hs : s.Settled h) (hc : s.Calm)
include hs hc

theorem exec_fence_calm : exec (.fence h o) s = .next (s.addFence h (s.cur.outsOf o.bk o.scope.toNat) [] o.ak) := by
  refine congrArg Host.Outcome.next ((hs.waiting [] _ rfl).trans ?_)
  dsimp only
  rw [hc.larderFirst, hc.fencePoint, ite_self]

theorem exec_drain_calm : exec (.drain h o) s = .next (
    if s.cur.outsOf 0x0C o.scope.toNat = [] then
      if h.arr then s.toBarrier s.latch.n s.latch.slot s.latch.ba h.bn.toNat none else s
    else s.stat .wait) := by
  refine congrArg Host.Outcome.next ((hs.waiting [] _ rfl).trans ((hc.larderFirst _).trans ?_))
  obtain ⟨hlarder, -, -, -, hcarry⟩ := hc
  simp [hcarry, Ctx.heldOf_empty hlarder]

/-- R161: the fence is in force, with what it waits for as its members. -/
theorem fence_entersForce : ∃ t f, exec (.fence h o) s = .next t ∧ s.Becomes t { s.cur with fences := [f] } ∧ f.ak = o.ak ∧
    f.arr = (if h.arr then some h.bn.toNat else none) ∧
    ∀ id, id ∈ f.members ↔ ∃ q ∈ s.cur.outs, q.id = id ∧ q.awaited o.bk o.scope.toNat := by
  have hforce := s.addFence_becomes h (s.cur.outsOf o.bk o.scope.toNat) [] o.ak
  have ⟨_, _, hfences, _, _⟩ := hc
  rw [hfences, List.nil_append] at hforce
  exact ⟨_, _, exec_fence_calm hs hc, hforce, rfl, rfl, fun _ => Ctx.mem_outsOf⟩

/-- R163: with every store and atomic of its scope performed, a drain goes on and arrives. -/
theorem drain_goesOn (hperf : ∀ q ∈ s.cur.outs, q.kind = 1 ∨ q.kind = 2 → q.home ≤ o.scope.toNat → q.perf = true) :
    exec (.drain h o) s = .next (if h.arr then { s with
      barIn := s.barIn ++ [arrivalAt s h.bn.toNat s.latch.slot none] } else s) := by
  have hnone : s.cur.outsOf 0x0C o.scope.toNat = [] := Ctx.outsOf_eq_nil.2 fun q hq hw => by
    obtain ⟨hkind, hhome, hnot⟩ := OutOp.awaited_storesAndAtomics.1 hw
    rw [hperf q hq hkind hhome] at hnot
    exact Bool.noConfusion hnot
  rw [exec_drain_calm hs hc, if_pos hnone]
  rfl

/-- R163: a store or atomic of its scope that has not performed keeps a drain at its bundle. -/
theorem drain_waits {q : OutOp} (hq : q ∈ s.cur.outs) (hkind : q.kind = 1 ∨ q.kind = 2) (hhome : q.home ≤ o.scope.toNat)
    (hnot : q.perf = false) : exec (.drain h o) s = .next (s.stat .wait) := by
  have hsome : s.cur.outsOf 0x0C o.scope.toNat ≠ [] := fun hnone =>
    Ctx.outsOf_eq_nil.1 hnone q hq (OutOp.awaited_storesAndAtomics.2 ⟨hkind, hhome, hnot⟩)
  rw [exec_drain_calm hs hc, if_neg hsome]

end

/-- Settles O25: a fence enters force with the operations it waits for; a drain goes on or waits by the stores and atomics left. -/
theorem fencesAndDrains : Obligations.FencesAndDrains := fun _ _ _ hs hc =>
  ⟨fence_entersForce hs hc, drain_goesOn hs hc, fun _ => drain_waits hs hc⟩

end Sys2Proof.Machine
end

section
/-! PROOFS. Operations that move elements between positions and between scalars and vectors (R182, R183). -/

namespace Sys2Proof.Machine

section
variable {s : State} {h : Hdr} {o : VOp} (hf : s.Fires h) (hfo : o.foOk = true)
include hf hfo

/-! ### Results of sources of one alternative -/

/-- A V operation of one source, whatever file the source is read from. -/
theorem State.vop_lift1_writes {α : Type} {xs : List (Tag × α)} {x : α} (hx : xs = [([], x)]) (lat : Nat) (f : α → VRes) :
    s.WritesV (s.vop h o true lat (lift1 f xs)) h o.d.toNat lat (f x) := by
  rw [hx, lift1_one]
  exact State.vop_writes hf o true lat (f x) rfl hfo

/-- A V operation of two sources, whatever files the sources are read from. -/
theorem State.vop_lift2_writes {α β : Type} {xs : List (Tag × α)} {ys : List (Tag × β)} {x : α} {y : β} (hx : xs = [([], x)])
    (hy : ys = [([], y)]) (lat : Nat) (f : α → β → VRes) :
    s.WritesV (s.vop h o true lat (lift2 f xs ys)) h o.d.toNat lat (f x y) := by
  rw [hx, hy, lift2_one]
  exact State.vop_writes hf o true lat (f x y) rfl hfo

/-- A move of elements of one vector picks them by its map of positions. -/
theorem State.vMove_writes {x : VVal} (hx : s.VIs o.a.toNat x) (idx : Nat → List (Nat × Bool)) :
    s.WritesV (s.vMove h o idx) h o.d.toNat 1 (vPick (codeWidth (s.vCode o)) (vParts (vWidth o) (codeWidth (s.vCode o)) x)
      (idx (vWidth o / codeWidth (s.vCode o))) x.f) :=
  State.vop_lift1_writes hf hfo hx 1 _

/-! ### Between scalars and vectors (R182) -/

theorem exec_vsplat_writes {y : SVal} (hy : s.SIs o.a.toNat y) : ∃ t, exec (.vsplat h o) s = .next t ∧
    s.WritesV t h o.d.toNat 1 (splatVal (vWidth o) (codeWidth (s.vCode o)) y) :=
  ⟨_, rfl, State.vop_lift1_writes hf hfo hy 1 _⟩

theorem exec_vins_writes {d : VVal} {y : SVal} (hd : s.VIs o.d.toNat d) (hy : s.SIs o.a.toNat y) :
    ∃ t, exec (.vins h o) s = .next t ∧
      s.WritesV t h o.d.toNat 1 (insVal (vWidth o) (codeWidth (s.vCode o)) o.imm d y) :=
  ⟨_, rfl, State.vop_lift2_writes hf hfo hd hy 1 _⟩

/-- A format that is legal leaves `vext` its scalar result. -/
theorem exec_vext_writes {x : VVal} (hx : s.VIs o.a.toNat x) : ∃ t, exec (.vext h o) s = .next t ∧
    s.WritesS t h o.d.toNat 2
      (extVal (codeWidth (s.vCode o)) (vWidth o / codeWidth (s.vCode o)) o.imm (o.sub.getLsbD 1) x) := by
  refine ⟨_, rfl, ?_⟩
  rw [hfo, State.va, hx, lift1_one]
  exact State.regS_writes hf o.d.toNat 2 _

end

/-- Settles O28: moves within one vector by their map of positions, the others by the results of their sources. -/
theorem vectorMoves : Obligations.VectorMoves := fun _ _ _ hf hfo =>
  ⟨fun _ hy => exec_vsplat_writes hf hfo hy, fun _ _ hd hy => exec_vins_writes hf hfo hd hy, fun _ hx =>
    ⟨⟨_, rfl, State.vMove_writes hf hfo hx _⟩, ⟨_, rfl, State.vMove_writes hf hfo hx (rotIdx _)⟩,
      fun _ hy => ⟨⟨_, rfl, State.vop_lift2_writes hf hfo hx hy 1 _⟩, ⟨_, rfl, State.vop_lift2_writes hf hfo hx hy 1 _⟩⟩,
      exec_vext_writes hf hfo hx⟩⟩

end Sys2Proof.Machine
end

section
/-! PROOFS. Calls of the matrix arrays: their traps, their wait and their queue entry (R201, R206, R208, R220, R221, R224). -/

namespace Sys2Proof.Machine

open Sys2Proof.Claims (entersArray)

/-! ### A call enters the queue of its core (R201) -/

theorem length_qIns {α : Type} (isAfter : α → Bool) (x : α) (l : List α) : (qIns isAfter x l).length = l.length + 1 := by
  induction l with
  | nil => rfl
  | cons y l ih =>
    rw [qIns]
    split
    · rfl
    · rw [List.length_cons, ih, List.length_cons]

/-- A call as it stands in its queue. -/
def State.placed (s : State) (r : Routine) : Routine := { r with since := s.cycle, ord := s.cycle * 1024 + r.n }

/-- The queue of a call's core with the call in it. -/
def State.queueWith (s : State) (r : Routine) : List Routine :=
  qIns (fun y => y.since == s.cycle && decide (r.n < y.n)) (s.placed r) (s.core (coreOf r.n)).queue

theorem State.queue_issueRoutine (s : State) (r : Routine) :
    ((s.issueRoutine [] r).core (coreOf r.n)).queue = s.queueWith r :=
  congrArg Core.queue (s.core_onCore_same (coreOf r.n) (fun d => { d with queue := s.queueWith r }))

theorem State.ctx_issueRoutine_other {s : State} {r : Routine} {m : Nat} (hm : m ≠ r.n) : (s.issueRoutine [] r).ctx m = s.ctx m :=
  mget_mput_other _ _ _ hm

/-- Of its context a call changes the operations under way, and no register. -/
theorem State.toRegs_issueRoutine (s : State) (r : Routine) : ((s.issueRoutine [] r).ctx r.n).toRegs = (s.ctx r.n).toRegs :=
  (congrArg Ctx.toRegs (s.ctx_onCtx_same r.n fun c =>
    { c with outs := c.outs ++ [⟨r.id, r.id, if r.op = 0 then 4 else 5, 0, false, false, 0⟩] })).trans rfl

/-- A call that bears the operation's bundle and `FMT`, without open literals, takes a place in the queue. -/
theorem State.issueRoutine_entersArray {s : State} {h : Hdr} {r : Routine} (hn : r.n = s.latch.n)
    (hfmt : r.fmt = s.cur.fmtAt s.latch.ic) (hba : r.ba = s.latch.ba) (harr : r.arr = if h.arr then some h.bn.toNat else none) :
    entersArray s (s.issueRoutine [] r) h (s.placed r) := by
  have hq : ((s.issueRoutine [] r).core (coreOf s.latch.n)).queue = s.queueWith r := hn ▸ s.queue_issueRoutine r
  refine ⟨hq ▸ mem_qIns.2 (.inl rfl), fun x hx => hq ▸ mem_qIns.2 (.inr (hn ▸ hx)), ?_, hn, hfmt, hba, harr, rfl, ?_, fun m hm => ?_⟩
  · rw [hq, State.queueWith, length_qIns, hn]
  · have hregs := s.toRegs_issueRoutine r
    rwa [hn] at hregs
  · exact State.ctx_issueRoutine_other (hn ▸ hm)

theorem State.routineRoom_iff {s : State} {r : Routine} (hn : r.n = s.latch.n) :
    s.routineRoom r = true ↔ (s.routinesAt (coreOf s.latch.n)).length < 4 := by
  rw [State.routineRoom, hn, decide_eq_true_iff]

/-! ### A call at its bundle -/

theorem State.callOp_traps (s : State) (t : TrapRec) (r : Routine) : s.callOp {} (some t) r = s.stat (.trap t) :=
  s.withTraps_raises t [] 0 (fun s => s) false

/-- A call without a trap that no fence holds back takes its queue entry or waits for one. -/
theorem State.callOp_goes {s : State} {r : Routine} (hfence : r.op = 0 → s.cur.fenced 4 = []) :
    s.callOp {} none r = if s.routineRoom r then s.issueRoutine [] r else s.stat .wait := by
  have hf : (decide (r.op = 0) && !(s.cur.fenced 4).isEmpty) = false := by
    by_cases h0 : r.op = 0
    · rw [hfence h0]; exact Bool.and_false _
    · rw [decide_eq_false h0]; rfl
  have hgo : s.callOp {} none r =
      if (decide (r.op = 0) && !(s.cur.fenced 4).isEmpty && r.touches (s.nearIn s.latch.n)) = true then s.stat .wait
      else if (true && !s.routineRoom r) = true then s.stat .wait else s.issueRoutine [] r := rfl
  rw [hgo, hf, Bool.false_and, if_neg Bool.false_ne_true]
  cases s.routineRoom r <;> rfl

/-- What becomes of a call without a trap: it takes its place while there is room, and waits otherwise. -/
theorem State.callOp_enters {s : State} {h : Hdr} {r : Routine} (hfence : r.op = 0 → s.cur.fenced 4 = []) (hn : r.n = s.latch.n)
    (hfmt : r.fmt = s.cur.fmtAt s.latch.ic) (hba : r.ba = s.latch.ba) (harr : r.arr = if h.arr then some h.bn.toNat else none) :
    ((s.routinesAt (coreOf s.latch.n)).length < 4 → entersArray s (s.callOp {} none r) h (s.placed r)) ∧
    (¬ (s.routinesAt (coreOf s.latch.n)).length < 4 → s.callOp {} none r = s.stat .wait) := by
  rw [State.callOp_goes hfence]
  refine ⟨fun hroom => ?_, fun hfull => if_neg fun hr => hfull ((State.routineRoom_iff hn).1 hr)⟩
  rw [if_pos ((State.routineRoom_iff hn).2 hroom)]
  exact State.issueRoutine_entersArray hn hfmt hba harr

theorem State.mkRoutine_m (s : State) (h : Hdr) (op idx : Nat) (tag : Tag) {j : Nat} (hj : j < 8) :
    (s.mkRoutine h op idx tag).m j = s.cur.mpAt j s.latch.ic := by
  have hm : (s.mkRoutine h op idx tag).mp[j]? = some (s.cur.mpAt (0 + j) s.latch.ic) := by
    rw [State.mkRoutine, List.getElem?_map, getElem?_upTo hj]
    rfl
  rw [Routine.m, List.getD_eq_getElem?_getD, hm, Nat.zero_add]
  rfl

/-! ### `mcall` (R206, R220, R221) -/

section
variable {s : State} {r : Routine} {e : BitVec 32}

theorem State.callTrap_noRoutine (he : e.getLsbD 31 = false) : s.callTrap r e = some (s.trapRec .noRoutine 0 0) := by
  rw [State.callTrap, he]; rfl

theorem State.callTrap_args (he : e.getLsbD 31 = true) (hi : r.idx < 8) (hb : r.badArgs = true) :
    s.callTrap r e = some (s.trapRec .matrixArgs 0 0) := by
  simp [State.callTrap, he, hb, Nat.not_le.2 hi]

theorem State.callTrap_range (he : e.getLsbD 31 = true) (hi : r.idx < 7) (hb : r.badArgs = false)
    (ht : (s.core (coreOf r.n)).tiles < r.t0 + r.mt * r.nt) : s.callTrap r e = some (s.trapRec .accRange 0 0) := by
  have h8 : ¬ 8 ≤ r.idx := by omega
  simp [State.callTrap, Routine.badTiles, he, hb, h8, hi.ne, ht]

theorem State.callTrap_none (he : e.getLsbD 31 = true) (hb : r.idx < 8 → r.badArgs = false)
    (ht : r.idx < 7 → r.t0 + r.mt * r.nt ≤ (s.core (coreOf r.n)).tiles) : s.callTrap r e = none := by
  rw [State.callTrap, he]
  by_cases h8 : 8 ≤ r.idx
  · simp [h8]
  · have h7 : (decide (r.idx ≠ 7) && r.badTiles (s.core (coreOf r.n))) = false := by
      by_cases hi : r.idx = 7
      · simp [hi]
      · simp [Routine.badTiles, ht (by omega)]
    simp only [h8, hb (by omega), h7]
    rfl

end

/-- The index entry that a call names (R221). -/
def State.calledEntry (s : State) (o : KCOp) : BitVec 32 := (s.arr (arrayOf (coreOf s.latch.n))).entry o.idx.toNat

/-- A call as its checks read it. -/
def State.checkedRoutine (s : State) (h : Hdr) (o : KCOp) : Routine :=
  { s.mkRoutine h 0 o.idx.toNat [] with fi := o.fi, fo := o.fo, pack := (s.calledEntry o).toNat }

/-- A call with the words that it runs. -/
def State.calledRoutine (s : State) (h : Hdr) (o : KCOp) : Routine :=
  let r := s.checkedRoutine h o
  { r with prog := if r.std then r.stdProg else (s.arr (arrayOf (coreOf s.latch.n))).words (s.calledEntry o) }

theorem exec_mcall {s : State} {h : Hdr} (hf : s.Fires h) (o : KCOp) : exec (.mcall h o) s =
    .next (s.callOp {} (s.callTrap (s.checkedRoutine h o) (s.calledEntry o)) (s.calledRoutine h o)) :=
  congrArg Host.Outcome.next (hf.guarded _)

theorem exec_mcall_traps {s : State} {h : Hdr} {o : KCOp} {x : TrapRec} (hf : s.Fires h)
    (hx : s.callTrap (s.checkedRoutine h o) (s.calledEntry o) = some x) : exec (.mcall h o) s = .next (s.stat (.trap x)) := by
  rw [exec_mcall hf, hx, State.callOp_traps]

/-! ### `mzero` (R208) -/

/-- The descriptor of an `mzero` names 1 to 128 rows and columns of tiles. -/
def Routine.descOk (r : Routine) : Prop := 1 ≤ r.mt ∧ r.mt ≤ 128 ∧ 1 ≤ r.nt ∧ r.nt ≤ 128 ∧ bits (r.m 3) 32 32 = 0

section
variable {s : State} {r : Routine}

theorem State.zeroTrap_args (hd : ¬ r.descOk) : s.zeroTrap r = some (s.trapRec .matrixArgs 0 0) := by
  refine if_pos ?_
  simp only [Bool.or_eq_true, Bool.not_eq_true', decide_eq_true_eq, decide_eq_false_iff_not]
  unfold Routine.descOk at hd
  tauto

theorem State.zeroTrap_good (hd : r.descOk) :
    s.zeroTrap r = if (s.core (coreOf r.n)).tiles < r.t0 + r.mt * r.nt then some (s.trapRec .accRange 0 0) else none := by
  obtain ⟨h1, h2, h3, h4, h5⟩ := hd
  simp [State.zeroTrap, Routine.badTiles, h1, h2, h3, h4, h5]

end

/-- The routine of an `mzero`, whose descriptor stands in place of parameter 3. -/
def State.zeroRoutine (s : State) (h : Hdr) (o : KCOp) : Routine :=
  let r := s.mkRoutine h 1 0 []
  { r with mp := r.mp.set 3 (r.m (o.f.toNat % 8)) }

theorem State.zeroRoutine_m3 (s : State) (h : Hdr) (o : KCOp) :
    (s.zeroRoutine h o).m 3 = s.cur.mpAt (o.f.toNat % 8) s.latch.ic :=
  s.mkRoutine_m h 1 0 [] (Nat.mod_lt _ (by decide))

section
variable {s : State} {h : Hdr} (hf : s.Fires h) (o : KCOp)
include hf

theorem exec_mzero : exec (.mzero h o) s = .next (s.callOp {} (s.zeroTrap (s.zeroRoutine h o)) (s.zeroRoutine h o)) :=
  congrArg Host.Outcome.next (hf.guarded _)

theorem exec_mzero_traps {x : TrapRec} (hx : s.zeroTrap (s.zeroRoutine h o) = some x) :
    exec (.mzero h o) s = .next (s.stat (.trap x)) := by
  rw [exec_mzero hf, hx, State.callOp_traps]

/-! ### `mpgm` (R224) -/

theorem exec_mpgm {a : SVal} (ha : s.AIs (o.f.toNat % 16) a) : exec (.mpgm h o) s = .next (
    if s.routineRoom { id := 0, n := s.latch.n, op := 2 } then
      s.issueRoutine [] { s.mkRoutine h 2 o.idx.toNat [] with pack := a.v.toNat }
    else s.stat .wait) := by
  have hgo : exec (.mpgm h o) s = .next (
      if (true && !s.routineRoom { id := 0, n := s.latch.n, op := 2 }) = true then s.stat .wait
      else s.issueRoutine [] { s.mkRoutine h 2 o.idx.toNat [] with pack := a.v.toNat }) := by
    show execMpgm h o s = _
    rw [execMpgm, hf.guarded, ha]
    rfl
  rw [hgo]
  cases s.routineRoom { id := 0, n := s.latch.n, op := 2 } <;> rfl

end

/-- Settles O31: what a call traps for, and the queue entry that a call without a trap takes or waits for. -/
theorem matrixCalls : Obligations.MatrixCalls := by
  intro h o s hf k e r traps room
  refine ⟨fun he => ?_, fun he hi hb => ?_, fun he hi hb ht => ?_, fun he hb ht hfence => ?_, ?_,
    fun a ha => ⟨fun hroom => ?_, fun hfull => ?_⟩⟩
  · exact ⟨_, rfl, rfl, exec_mcall_traps hf (State.callTrap_noRoutine he)⟩
  · exact ⟨_, rfl, rfl, exec_mcall_traps hf (State.callTrap_args he hi hb)⟩
  · exact ⟨_, rfl, rfl, exec_mcall_traps hf (State.callTrap_range he hi hb ht)⟩
  · obtain ⟨henters, hwaits⟩ := State.callOp_enters (h := h) (r := s.calledRoutine h o) (fun _ => hfence) rfl rfl rfl rfl
    have hnone : s.callTrap (s.checkedRoutine h o) (s.calledEntry o) = none := State.callTrap_none he hb ht
    rw [exec_mcall hf, hnone]
    exact ⟨fun hroom => ⟨_, _, rfl, henters hroom, rfl, rfl, rfl, rfl, fun j hj => s.mkRoutine_m h 0 o.idx.toNat [] hj⟩,
      fun hfull => congrArg _ (hwaits hfull)⟩
  · intro d mt nt good
    have hm3 : (s.zeroRoutine h o).m 3 = d := s.zeroRoutine_m3 h o
    have hdesc : (s.zeroRoutine h o).descOk ↔ good := by
      unfold Routine.descOk Routine.mt Routine.nt
      rw [hm3]
      exact Iff.rfl
    have htiles : (s.zeroRoutine h o).t0 + (s.zeroRoutine h o).mt * (s.zeroRoutine h o).nt = (d.extractLsb' 0 16).toNat + mt * nt := by
      unfold Routine.t0 Routine.mt Routine.nt
      rw [hm3]
      rfl
    refine ⟨fun hbad => ?_, fun hgood ht => ?_, fun hgood ht hroom => ?_⟩
    · exact ⟨_, rfl, rfl, exec_mzero_traps hf o (State.zeroTrap_args fun h => hbad (hdesc.1 h))⟩
    · refine ⟨_, rfl, rfl, exec_mzero_traps hf o ((State.zeroTrap_good (hdesc.2 hgood)).trans (if_pos ?_))⟩
      rw [htiles]
      exact ht
    · obtain ⟨henters, -⟩ := State.callOp_enters (h := h) (r := s.zeroRoutine h o) (fun h0 => absurd h0 Nat.one_ne_zero) rfl rfl rfl rfl
      have hnone : s.zeroTrap (s.zeroRoutine h o) = none := by
        rw [State.zeroTrap_good (hdesc.2 hgood), htiles]
        exact if_neg (Nat.not_lt.2 ht)
      rw [exec_mzero hf, hnone]
      exact ⟨_, _, rfl, henters hroom, rfl, hm3⟩
  · rw [exec_mpgm hf o ha, if_pos ((State.routineRoom_iff rfl).2 hroom)]
    exact ⟨_, _, rfl, State.issueRoutine_entersArray rfl rfl rfl rfl, rfl, rfl, rfl⟩
  · rw [exec_mpgm hf o ha, if_neg fun hr => hfull ((State.routineRoom_iff rfl).1 hr)]

end Sys2Proof.Machine
end

section
/-! PROOFS. Matrix parameters, waits for calls, and rows of the accumulator (R205, R209 to R211, R218). -/

namespace Sys2Proof.Machine

open Sys2Proof.Claims (MatrixParameters AccumulatorRows)

/-! ### Parameters (R205) -/

/-- A context after a write of parameter `p` at count `due`. -/
def Ctx.setParam (c : Ctx) (p due rdy : Nat) (x : Word) : Ctx := { c with mpPend := laterIns ⟨p, due, x, rdy⟩ c.mpPend }

section
variable {h : Hdr} {o : KROp} {s : State} (hf : s.Fires h)
include hf

/-- `mset` of a clean value writes its parameter one count on and makes its arrival. -/
theorem exec_mset {x : Word} (hx : s.SIs o.d.toNat (clean x)) : exec (.mset h o) s =
    .next ((s.onCur (·.setParam o.p.toNat (s.latch.ic + 1) (s.readyAt 1) x)).arriveLat {} h 1) := by
  show execMset h o s = _
  rw [execMset, hx]
  exact congrArg Host.Outcome.next (State.Settled.fires_waitingN hf _)

/-! ### Waits (R209, R218) -/

theorem exec_mwait : exec (.mwait h o) s = .next (if s.callsOf s.latch.n then s.stat .wait else s.arriveLat {} h 1) :=
  congrArg Host.Outcome.next (State.Settled.fires_waitingN hf _)

theorem exec_mprov : exec (.mprov h o) s = .next (if s.callsOf s.latch.n then s.stat .wait
    else (s.deliverS {} o.d.toNat 2 [([], clean s.cur.prov)]).arriveLat {} h 2) :=
  congrArg Host.Outcome.next (State.Settled.fires_waitingN hf _)

end

theorem matrixParameters : MatrixParameters := by
  refine fun h o s hf => ⟨fun x hx => ⟨_, exec_mset hf hx, ?_⟩, ⟨_, rfl, State.regS_writes hf _ 1 _⟩⟩
  have harr := (s.onCur (·.setParam o.p.toNat (s.latch.ic + 1) (s.readyAt 1) x)).arriveLat_becomes h 1
  rw [State.cur_onCur] at harr
  exact (s.onCur_becomes _).trans harr

/-! ### Rows of the accumulator (R210, R211) -/

/-- The row that `mrd` and `mwr` name from the value of their base. -/
def accRowFrom (o : KROp) (x : Word) : Nat := (x + BitVec.ofNat 64 o.row).toNat

section
variable {s : State} {o : KROp} {x : Word}

theorem State.accRow_out (hr : 512 * (s.core (coreOf s.latch.n)).accg.toNat ≤ accRowFrom o x) :
    s.accRow o (clean x) = .inl (s.trapRec .accRange 0 0) := if_pos hr

theorem State.accRow_in (hr : accRowFrom o x < 512 * (s.core (coreOf s.latch.n)).accg.toNat) :
    s.accRow o (clean x) = .inr (accRowFrom o x) := if_neg (Nat.not_le.2 hr)

theorem State.tileBusy_false {k row : Nat} (hq : ∀ q ∈ s.routinesAt k, q.uses (row / 32) = false) : s.tileBusy k row = false :=
  List.any_eq_false.2 fun q h => by rw [hq q h]; exact Bool.false_ne_true

end

/-- Accumulator row `row` of the operation's core takes a vector. -/
def State.setAccRow (s : State) (row : Nat) (y : VVal) : State :=
  s.onCore (coreOf s.latch.n) (fun d => { d with acc := mput d.acc row ⟨y.v, y.p⟩ })

/-- After `mwr` and its arrival the storage differs in the row written. -/
theorem State.acc_setAccRow (s : State) (h : Hdr) (row : Nat) (y : VVal) :
    (((s.setAccRow row y).arriveLat {} h 1).core (coreOf s.latch.n)).acc = mput (s.core (coreOf s.latch.n)).acc row ⟨y.v, y.p⟩ := by
  rw [(State.arriveLat_becomes ..).core]
  exact congrArg Core.acc (s.core_onCore_same ..)

/-- A vector result without events and its arrival, without open literals. -/
theorem State.deliverV_arriveLat_writes (s : State) (h : Hdr) (r lat : Nat) (v : VVal) :
    s.WritesV ((s.deliverV {} r lat [([], v)]).arriveLat {} h lat) h r lat ⟨v, []⟩ := by
  have h1 := s.deliverV_becomes r lat v
  have h2 := (s.deliverV {} r lat [([], v)]).arriveLat_becomes h lat
  rw [h1.cur, State.deliverV_uid, State.arrival_latch h lat _ h1.latch] at h2
  rw [State.WritesV, List.map_nil, List.append_nil]
  exact h1.trans h2

section
variable {h : Hdr} {o : KROp} {s : State} {x : Word} (hf : s.Fires h) (hx : s.SIs o.a (clean x))
include hf hx

theorem exec_mrd_traps {r : TrapRec} (hr : s.accRow o (clean x) = .inl r) : exec (.mrd h o) s = .next (s.stat (.trap r)) := by
  show execMrd h o s = _
  rw [execMrd, hf.guarded, hx]
  simp [hr, tagAnd, State.withTraps_raises]

/-- A row that no queued routine uses is delivered. -/
theorem exec_mrd_reads {row : Nat} (hr : s.accRow o (clean x) = .inr row) (hfree : s.tileBusy (coreOf s.latch.n) row = false) :
    exec (.mrd h o) s = .next ((s.deliverV {} o.d.toNat 2
      [([], (mget ({} : AccRow) (s.core (coreOf s.latch.n)).acc row).val)]).arriveLat {} h 2) := by
  show execMrd h o s = _
  rw [execMrd, hf.guarded, hx, State.arriveLat, (s.deliverV_becomes ..).latch]
  simp [hr, hfree, State.withTraps, State.withRoom, State.raiseAll, List.filter, arriveRoom_one]

theorem exec_mwr {y : VVal} (hy : s.VIs o.d.toNat y) : exec (.mwr h o) s = .next (
    match s.accRow o (clean x) with
    | .inl t => s.stat (.trap t)
    | .inr row => if s.tileBusy (coreOf s.latch.n) row then s.stat .wait else (s.setAccRow row y).arriveLat {} h 1) := by
  show execMwr h o s = _
  rw [execMwr, hx, hy]
  exact congrArg Host.Outcome.next (State.Settled.fires_waitingN hf _)

theorem exec_mwr_traps {y : VVal} {r : TrapRec} (hy : s.VIs o.d.toNat y) (hr : s.accRow o (clean x) = .inl r) :
    exec (.mwr h o) s = .next (s.stat (.trap r)) := by
  rw [exec_mwr hf hx hy, hr]

/-- A row that no queued routine uses is written. -/
theorem exec_mwr_writes {y : VVal} {row : Nat} (hy : s.VIs o.d.toNat y) (hr : s.accRow o (clean x) = .inr row)
    (hfree : s.tileBusy (coreOf s.latch.n) row = false) : exec (.mwr h o) s = .next ((s.setAccRow row y).arriveLat {} h 1) := by
  rw [exec_mwr hf hx hy, hr]
  exact congrArg Host.Outcome.next (if_neg (Bool.eq_false_iff.1 hfree))

end

theorem accumulatorRows : AccumulatorRows := by
  intro h o s hf k
  refine ⟨fun hc => ⟨?_, ?_⟩, fun hc => ⟨⟨_, ?_, s.arriveLat_becomes h 1⟩,
    ⟨_, ?_, s.deliverS_arriveLat_writes h o.d.toNat 2 _⟩⟩, fun x hx => ?_⟩
  · rw [exec_mwait hf, if_pos hc]
  · rw [exec_mprov hf, if_pos hc]
  · rw [exec_mwait hf, hc, if_neg Bool.false_ne_true]
  · rw [exec_mprov hf, hc, if_neg Bool.false_ne_true]
  intro row
  refine ⟨fun hout => ?_, fun hin hfree => ?_⟩
  · have hr := State.accRow_out (s := s) (o := o) hout
    exact ⟨_, rfl, exec_mrd_traps hf hx hr, fun y hy => exec_mwr_traps hf hx hy hr⟩
  · have hr := State.accRow_in (s := s) (o := o) hin
    have hbusy := State.tileBusy_false hfree
    refine ⟨⟨_, exec_mrd_reads hf hx hr hbusy, s.deliverV_arriveLat_writes h o.d.toNat 2 _⟩, fun y hy => ?_⟩
    have hacc := s.acc_setAccRow h row y
    refine ⟨_, exec_mwr_writes hf hx hy hr hbusy, State.arriveLat_mem .., ((s.setAccRow row y).arriveLat_becomes h 1).cur,
      ?_, fun r hne => ?_⟩
    · exact (congrArg (mget _ · row) hacc).trans (mget_mput_same ..)
    · exact (congrArg (mget _ · r) hacc).trans (mget_mput_other _ _ _ hne)

/-- Settles O32: the parameters, the waits of a context's calls, and the one row that is read or written. -/
theorem matrixRegisters : Obligations.MatrixRegisters := ⟨matrixParameters, accumulatorRows⟩

end Sys2Proof.Machine
end

section
/-! PROOFS. Service actions, the window's registers, and attestation (R224, R284, R300, R401 to R404). -/

namespace Sys2Proof.Machine

open Sys2Proof.Claims (ends)

/-! ### An action in progress (R402) -/

/-- A service action of kind `a` is in progress. -/
def State.Doing (s : State) (a : BitVec 7) : Prop := s.mod.svc.busy = true ∧ s.mod.svc.act = a

theorem State.serving_iff {s : State} {a : BitVec 7} : s.serving a = true ↔ s.Doing a := by
  rw [State.serving, Bool.and_eq_true, beq_iff_eq, State.Doing]

section
variable {s : State} {a : BitVec 7}

/-- The condition with which each action begins. -/
theorem State.not_serving (h : ¬ s.Doing a) : (!s.serving a) = true := by
  rw [Bool.not_eq_true', Bool.eq_false_iff, ne_eq, State.serving_iff]
  exact h

theorem State.Doing.serving (h : s.Doing a) : ¬ (!s.serving a) = true := by
  rw [State.serving_iff.2 h]
  exact Bool.false_ne_true

end

section
variable {s : State}

theorem serviceEnd_eq_ends (s : State) (res : BitVec 8) : s.serviceEnd res = ends s res := rfl

theorem ends_res (s : State) (res : BitVec 8) : (ends s res).mod.svc.res = res := rfl

/-! ### Actions of one branch or two (R403) -/

theorem exec_swapFirmware (hd : s.Doing 1) : exec .swapFirmware s = .next (
    if 2 ≤ s.mod.svc.tgt.toNat then ends s 5
    else if s.mod.svc.tgt.toNat ∈ s.mod.staged ∧ s.mod.svc.tgt.toNat ≠ s.mod.slot.toNat then
      ends { s with mod := { s.mod with slot := 1 - s.mod.slot } } 0
    else ends s 4) := by
  refine congrArg Host.Outcome.next ((if_neg hd.serving).trans (if_congr Iff.rfl rfl (if_congr ?_ rfl rfl)))
  rw [Bool.and_eq_true, decide_eq_true_iff, List.contains_iff_mem]

theorem exec_retrainPort (hd : s.Doing 5) :
    exec .retrainPort s = .next (ends s (if s.mod.svc.tgt.toNat < 32 then 0 else 5)) :=
  congrArg Host.Outcome.next (if_neg hd.serving)

theorem exec_reloadCalibration (hd : s.Doing 6) : exec .reloadCalibration s = .next (ends s 0) :=
  congrArg Host.Outcome.next (if_neg hd.serving)

/-! ### `RETIRE_CLUSTER` (R403) -/

section
variable (hd : s.Doing 3)
include hd

theorem exec_retireCluster_beyond (ht : 24 ≤ s.mod.svc.tgt.toNat) : exec .retireCluster s = .next (ends s 5) :=
  congrArg Host.Outcome.next ((if_neg hd.serving).trans (if_pos ht))

theorem exec_retireCluster_noSpare (ht : s.mod.svc.tgt.toNat < 24) (hp : s.spareOf s.mod.svc.tgt.toNat = none) :
    exec .retireCluster s = .next (ends s 2) := by
  refine congrArg Host.Outcome.next ((if_neg hd.serving).trans ((if_neg (Nat.not_le.2 ht)).trans ?_))
  rw [hp]
  rfl

theorem exec_retireCluster_spare (ht : s.mod.svc.tgt.toNat < 24) (hfree : s.clusterFree s.mod.svc.tgt.toNat = true) {p : BitVec 3}
    (hp : s.spareOf s.mod.svc.tgt.toNat = some p) : exec .retireCluster s = .next (
      ends { s with mod := { s.mod with phys := mput s.mod.phys s.mod.svc.tgt.toNat (p, true) } } 0) := by
  refine congrArg Host.Outcome.next ((if_neg hd.serving).trans ((if_neg (Nat.not_le.2 ht)).trans ?_))
  rw [hp]
  exact if_pos hfree

end

/-! ### `INSTALL_ROUTINE` (R224, R225, R403) -/

/-- Installing a pack changes arrays and nothing else. -/
theorem State.installOne_keeps (s : State) (pack idx ar : Nat) : ∃ arrs, (s.installOne pack idx ar).2 = { s with arrays := arrs } := by
  unfold State.installOne
  dsimp only
  split
  · exact ⟨_, rfl⟩
  · exact ⟨_, rfl⟩

theorem State.installAll_keeps (s : State) (pack idx : Nat) (l : List Nat) :
    ∃ arrs, s.installAll pack idx l = { s with arrays := arrs } := by
  induction l generalizing s with
  | nil => exact ⟨_, rfl⟩
  | cons ar l ih =>
    obtain ⟨_, hone⟩ := s.installOne_keeps pack idx ar
    obtain ⟨arrs, hall⟩ := ih (s.installOne pack idx ar).2
    exact ⟨arrs, by rw [State.installAll, hall, hone]⟩

/-- The code of a pack over all arrays, under the index drawn for it. -/
def State.packCode (s : State) : Nat := s.drawn.installCode s.mod.svc.tgt.toNat (s.free.toNat % 256) (upTo 0 48)

/-- The module after a pack has been tried: the arrays take it when each of them does. -/
def State.packTried (s : State) : State :=
  if s.packCode = 0 then s.drawn.installAll s.mod.svc.tgt.toNat (s.free.toNat % 256) (upTo 0 48) else s.drawn

/-- The store of the pack's code at its address. -/
def State.packAnswered (s : State) : State :=
  { s.packTried with mem := s.packTried.mem.store s.mod.svc.tgt.toNat (toBytes (2 ^ 63 + s.packCode) 8) [] }

theorem State.packTried_keeps (s : State) : ∃ arrs, s.packTried = { s with frees := s.frees + 1, arrays := arrs } := by
  unfold State.packTried
  split
  · exact s.drawn.installAll_keeps _ _ _
  · exact ⟨_, rfl⟩

theorem State.packAnswered_frame (s : State) :
    s.packAnswered.mod = s.mod ∧ s.packAnswered.todo = s.todo ∧ s.packAnswered.ctxs = s.ctxs := by
  obtain ⟨arrs, h⟩ := s.packTried_keeps
  rw [State.packAnswered, h]
  exact ⟨rfl, rfl, rfl⟩

section
variable (hd : s.Doing 2)
include hd

theorem exec_installRoutine_beyond (ht : deviceSize ≤ s.mod.svc.tgt.toNat + 64) : exec .installRoutine s = .next (ends s 5) :=
  congrArg Host.Outcome.next ((if_neg hd.serving).trans (if_pos ht))

theorem exec_installRoutine (ht : s.mod.svc.tgt.toNat + 64 < deviceSize) :
    exec .installRoutine s = .next (ends s.packAnswered (if s.packCode = 0 then 0 else 5)) := by
  show execInstallRoutine s = _
  rw [execInstallRoutine]
  dsimp only
  rw [if_neg hd.serving, if_neg (Nat.not_le.2 ht)]
  rw [← serviceEnd_eq_ends, State.packAnswered, State.packTried, State.packCode]

/-- The action ends with its result, and no context changes. -/
theorem exec_installRoutine_ends (ht : s.mod.svc.tgt.toNat + 64 < deviceSize) : ∃ u, exec .installRoutine s = .next u ∧
    u.mod.svc.busy = true ∧ (u.mod.svc.res = 0 ∨ u.mod.svc.res = 5) ∧ u.todo = s.todo ++ [(.serviceActionComplete, noArg)] ∧
    ∀ k, u.ctx k = s.ctx k := by
  obtain ⟨hmod, htodo, hctxs⟩ := s.packAnswered_frame
  rw [exec_installRoutine hd ht]
  generalize s.packAnswered = v at hmod htodo hctxs
  generalize s.packCode = c
  refine ⟨_, rfl, ?_, ?_, congrArg (· ++ _) htodo, fun k => congrArg (mget _ · k) hctxs⟩
  · exact (congrArg (·.svc.busy) hmod).trans hd.1
  · rw [ends_res]
    split
    · exact .inl rfl
    · exact .inr rfl

/-- A pack that some array refuses is installed in none. -/
theorem exec_installRoutine_refuses (ht : s.mod.svc.tgt.toNat + 64 < deviceSize) (hcode : s.packCode ≠ 0) :
    ∃ u, exec .installRoutine s = .next u ∧ u.mod.svc.res = 5 ∧ ∀ ar, u.arr ar = s.arr ar := by
  have harr : s.packAnswered.arrays = s.arrays := by
    have htried : s.packTried = s.drawn := if_neg hcode
    rw [State.packAnswered, htried]
    rfl
  rw [exec_installRoutine hd ht, if_neg hcode]
  generalize s.packAnswered = v at harr
  exact ⟨_, rfl, rfl, fun ar => congrArg (mget _ · ar) harr⟩

end

end

/-! ### `DRAIN_CHANNEL` (R284, R300, R403) -/

theorem wingOf_firmwareN : wingOf firmwareN = 0 := rfl

/-- Queueing moves changes the first wing, the names and the moves left over. -/
theorem State.enqMoves_keeps (s : State) (l : List RelocCmd) : s.enqMoves l =
    { s with wings := (s.enqMoves l).wings, uid := (s.enqMoves l).uid,
             mod := { s.mod with svc := { s.mod.svc with rest := (s.enqMoves l).mod.svc.rest } } } := by
  induction l generalizing s with
  | nil => rfl
  | cons c l ih =>
    rw [State.enqMoves]
    split
    · rw [ih]; rfl
    · rfl

/-- Firmware's move at the end of its engine's queue. -/
def State.enqMove (s : State) (c : RelocCmd) : State :=
  { s.setWing 0 { s.wing 0 with reloc := (s.wing 0).reloc ++ [{ c with id := s.uid }] } with uid := s.uid + 1 }

theorem State.reloc_enqMove (s : State) (c : RelocCmd) :
    ((s.enqMove c).wing 0).reloc = (s.wing 0).reloc ++ [{ c with id := s.uid }] :=
  congrArg Wing.reloc (mget_mput_same ..)

theorem State.enqMoves_cons {s : State} {c : RelocCmd} (hc : c.n = firmwareN) (l : List RelocCmd) : s.enqMoves (c :: l) =
    if (s.wing 0).reloc.length < 16 then (s.enqMove c).enqMoves l
    else { s with mod := { s.mod with svc := { s.mod.svc with rest := c :: l } } } := by
  rw [State.enqMoves]
  refine if_congr ?_ rfl rfl
  rw [State.relocRoom, hc, wingOf_firmwareN, decide_eq_true_iff]

section
variable {l : List RelocCmd} (hl : ∀ c ∈ l, c.n = firmwareN)
include hl

theorem State.enqMoves_length (s : State) : ((s.enqMoves l).wing 0).reloc.length ≤ max 16 (s.wing 0).reloc.length := by
  induction l generalizing s with
  | nil => exact le_max_right ..
  | cons c l ih =>
    obtain ⟨hc, hl⟩ := List.forall_mem_cons.1 hl
    rw [State.enqMoves_cons hc]
    split
    · next hroom =>
      have hle := ih hl (s.enqMove c)
      rw [State.reloc_enqMove, List.length_append, List.length_singleton] at hle
      omega
    · exact le_max_right ..

theorem State.mem_enqMoves_of_mem (s : State) {x : RelocCmd} (hx : x ∈ (s.wing 0).reloc) : x ∈ ((s.enqMoves l).wing 0).reloc := by
  induction l generalizing s with
  | nil => exact hx
  | cons c l ih =>
    obtain ⟨hc, hl⟩ := List.forall_mem_cons.1 hl
    rw [State.enqMoves_cons hc]
    split
    · refine ih hl _ ?_
      rw [State.reloc_enqMove]
      exact List.mem_append_left _ hx
    · exact hx

/-- Each move stands in the queue, under a name of its own, or among those left over. -/
theorem State.enqMoves_holds (s : State) {c : RelocCmd} (h : c ∈ l) :
    ∃ x ∈ ((s.enqMoves l).wing 0).reloc ++ (s.enqMoves l).mod.svc.rest, x = { c with id := x.id } := by
  induction l generalizing s with
  | nil => cases h
  | cons d l ih =>
    obtain ⟨hd, hrest⟩ := List.forall_mem_cons.1 hl
    rw [State.enqMoves_cons hd]
    split
    · rcases List.mem_cons.1 h with rfl | h
      · refine ⟨{ c with id := s.uid }, List.mem_append_left _ (State.mem_enqMoves_of_mem hrest _ ?_), rfl⟩
        rw [State.reloc_enqMove]
        exact List.mem_append_right _ (List.mem_singleton.2 rfl)
      · exact ih hrest _ h
    · exact ⟨c, List.mem_append_right _ h, rfl⟩

end

theorem State.drainMoves_n {s : State} {ch : Nat} : ∀ c ∈ s.drainMoves ch, c.n = firmwareN := by
  intro c hc
  obtain ⟨hm, -, hs⟩ := List.mem_filterMap.1 hc
  dsimp only at hs
  split at hs
  · cases hs; rfl
  · cases hs

section
variable {s : State} (hd : s.Doing 4)
include hd

theorem exec_drainChannel_beyond (ht : 384 ≤ s.mod.svc.tgt.toNat) : exec .drainChannel s = .next (ends s 5) :=
  congrArg Host.Outcome.next ((if_neg hd.serving).trans (if_pos ht))

/-- The first round queues the moves. -/
theorem exec_drainChannel_begins (ht : s.mod.svc.tgt.toNat < 384) (hm : s.mod.svc.moves = false)
    (hfix : s.fixedInUse s.mod.svc.tgt.toNat = false) : exec .drainChannel s = .next (State.enqMoves
      { s with picks := s.picks + 1, mod := { s.mod with svc := { s.mod.svc with moves := true } } }
      (s.drainMoves s.mod.svc.tgt.toNat)) := by
  refine congrArg Host.Outcome.next ((if_neg hd.serving).trans ((if_neg (Nat.not_le.2 ht)).trans ?_))
  simp [hm, hfix]

/-- The moves stand in the first wing's queue as far as it has room, the others wait, and nothing else has changed. -/
theorem exec_drainChannel_moves (ht : s.mod.svc.tgt.toNat < 384) (hm : s.mod.svc.moves = false)
    (hfix : s.fixedInUse s.mod.svc.tgt.toNat = false) : ∃ u, exec .drainChannel s = .next u ∧ u.mod.svc.moves = true ∧
    u.mod.chanOut = s.mod.chanOut ∧ u.mem = s.mem ∧ (∀ k, u.ctx k = s.ctx k) ∧
    (u.wing 0).reloc.length ≤ max 16 (s.wing 0).reloc.length ∧
    ∀ c ∈ s.drainMoves s.mod.svc.tgt.toNat, ∃ x ∈ (u.wing 0).reloc ++ u.mod.svc.rest, x = { c with id := x.id } := by
  have hn := State.drainMoves_n (s := s) (ch := s.mod.svc.tgt.toNat)
  rw [exec_drainChannel_begins hd ht hm hfix]
  generalize s.drainMoves s.mod.svc.tgt.toNat = l at hn
  let v : State := { s with picks := s.picks + 1, mod := { s.mod with svc := { s.mod.svc with moves := true } } }
  have hkeeps := v.enqMoves_keeps l
  refine ⟨v.enqMoves l, rfl, ?_, ?_, State.enqMoves_mem .., fun k => ?_, v.enqMoves_length hn, fun c hc => v.enqMoves_holds hn hc⟩
  · rw [hkeeps]
  · rw [hkeeps]
  · rw [hkeeps]; rfl

theorem exec_drainChannel_waits (ht : s.mod.svc.tgt.toNat < 384) (hm : s.mod.svc.moves = true) (hr : s.mod.svc.rest = [])
    (hn : s.movesDone = false) : exec .drainChannel s = .next s := by
  refine congrArg Host.Outcome.next ((if_neg hd.serving).trans ((if_neg (Nat.not_le.2 ht)).trans ?_))
  simp [hm, hr, hn]

theorem exec_drainChannel_ends (ht : s.mod.svc.tgt.toNat < 384) (hm : s.mod.svc.moves = true) (hr : s.mod.svc.rest = [])
    (hn : s.movesDone = true) (hfix : s.fixedInUse s.mod.svc.tgt.toNat = false) (hleft : s.tilesLeft s.mod.svc.tgt.toNat = []) :
    exec .drainChannel s = .next (ends { s with mod := { s.mod with chanOut := sIns s.mod.chanOut s.mod.svc.tgt.toNat } } 0) := by
  refine congrArg Host.Outcome.next ((if_neg hd.serving).trans ((if_neg (Nat.not_le.2 ht)).trans ?_))
  simp [hm, hr, hn, hfix, hleft]
  rfl

end

/-! ### The completion event (R401, R402) -/

/-- The word of an event, with its detail drawn. -/
def State.eventWord (s : State) (ev : Nat) : Word := BitVec.ofNat 64 (ev * 2 ^ 56 + s.free.toNat % 2 ^ 56)

theorem State.notify_mod (s : State) (ev : Nat) :
    (s.notify ev).mod = { s.mod with events := s.mod.events ++ [s.eventWord ev] } := by
  unfold State.notify
  dsimp only
  split <;> rfl

/-- The event stands in the high byte. -/
theorem State.eventWord_high (s : State) {ev : Nat} (h : ev < 256) : (s.eventWord ev).toNat / 2 ^ 56 = ev := by
  rw [State.eventWord, BitVec.toNat_ofNat]
  omega

theorem exec_serviceActionComplete (s : State) : exec .serviceActionComplete s =
    .next (State.notify { s with mod := { s.mod with svc := { s.mod.svc with busy := false } } } 3) := rfl

/-! ### The window's registers (R401, R404) -/

section
variable {s : State}

theorem exec_windowRegisterWrite_evAddr (h : s.ev.addr = 0x210) :
    exec .windowRegisterWrite s = .next { s with mod := { s.mod with evAddr := s.ev.v } } :=
  congrArg Host.Outcome.next (if_pos h)

theorem exec_windowRegisterWrite_grant {i : Nat} (hi : i < 8) (h : s.ev.addr = 0x300 + 8 * i) : exec .windowRegisterWrite s =
    .next { s with mod := { s.mod with grants := mput s.mod.grants i (s.ev.v &&& 0xFFFF) } } := by
  refine congrArg Host.Outcome.next ((if_neg (by omega)).trans ((if_pos (by omega)).trans ?_))
  rw [show (s.ev.addr - 0x300) / 8 = i by omega]

theorem exec_windowRegisterWrite_nonce {i : Nat} (hi : i < 4) (h : s.ev.addr = 0x400 + 8 * i) : exec .windowRegisterWrite s =
    .next { s with mod := { s.mod with nonce := mput s.mod.nonce i s.ev.v } } := by
  refine congrArg Host.Outcome.next ((if_neg (by omega)).trans ((if_neg (by omega)).trans ((if_pos (by omega)).trans ?_)))
  rw [show (s.ev.addr - 0x400) / 8 = i by omega]

end

/-! ### Attestation (R404) -/

/-- Bytes outside a store read as before. -/
theorem Mem.read_store_other (m : Mem) {a p n : Nat} {bs : List Byte} (bad : List Bool) (h : p + n ≤ a ∨ a + bs.length ≤ p) :
    (m.store a bs bad).read p n = m.read p n := by
  induction n generalizing p with
  | zero => rfl
  | succ n ih => rw [Mem.read, Mem.read, Mem.get_store, Mem.get_write_other m bs (by omega), ih (by omega)]

/-- A run of the bytes of a store is read back. -/
theorem Mem.read_store_part {m : Mem} (hm : m.wf = true) (a k : Nat) {all bs : List Byte} (bad : List Bool)
    (h : ∀ j (hj : j < bs.length), all[k + j]? = some bs[j]) : (m.store a all bad).read (a + k) bs.length = bs := by
  refine Mem.read_eq_of_get fun j hj => ?_
  obtain ⟨hlt, hget⟩ := List.getElem?_eq_some_iff.1 (h j hj)
  rw [Mem.get_store, Nat.add_assoc, Mem.get_write a _ all hm hlt, hget]

/-- The report with its two signatures, as it is stored. -/
def State.reportBytes (s : State) : List Byte :=
  s.reportBody ++ (Config.signEd s.reportBody).take 64 ++ (Config.signMl s.reportBody).take 3309

/-- The report begins with the nonce. -/
theorem State.getElem?_reportBytes (s : State) {i j : Nat} (hi : i < 4) (hj : j < 8) :
    s.reportBytes[8 * i + j]? = (toBytes (mget 0 s.mod.nonce i).toNat 8)[j]? := by
  have hlen : ∀ i, (toBytes (mget 0 s.mod.nonce i).toNat 8).length = 8 := fun _ => toBytes_length ..
  have hnonce := length_flatMap_upTo hlen 0 4
  unfold State.reportBytes State.reportBody
  simp only [List.append_assoc]
  rw [List.getElem?_append_left (by rw [hnonce]; omega), getElem?_flatMap_upTo hlen hi hj, Nat.zero_add]

section
variable {s : State}

theorem exec_attestationRequest (hv : s.ev.v = 1) (hst : s.mod.stage = 6) : exec .attestationRequest s =
    .next { s with mod := { s.mod with attest := true }, mem := s.mem.store (windowBase + 0x500) (toBytes 0 8) [] } :=
  congrArg Host.Outcome.next (if_pos (by rw [hst, hv]; rfl))

theorem exec_attestationReport (ha : s.mod.attest = true) : exec .attestationReport s =
    .next { s with mod := { s.mod with attest := false },
                   mem := (s.mem.store (windowBase + 0x508) s.reportBytes []).store (windowBase + 0x500) (toBytes 1 8) [] } :=
  congrArg Host.Outcome.next (if_neg (by rw [ha]; exact Bool.false_ne_true))

/-- The nonce stands in the report, which its first word leaves alone. -/
theorem State.report_nonce (hs : s.MemInv) {i : Nat} (hi : i < 4) :
    ((s.mem.store (windowBase + 0x508) s.reportBytes []).store (windowBase + 0x500) (toBytes 1 8) []).nat (windowBase + 0x508 + 8 * i) 8 =
      (mget 0 s.mod.nonce i).toNat := by
  let bs := toBytes (mget 0 s.mod.nonce i).toNat 8
  have hlen : bs.length = 8 := toBytes_length ..
  have hread : (s.mem.store (windowBase + 0x508) s.reportBytes []).read (windowBase + 0x508 + 8 * i) bs.length = bs :=
    Mem.read_store_part hs _ _ [] fun j hj => by
      rw [s.getElem?_reportBytes hi (hlen ▸ hj), List.getElem?_eq_getElem hj]
  rw [hlen] at hread
  rw [Mem.nat, Mem.read_store_other _ _ (by rw [toBytes_length]; omega), hread, leBytes_toBytes]
  exact Nat.mod_eq_of_lt (mget 0 s.mod.nonce i).isLt

end

/-- Settles O55: each action by its branches, then the completion, the registers and the attestation. -/
theorem serviceActions : Obligations.ServiceActions := by
  intro s m tgt doing
  refine ⟨fun h => congrArg _ (if_pos (State.not_serving h)), fun h => congrArg _ (if_pos (State.not_serving h)),
    fun h => congrArg _ (if_pos (State.not_serving h)), fun h => congrArg _ (if_pos (State.not_serving h)),
    fun h => congrArg _ (if_pos (State.not_serving h)), fun h => congrArg _ (if_pos (State.not_serving h)),
    fun hd ht => (exec_swapFirmware hd).trans (congrArg _ (if_pos ht)),
    fun hd ht => (exec_swapFirmware hd).trans (congrArg _ (if_neg (Nat.not_le.2 ht))),
    exec_installRoutine_beyond, exec_installRoutine_ends, exec_installRoutine_refuses,
    exec_retireCluster_beyond, exec_retireCluster_noSpare, fun hd ht hfree p hp => exec_retireCluster_spare hd ht hfree hp,
    exec_drainChannel_beyond, exec_drainChannel_moves, exec_drainChannel_waits, exec_drainChannel_ends,
    exec_retrainPort, exec_reloadCalibration, ⟨_, exec_serviceActionComplete s, ?_⟩,
    exec_windowRegisterWrite_evAddr, fun i hi h => exec_windowRegisterWrite_grant hi h,
    fun i hi h => exec_windowRegisterWrite_nonce hi h,
    fun hs hv hst => ⟨_, exec_attestationRequest hv hst, rfl, Mem.nat_store_same _ 0 8 [] hs⟩,
    fun hs ha => ⟨_, exec_attestationReport ha, rfl, Mem.nat_store_same _ 1 8 [] (Mem.wf_store _ _ _ hs),
      fun i hi => State.report_nonce hs hi⟩⟩
  rw [State.notify_mod]
  exact ⟨rfl, _, rfl, State.eventWord_high _ (by decide)⟩

end Sys2Proof.Machine
end
